-- ==== Sys2Proof/Word.lean ====
section
/-!
DEFINITION. The word types of the AM8170: 32-bit register words (R563), bytes, and their plainest arithmetic.
-/

namespace Sys2Proof

/-- One register word (R563). -/
abbrev Word := BitVec 32

/-- One byte of a payload, of the SRAM window or of the boot flash. -/
abbrev Byte := BitVec 8

/-- The word of a natural number, taken modulo 2^32. -/
def wordOf (n : Nat) : Word := BitVec.ofNat 32 n

/-- The byte of a natural number, taken modulo 2^8. -/
def byteOf (n : Nat) : Byte := BitVec.ofNat 8 n

namespace Machine

/-- A field of a register: the byte address of its word, the number of its lowest bit and its width (the columns
"Bits" and "Field" of the field tables; R563 gives the addressing). -/
structure Fld where
  addr : Nat
  lo : Nat
  width : Nat
  deriving DecidableEq, Repr

/-- One row of the register index (R566): a register, or an array of registers in up to two dimensions of stride and
count, with its reset word (R8) and the masks of its read-only bits, of its read-write bits of class S, F and L (R5),
of its write-one-to-clear bits and of its write-only bits (R4). Every other bit is RSV. -/
structure RegRow where
  base : Nat
  stride1 : Nat
  count1 : Nat
  stride2 : Nat
  count2 : Nat
  reset : Nat
  ro : Nat
  classS : Nat
  classF : Nat
  classL : Nat
  w1c : Nat
  wo : Nat
  deriving DecidableEq, Repr

end Machine

end Sys2Proof
end

