-- ==== Sys2Proof/Syntax.lean ====
section
/-!
DEFINITION. The commands the block takes, one constructor of `Instr` for each row of the opcode table, and the data
types of their operands. A command is an operation of a bus or protocol, an event on a pin, or an instant that the
manual names; 95_what_each_step_holds.md says what comes about inside each.
-/

namespace Sys2Proof

/-- The supply rails that a reset watches (R501, R504). -/
inductive Rail
  | vddAon | vddio3v3 | vdda1v8 | vddSd | vddhSd | vddCore | vddSram
  deriving DecidableEq, Repr

/-- One of the two network ports P0 and P1. -/
abbrev PortIx := Fin 2

/-- The source half of a requester (R345): the host, a source IP address and UDP port, or the gang link with the sender and
the `GSEQ` of a `RELAY` (R388). IP addresses are 128-bit numbers, with IPv4 addresses in IPv4-mapped form. -/
inductive Source
  | host
  | net (ip : Nat) (udp : Nat)
  | gang (sender gseq : Nat)
  deriving DecidableEq, Repr

/-- A Selul command as its packet spells it (R338), with the port that brought it and its source. `key` is `KEY_ID`. -/
structure Cmd where
  src : Source
  port : PortIx
  key : Fin 8
  noReply : Bool
  opcode : Nat
  gang : Nat
  tag : Nat
  txn : Nat
  epoch : Nat
  seq : Nat
  node : Nat
  arg : Nat
  payload : List Byte
  deriving DecidableEq, Repr

/-- A command that reads records from the control memory (R193, R366, R249), with the places of the words of its result that are
lost in both copies. -/
structure Fetch where
  cmd : Cmd
  poisoned : List Nat
  deriving DecidableEq, Repr

/-- A full time of the shared clock (R77): whole seconds and nanoseconds. -/
structure FullTime where
  sec : Nat
  ns : Nat
  deriving DecidableEq, Repr

/-- One IEEE 802.1Q tag. -/
structure VlanTag where
  vid : Nat
  pcp : Nat
  deriving DecidableEq, Repr

/-- A PTP Sync as the slave port takes it (R97): the port, the sender's clock identity, its sequenceId, the precise
origin time and the sum of its corrections in 2^-16 ns, log2 of the Sync interval, the flag "PTP profile specific 1"
(R84), the tenths of a nanosecond of the arrival after the last tick (R76) and the phase detector's reading in 0.1 ps. -/
structure SyncMsg where
  port : PortIx
  master : Nat
  seq : Nat
  origin : Int
  correction : Int
  logInterval : Int
  phaseBit : Bool
  frac10 : Nat
  phase : Int
  deriving DecidableEq, Repr

/-- A PTP Announce (R83): the port, the sender, and the data set that the best master clock algorithm compares. -/
structure PtpAnnounce where
  port : PortIx
  sender : Nat
  domain : Nat
  priority1 : Nat
  clockClass : Nat
  accuracy : Nat
  variance : Nat
  priority2 : Nat
  gmId : Nat
  stepsRemoved : Nat
  utcOffset : Nat
  traceable : Bool
  deriving DecidableEq, Repr

/-- A completed peer delay exchange (R85): the port, the sequenceId, the four timestamps and the corrections in 2^-16 ns, and
whether the partner answered with the phase-tracked bit (R84). -/
structure PdelayMsg where
  port : PortIx
  seq : Nat
  t1 : Int
  t2 : Int
  t3 : Int
  t4 : Int
  correction : Int
  partnerBit : Bool
  deriving DecidableEq, Repr

/-- The PTP event messages (R85). -/
inductive PtpKind
  | sync | delayReq | pdelayReq | pdelayResp
  deriving DecidableEq, Repr

/-- What forwarding needs of a PTP event message (R84 to R88): its kind, its correctionField in 2^-16 ns, its flag "PTP profile
specific 1", and the tenths of a nanosecond of its arrival after the last tick (R76). -/
structure PtpHead where
  kind : PtpKind
  correction : Int
  phaseBit : Bool
  frac10 : Nat
  deriving DecidableEq, Repr

/-- A port with the levels that its status shows at an event of it (R121, R149): Pn_LOS, Pn_TX_FAULT, and the block lock of the
PCS. -/
structure PortPins where
  port : PortIx
  los : Bool
  txFault : Bool
  blockLock : Bool
  deriving DecidableEq, Repr

/-- The levels with Pn_TX_FAULT high. -/
def PortPins.setFault (x : PortPins) : PortPins := { x with txFault := true }

/-- An IGMP query, or with `v6` an MLD query (R143): the group it asks for, 0 for a general query. -/
structure McQuery where
  v6 : Bool
  group : Nat
  deriving DecidableEq, Repr

/-- How the read of a sensor ends (R327 to R329): with a raw value, without an acknowledge, or with its bus found stuck at the
start of the transfer. -/
inductive SensorRead
  | value (raw : Nat)
  | noAck
  | stuck
  deriving DecidableEq, Repr

/-- What the MAC sees of a received frame (R123, R133): destination and source address, VLAN tags, length from the
first byte of the destination to the last of the FCS, whether the FCS is right, a code error lies within, the ingress
link was lost before its end, whether it is a PTP event message (R85), whether it is a peer delay message, and the FEC
codewords of it that were corrected and that were not correctable (R144). -/
structure FrameHead where
  dst : Nat
  src : Nat
  tags : List VlanTag
  len : Nat
  fcsOk : Bool
  codeErr : Bool
  linkCut : Bool
  ptp : Option PtpHead
  pdelay : Bool
  fecFixed : Nat
  fecBad : Nat
  deriving DecidableEq, Repr

/-- The IP and UDP header of a frame: 128-bit addresses (IPv4 in mapped form), ports, and whether it is a fragment. -/
structure IpHdr where
  src : Nat
  dst : Nat
  sport : Nat
  dport : Nat
  frag : Bool
  deriving DecidableEq, Repr

/-- An ST 2110-20 packet (R156 to R159): payload type, SSRC, the 32-bit extended sequence number, the RTP timestamp, the
marker bit, and the bytes of the UDP payload after the RTP header and the extended sequence number: the sample row data
headers and their data (R157). -/
structure RtpPkt where
  payloadType : Nat
  ssrc : Nat
  seq : Nat
  timestamp : Nat
  marker : Bool
  body : List Byte
  deriving DecidableEq, Repr

/-- An E1.31 data packet (R165 to R167): the source's identifier, priority, universe, sequence number, the options
Preview_Data and Stream_Terminated, the synchronization address, the start code, the slot values, and whether the vector
and length checks of E1.31 hold. -/
structure E131Pkt where
  cid : Nat
  priority : Nat
  univ : Nat
  seq : Nat
  preview : Bool
  terminated : Bool
  syncAddr : Nat
  startCode : Nat
  slots : List Byte
  formed : Bool
  deriving DecidableEq, Repr

/-- What a received frame carries: a stream packet over UDP, with a Luevevan packet as its bytes (R161), or something that
another unit claims or nobody does. -/
inductive RxBody
  | rtp (ip : IpHdr) (p : RtpPkt)
  | luevevan (ip : IpHdr) (payload : List Byte)
  | e131 (ip : IpHdr) (p : E131Pkt)
  | e131Sync (ip : IpHdr) (univ : Nat)
  | other
  deriving DecidableEq, Repr

/-- The work types (R221), in the order of their `TYPE` codes. -/
inductive WorkType
  | cropScale | correct | dither | transpose | detect | map
  deriving DecidableEq, Repr

/-- What one lane returns in a readback window (R315, R319, R320): the samples of the open and of the short readout, sample i as
bit i; the last of the two carries the chain check after the flags. -/
structure LaneRead where
  lane : Nat
  openBits : Nat
  shortBits : Nat
  deriving DecidableEq, Repr

/-- What follows an RDM request (R402, R405): nothing within 2.8 ms, a response with a bad checksum, an ACK with its
parameter data, an ACK_OVERFLOW part, a NACK with its reason code, an ACK_TIMER with its wait in units of 100 ms, or the
UIDs that discovery has found. -/
inductive RdmResp
  | none
  | bad
  | ack (uid pid : Nat) (data : List Byte)
  | overflow (data : List Byte)
  | nack (reason : Nat)
  | timer (tenths : Nat)
  | found (uids : List Nat)
  deriving DecidableEq, Repr

/-- What a calibration item measured (R492, R495): the trim of the control oscillator, which its own commands carry; the
phase offset of each port in 0.1 ps; the ADC offset in 1/16 code and gain in Q1.15; the tap that centres each lane, which
may lie outside 0 to 63; or each enabled lane's round-trip delay in picoseconds. -/
inductive CalOutcome
  | osc
  | phase (p0 p1 : Option Int)
  | adc (offset : Int) (gain : Nat)
  | deskew (taps : List (Nat × Int))
  | rbDelay (delays : List (Nat × Nat))
  deriving DecidableEq, Repr

/-- What the boot ROM finds of the boot records (R514): all valid, the boot selector without a valid copy, or one of the
other records without a valid copy. -/
inductive Records
  | intact | selectorBad | otherBad
  deriving DecidableEq, Repr

/-- The supply of a chain bank at reset release (R313, R544). -/
inductive BankSupply
  | v18 | v33 | neither
  deriving DecidableEq, Repr

/-- A write that arms a trigger (R112): `TIME` is written, or `MODE`. -/
inductive TrigWrite
  | time (v : Nat)
  | mode (m : Nat)
  deriving DecidableEq, Repr

/-- The commands: one constructor for each row of the opcode table. -/
inductive Instr
  /-- `GROUP_A_RAILS_GOOD` (R503) -/
  | groupARailsGood
  /-- `MAIN_RAIL_TIMEOUT` (R503) -/
  | mainRailTimeout
  /-- `RAIL_LOST` (R504) -/
  | railLost (r : Rail)
  /-- `PIN_RESET` (R505) -/
  | pinReset
  /-- `RESET_RELEASE` (R506) -/
  | resetRelease (straps : BitVec 11) (banks : List BankSupply) (testEn : Bool)
  /-- `IMAGE_START` (R513) -/
  | imageStart (records : Records) (logOk : Bool)
  /-- `PORTS_UP` (R515) -/
  | portsUp
  /-- `SETTINGS_APPLIED` (R477) -/
  | settingsApplied
  /-- `BOOT_LISTEN_END` (R434) -/
  | bootListenEnd
  /-- `WATCHDOG_EXPIRY` (R441) -/
  | watchdogExpiry (ms : Nat)
  /-- `XTAL_STALL` (R50) -/
  | xtalStall
  /-- `XTAL_GROSS_FREQ_TRIP` (R43) -/
  | xtalGrossFreqTrip
  /-- `P0_LOSS` (R43) -/
  | p0Loss (p : PortIx)
  /-- `P0_FREQ` (R45) -/
  | p0Freq (p : PortIx)
  /-- `XTAL_QUALIFIED` (R44) -/
  | xtalQualified
  /-- `RECOVERED_QUALIFIED` (R44) -/
  | recoveredQualified (p : PortIx)
  /-- `XTAL_QUAL_FAIL` (R49) -/
  | xtalQualFail
  /-- `WAIT_XTAL_DEADLINE` (R59) -/
  | waitXtalDeadline
  /-- `PLL_LOCK` (R62) -/
  | pllLock
  /-- `REVERT_HOLD_EXPIRY` (R56) -/
  | revertHoldExpiry
  /-- `SRC_MODE_WRITE` (R54) -/
  | srcModeWrite (mode : Fin 4)
  /-- `XTAL_RESTART` (R63) -/
  | xtalRestart
  /-- `FOFS_UPDATE` (R47) -/
  | fofsUpdate (p : PortIx) (ppb : Int)
  /-- `TRIM_NOW` (R66) -/
  | trimNow
  /-- `TRIM_GATE_END` (R66) -/
  | trimGateEnd (refLost : Bool) (cycles : Nat)
  /-- `AUTO_RETRIM` (R67) -/
  | autoRetrim
  /-- `SYNC_RECEIVED` (R97) -/
  | syncReceived (m : SyncMsg)
  /-- `ANNOUNCE_RECEIVED_PTP` (R83) -/
  | announceReceivedPtp (a : PtpAnnounce)
  /-- `FOREIGN_MASTER_AGEOUT` (R83) -/
  | foreignMasterAgeout (p : PortIx) (sender : Nat)
  /-- `DELAY_REQ_RECEIVED` (R83) -/
  | delayReqReceived (p : PortIx) (requester seq frac10 : Nat)
  /-- `PDELAY_EXCHANGE` (R85) -/
  | pdelayExchange (m : PdelayMsg)
  /-- `SYNC_SEND` (R82) -/
  | syncSend (p : PortIx) (frac10 : Nat)
  /-- `SYNC_LOSS` (R98) -/
  | syncLoss
  /-- `HOLD_EXPIRED` (R101) -/
  | holdExpired
  /-- `FSYNC_IN_EDGE` (R107) -/
  | fsyncInEdge (rising : Bool) (frac10 : Nat)
  /-- `FSYNC_MISS_LIMIT` (R108) -/
  | fsyncMissLimit
  /-- `SET_GO` (R116) -/
  | setGo
  /-- `TIM_NOW_READ` (R70) -/
  | timNowRead
  /-- `TSQ_POP` (R91) -/
  | tsqPop
  /-- `CAP_EDGE` (R111) -/
  | capEdge (n : Fin 4) (rising : Bool) (frac10 : Nat)
  /-- `CAP_POP` (R111) -/
  | capPop (n : Fin 4)
  /-- `TRIG_ARM` (R112) -/
  | trigArm (n : Fin 4) (w : TrigWrite)
  /-- `TRIG_FIRE` (R112) -/
  | trigFire (n : Fin 4)
  /-- `TRIG_PULSE_END` (R112) -/
  | trigPulseEnd (n : Fin 4)
  /-- `FRAME_BOUNDARY` (R104) -/
  | frameBoundary (n : Int)
  /-- `FREEZE_POINT` (R205) -/
  | freezePoint (n : Int)
  /-- `ZONE_STALE` (R263) -/
  | zoneStale (z : Fin 16)
  /-- `SUBFRAME_EDGE` (R105) -/
  | subframeEdge (n : Int) (k : Nat)
  /-- `ROW_SLOT_START` (R293) -/
  | rowSlotStart (n : Int) (k r : Nat)
  /-- `STAGING_BUFFER_FREE` (R296) -/
  | stagingBufferFree (n : Int) (k : Nat)
  /-- `SUBFRAME_RELEASE` (R223) -/
  | subframeRelease (n : Int) (k : Nat)
  /-- `ITEM_DEADLINE` (R233) -/
  | itemDeadline (n : Int) (k : Nat) (detect : Bool) (strip : Nat)
  /-- `CORE_REQUEST` (R231) -/
  | coreRequest (k : Fin 64)
  /-- `ITEM_RETIRE` (R226) -/
  | itemRetire (k : Fin 64) (poison : Option (List Nat))
  /-- `ITEM_HANG` (R440) -/
  | itemHang (k : Fin 64)
  /-- `PEAK_CLR` (R250) -/
  | peakClr
  /-- `TR_CLEAR` (R249) -/
  | trClear
  /-- `TRACE_POP` (R249) -/
  | tracePop
  /-- `LOCK_FRAME` (R303) -/
  | lockFrame (n : Int)
  /-- `DETECTION_WINDOW` (R318) -/
  | detectionWindow (n : Int) (k : Nat) (h : Fin 2)
  /-- `READBACK_WINDOW` (R319) -/
  | readbackWindow (n : Int) (k : Nat)
  /-- `READBACK_DONE` (R323) -/
  | readbackDone (n : Int) (k : Nat) (reads : List LaneRead)
  /-- `CFG_NOW` (R325) -/
  | cfgNow
  /-- `FMAP_CLEAR` (R323) -/
  | fmapClear
  /-- `FMAP_READ` (R324) -/
  | fmapRead (slot : Fin 4096)
  /-- `SENSOR_POLL` (R327) -/
  | sensorPoll (stuck0 stuck1 : Bool)
  /-- `SENSOR_READ_DONE` (R328) -/
  | sensorReadDone (slot : Fin 12) (x : SensorRead)
  /-- `NTC_CONVERSION` (R330) -/
  | ntcConversion (a : Fin 4) (code : Nat)
  /-- `RX_FRAME` (R133) -/
  | rxFrame (p : PortIx) (h : FrameHead) (b : RxBody)
  /-- `RING_BUFFER_RELEASE` (R137) -/
  | ringBufferRelease (p : PortIx) (k : Nat)
  /-- `WM_HIT_CLEAR` (R138) -/
  | wmHitClear (p : PortIx)
  /-- `FWD_START` (R127) -/
  | fwdStart (p : PortIx)
  /-- `EGRESS_IDLE` (R130) -/
  | egressIdle (p : PortIx)
  /-- `LOCAL_TX_ENQUEUE` (R131) -/
  | localTxEnqueue (p : PortIx) (len : Nat)
  /-- `LINK_UP_SEEN` (R122) -/
  | linkUpSeen (x : PortPins) (speed : Nat)
  /-- `LINK_DOWN` (R122) -/
  | linkDown (x : PortPins)
  /-- `SPEED_SEARCH_TIMEOUT` (R119) -/
  | speedSearchTimeout (x : PortPins)
  /-- `MOD_CHANGE` (R121) -/
  | modChange (x : PortPins) (absent : Bool) (best : Nat)
  /-- `TX_FAULT_SEEN` (R121) -/
  | txFaultSeen (x : PortPins)
  /-- `ARP_REQUEST` (R140) -/
  | arpRequest (p : PortIx) (ip asker : Nat)
  /-- `MC_REPORT_REPEAT` (R143) -/
  | mcReportRepeat (p : PortIx)
  /-- `MC_QUERY` (R143) -/
  | mcQuery (p : PortIx) (q : McQuery)
  /-- `STATS_COUNTER_READ` (R144) -/
  | statsCounterRead (addr : Nat)
  /-- `WAKE_MATCH` (R148) -/
  | wakeMatch (frame : List Byte) (fcsOk : Bool)
  /-- `SACN_SYNC_TIMEOUT` (R167) -/
  | sacnSyncTimeout (x : Fin 512)
  /-- `SACN_SOURCE_TIMEOUT` (R165) -/
  | sacnSourceTimeout (x : Fin 512) (cid : Nat)
  /-- `SOURCE_LOST` (R187) -/
  | sourceLost (x : Fin 512)
  /-- `DMX_RX_PACKET` (R398) -/
  | dmxRxPacket (p : Fin 4) (breakShort framing : Bool) (startCode : Nat) (slots : List Byte)
  /-- `DMX_SEND_INSTANT` (R397) -/
  | dmxSendInstant (p : Fin 4)
  /-- `RDM_RESPONSE` (R402) -/
  | rdmResponse (p : Fin 4) (resp : RdmResp)
  /-- `ACK_TIMER_WAIT_END` (R405) -/
  | ackTimerWaitEnd (p : Fin 4)
  /-- `SEM_EXPIRED` (R404) -/
  | semExpired (p : Fin 4)
  /-- `SEM_TIMEOUT` (R404) -/
  | semTimeout (p : Fin 4)
  /-- `SELUL_PACKET` (R342) -/
  | selulPacket (p : PortIx) (ip : IpHdr) (bytes : List Byte)
  /-- `BROADCAST_REPLY` (R347) -/
  | broadcastReply
  /-- `HQ_PUT` (R335) -/
  | hqPut (bytes : List Byte)
  /-- `HQ_GET` (R336) -/
  | hqGet (n : Nat)
  /-- `HQ_STAT` (R335) -/
  | hqStat
  /-- `PING` (R362) -/
  | ping (cmd : Cmd)
  /-- `IDENTIFY` (R363) -/
  | identify (cmd : Cmd)
  /-- `READ` (R352) -/
  | read (cmd : Cmd) (poisoned : List Nat)
  /-- `WRITE` (R353) -/
  | write (cmd : Cmd)
  /-- `WRITE_MASKED` (R352) -/
  | writeMasked (cmd : Cmd)
  /-- `REGISTER_WRITE` (R5) -/
  | registerWrite (addr : Nat) (mask value : BitVec 32)
  /-- `TXN_BEGIN` (R355) -/
  | txnBegin (cmd : Cmd)
  /-- `TXN_COMMIT` (R358) -/
  | txnCommit (cmd : Cmd)
  /-- `TXN_ROLLBACK` (R361) -/
  | txnRollback (cmd : Cmd)
  /-- `TXN_STATUS` (R355) -/
  | txnStatus (cmd : Cmd)
  /-- `TXN_DUE` (R359) -/
  | txnDue (id : Nat)
  /-- `TXN_TIMEOUT` (R361) -/
  | txnTimeout (id : Nat)
  /-- `BULK_LOAD` (R215) -/
  | bulkLoad (cmd : Cmd)
  /-- `STATS_READ` (R362) -/
  | statsRead (cmd : Cmd)
  /-- `EVENT_FETCH` (R366) -/
  | eventFetch (x : Fetch)
  /-- `EVENT_ACK` (R366) -/
  | eventAck (cmd : Cmd)
  /-- `TRACE_READ` (R249) -/
  | traceRead (x : Fetch)
  /-- `GATE_QUIESCE` (R454) -/
  | gateQuiesce (cmd : Cmd) (done : Bool)
  /-- `GATE_RESUME` (R456) -/
  | gateResume (cmd : Cmd)
  /-- `RESET` (R365) -/
  | reset (cmd : Cmd)
  /-- `COMMAND_ACTION_START` (R365) -/
  | commandActionStart
  /-- `DORMANT` (R516) -/
  | dormant (cmd : Cmd)
  /-- `START` (R369) -/
  | start
  /-- `STOP` (R369) -/
  | stop
  /-- `FW_BLOCK` (R468) -/
  | fwBlock (cmd : Cmd)
  /-- `BLOCK_BAD` (R469) -/
  | blockBad (block : Nat)
  /-- `FW_VERIFY` (R470) -/
  | fwVerify (cmd : Cmd)
  /-- `VERIFY_DONE` (R470) -/
  | verifyDone
  /-- `FW_ACTIVATE` (R473) -/
  | fwActivate (cmd : Cmd)
  /-- `ACTIVATION_START` (R474) -/
  | activationStart
  /-- `ACT_CANCEL` (R473) -/
  | actCancel
  /-- `FW_REVERT` (R478) -/
  | fwRevert (cmd : Cmd)
  /-- `SAVE` (R476) -/
  | save
  /-- `SAVE_DONE` (R476) -/
  | saveDone (good : Bool)
  /-- `LC_STATUS` (R481) -/
  | lcStatus (cmd : Cmd)
  /-- `LC_OPEN` (R481) -/
  | lcOpen (cmd : Cmd)
  /-- `LC_SEAL` (R481) -/
  | lcSeal (cmd : Cmd)
  /-- `LC_PIN` (R481) -/
  | lcPin (cmd : Cmd)
  /-- `RAISE_FLOOR` (R481) -/
  | raiseFloor (cmd : Cmd)
  /-- `CONSENT` (R481) -/
  | consent (cmd : Cmd)
  /-- `CONSENT_EXPIRY` (R482) -/
  | consentExpiry
  /-- `LC_RETURN` (R482) -/
  | lcReturn (cmd : Cmd)
  /-- `REBLANK` (R482) -/
  | reblank (cmd : Cmd)
  /-- `DECOMMISSION` (R481) -/
  | decommission (cmd : Cmd)
  /-- `SET_KEY` (R364) -/
  | setKey (cmd : Cmd)
  /-- `CLEAR_KEY` (R364) -/
  | clearKey (cmd : Cmd)
  /-- `CAL_RUN` (R491) -/
  | calRun (cmd : Cmd)
  /-- `CAL_TRIGGER` (R490) -/
  | calTrigger (trigger : Nat)
  /-- `CAL_ITEM_DONE` (R495) -/
  | calItemDone (o : CalOutcome)
  /-- `CAL_DONE` (R497) -/
  | calDone
  /-- `DESKEW_STEP` (R493) -/
  | deskewStep (quad : Nat) (taps : List (Nat × Int))
  /-- `DESKEW_NO_WINDOW` (R493) -/
  | deskewNoWindow
  /-- `CAL_INTERPOLATE` (R498) -/
  | calInterpolate (t : Int)
  /-- `BRIDGE_REQ` (R403) -/
  | bridgeReq (cmd : Cmd)
  /-- `BRIDGE_RESULT` (R405) -/
  | bridgeResult (p : Fin 4)
  /-- `BRIDGE_RESULT_COMMAND` (R362) -/
  | bridgeResultCommand (cmd : Cmd)
  /-- `POLL` (R382) -/
  | poll
  /-- `POLL_RECEIVED` (R382) -/
  | pollReceived (bytes : List Byte)
  /-- `STATUS_SEND` (R382) -/
  | statusSend
  /-- `STATUS_RECEIVED` (R383) -/
  | statusReceived (bytes : List Byte)
  /-- `APEX_LOST` (R379) -/
  | apexLost
  /-- `CLAIM_SEND` (R379) -/
  | claimSend
  /-- `CLAIM_RECEIVED` (R380) -/
  | claimReceived (bytes : List Byte)
  /-- `APEX_CHANGE` (R380) -/
  | apexChange
  /-- `RELAY_RECEIVED` (R388) -/
  | relayReceived (p : PortIx) (bytes : List Byte) (done : Bool) (poisoned : List Nat)
  /-- `RELAY_REPLY_RECEIVED` (R389) -/
  | relayReplyReceived (bytes : List Byte)
  /-- `RELAY_TIMEOUT` (R388) -/
  | relayTimeout (gseq : Nat)
  /-- `SIGNAL_RECEIVED` (R386) -/
  | signalReceived (bytes : List Byte)
  /-- `ACK_RECEIVED` (R385) -/
  | ackReceived (bytes : List Byte)
  /-- `SIGNAL_RESEND` (R385) -/
  | signalResend (gseq : Nat)
  /-- `FORGET` (R409) -/
  | forget
  /-- `WR` (R406) -/
  | wr (addr : Nat) (words : List Nat)
  /-- `RD` (R406) -/
  | rd (addr n : Nat)
  /-- `STAT` (R406) -/
  | stat
  /-- `MSG` (R408) -/
  | msg (n : Nat)
  /-- `BLK` (R406) -/
  | blk (addr : Nat) (data : List Byte)
  /-- `SEL` (R406) -/
  | sel (a : Nat)
  /-- `RST` (R406) -/
  | rst
  /-- `HEARTBEAT_SEND` (R419) -/
  | heartbeatSend
  /-- `HEARTBEAT_RECEIVED` (R419) -/
  | heartbeatReceived (bytes : List Byte)
  /-- `HB_MISS` (R419) -/
  | hbMiss
  /-- `PAIR_START_LISTEN_END` (R420) -/
  | pairStartListenEnd
  /-- `SNAPSHOT_SEND` (R424) -/
  | snapshotSend
  /-- `SNAP_PART_RECEIVED` (R426) -/
  | snapPartReceived (bytes : List Byte)
  /-- `JOURNAL_RECEIVED` (R426) -/
  | journalReceived (bytes : List Byte)
  /-- `JOURNAL_ISSUE` (R425) -/
  | journalIssue (record : List Byte)
  /-- `PAIR_ACK_RECEIVED` (R425) -/
  | pairAckReceived (bytes : List Byte)
  /-- `SWAP_NOW` (R428) -/
  | swapNow
  /-- `SWAP_RECEIVED` (R428) -/
  | swapReceived (bytes : List Byte)
  /-- `SWAP_FAIL` (R428) -/
  | swapFail
  /-- `SWAP_EVERY_TIMER` (R429) -/
  | swapEveryTimer
  /-- `ANNOUNCE_RECEIVED` (R433) -/
  | announceReceived (bytes : List Byte)
  /-- `ANNOUNCE_PERIODIC` (R432) -/
  | announcePeriodic
  /-- `REPROVISION` (R431) -/
  | reprovision
  /-- `ERROR_DETECTED` (R440) -/
  | errorDetected (code unit detail : Nat)
  /-- `HANDLER_COMPLETE` (R446) -/
  | handlerComplete (level : Fin 4)
  /-- `HANDLER_TIMEOUT` (R446) -/
  | handlerTimeout (level : Fin 4)
  /-- `LOG_CLEAR` (R463) -/
  | logClear
  /-- `LOG_POP` (R459) -/
  | logPop
  /-- `GANG_MEMBER_READ` (R410) -/
  | gangMemberRead (m : Fin 64)
  /-- `CAL_SET_READ` (R499) -/
  | calSetRead (k : Fin 8)
  /-- `DELAY_REQ_SEND` (R80) -/
  | delayReqSend (p : PortIx) (frac10 : Nat)
  /-- `DELAY_RESP_RECEIVED` (R97) -/
  | delayRespReceived (p : PortIx) (sender seq : Nat) (receipt correction : Int)
  /-- `PTP_ANNOUNCE_SEND` (R80) -/
  | ptpAnnounceSend (p : PortIx)
  /-- `P0_ACTIVE_TIMEOUT` (R188) -/
  | p0ActiveTimeout (x : Fin 512) (p : PortIx)
  /-- `TCK_EDGE` (R538) -/
  | tckEdge (level tms tdi : Bool)
  /-- `TRST_N_LOW` (R539) -/
  | trstNLow
  deriving DecidableEq, Repr

end Sys2Proof
end

