-- ==== Sys2Proof/Machine/Hash.lean ====
section
/-!
DEFINITION. SHA-256 and HMAC-SHA-256 (R339, R467), which the manual names by their standards.
-/

namespace Sys2Proof.Machine

open Sys2Proof

/-- The big-endian bytes of `n` in `k` bytes. -/
def bytesBE : Nat → Nat → List Byte
  | 0, _ => []
  | k + 1, n => byteOf (n / 2 ^ (8 * k)) :: bytesBE k n

/-- A number from its big-endian bytes. -/
def natBE (l : List Byte) : Nat := l.foldl (fun a b => a * 256 + b.toNat) 0

/-- `n` bytes of a list from offset `o`. -/
def sliceB (l : List Byte) (o n : Nat) : List Byte := (l.drop o).take n

/-- The big-endian number in `n` bytes from offset `o`. -/
def fieldBE (l : List Byte) (o n : Nat) : Nat := natBE (sliceB l o n)

/-! The standard takes its constants from the first 64 primes: the first 32 bits of the fractions of their cube roots for the
rounds, and of the square roots of the first eight for the initial value. -/

/-- Whether `n` is a prime beyond the primes `l`, all of those below it. -/
def isNextPrime (l : List Nat) (n : Nat) : Bool := l.all (fun p => n % p != 0)

/-- The primes among the `k` numbers from `n` on, after those of `l`. -/
def primesFrom : Nat → Nat → List Nat → List Nat
  | 0, _, l => l
  | k + 1, n, l => primesFrom k (n + 1) (if isNextPrime l n then l ++ [n] else l)

/-- The 64 primes up to 311. -/
def shaPrimes : List Nat := primesFrom 310 2 []

/-- The largest `r` below `x + 2 ^ k`, not below `x`, whose power `e` does not exceed `n`, found from bit `k - 1` down. -/
def rootFrom (e n : Nat) : Nat → Nat → Nat
  | 0, x => x
  | k + 1, x => rootFrom e n k (if (x + 2 ^ k) ^ e ≤ n then x + 2 ^ k else x)

/-- The first 32 bits of the fraction of the root `e` of `p`. -/
def rootFraction (e p : Nat) : Word := wordOf (rootFrom e (p * 2 ^ (32 * e)) 37 0)

/-- The round constants. -/
def shaK : List Word := shaPrimes.map (rootFraction 3)

/-- The initial hash value. -/
def shaInit : List Word := (shaPrimes.take 8).map (rootFraction 2)

/-- The exclusive or of the rotations of `x` to the right by the numbers of `l`. -/
def rotations (x : Word) (l : List Nat) : Word := l.foldl (fun y n => y ^^^ (x >>> n ||| x <<< (32 - n))) 0

/-- The message schedule, the newest word first: `n` further words. -/
def shaExtend : Nat → List Word → List Word
  | 0, w => w
  | n + 1, w =>
    let old := w.getD 14 0
    let new := w.getD 1 0
    let sum := w.getD 15 0 + w.getD 6 0 + (rotations old [7, 18] ^^^ old >>> 3) + (rotations new [17, 19] ^^^ new >>> 10)
    shaExtend n (sum :: w)

/-- The working variables: the four from `a` on and the four from `e` on. -/
abbrev ShaVars := (Word × Word × Word × Word) × (Word × Word × Word × Word)

/-- One round, with the sum of the round's constant and its schedule word: both halves move by one, and each takes in a new
word at its front. -/
def shaRound (v : ShaVars) (kw : Word) : ShaVars :=
  let ((a, b, c, d), (e, f, g, h)) := v
  let chosen := g ^^^ (e &&& (f ^^^ g))
  let most := (a &&& b) ||| (c &&& (a ||| b))
  let into := h + kw + rotations e [6, 11, 25] + chosen
  ((into + most + rotations a [2, 13, 22], a, b, c), (d + into, e, f, g))

def ShaVars.ofList (l : List Word) : ShaVars :=
  ((l.getD 0 0, l.getD 1 0, l.getD 2 0, l.getD 3 0), (l.getD 4 0, l.getD 5 0, l.getD 6 0, l.getD 7 0))

def ShaVars.toList (v : ShaVars) : List Word :=
  [v.1.1, v.1.2.1, v.1.2.2.1, v.1.2.2.2, v.2.1, v.2.2.1, v.2.2.2.1, v.2.2.2.2]

/-- The words of a block of 64 bytes, in order. -/
def blockWords (n : Nat) (l : List Byte) : List Word :=
  (List.range n).map (fun i => wordOf (fieldBE l (4 * i) 4))

/-- The hash value after one block. -/
def shaBlock (h : List Word) (block : List Byte) : List Word :=
  let w := (shaExtend 48 (blockWords 16 block).reverse).reverse
  let v := (List.zipWith (· + ·) shaK w).foldl shaRound (ShaVars.ofList h)
  List.zipWith (· + ·) h v.toList

/-- The message padded to whole blocks. -/
def shaPad (m : List Byte) : List Byte :=
  let z := (119 - m.length % 64) % 64
  m ++ [0x80#8] ++ List.replicate z 0#8 ++ bytesBE 8 (8 * m.length)

/-- The hash value after `n` blocks. -/
def shaBlocks : Nat → List Word → List Byte → List Word
  | 0, h, _ => h
  | n + 1, h, l => shaBlocks n (shaBlock h (l.take 64)) (l.drop 64)

/-- SHA-256. -/
def sha256 (m : List Byte) : List Byte :=
  let p := shaPad m
  (shaBlocks (p.length / 64) shaInit p).flatMap (fun w => bytesBE 4 w.toNat)

/-- HMAC-SHA-256 under a key of at most 64 bytes. -/
def hmac256 (key m : List Byte) : List Byte :=
  let k := key ++ List.replicate (64 - key.length) 0#8
  sha256 (k.map (· ^^^ 0x5c#8) ++ sha256 (k.map (· ^^^ 0x36#8) ++ m))

end Sys2Proof.Machine
end

