-- ==== Sys2Proof/Config.lean ====
section
/-!
DEFINITION. The free values: constants without a body, for what the manual leaves open. Most are applied to the model's
own counter of draws (`Chip.freeCtr`), so that every draw is fresh and nothing is known of it.
-/

namespace Sys2Proof.Config

/-- The error of CORRECT for a draw and a channel number: the stored value lies within two codes of the exact result
(R253); the model takes the value modulo 5, less 2. -/
opaque correctError : Nat → Nat → Nat

/-- What CROP/SCALE resamples a destination channel to: the manual gives no filter (R180); (draw, channel number). -/
opaque scaled : Nat → Nat → Nat

/-- `BOOT_ID`, drawn at each reset release (R339). -/
opaque bootId : Nat → BitVec 32

/-- The 8-byte random nonce of a consent (R482). -/
opaque nonce : Nat → BitVec 64

/-- Whether a signature verifies under the boot-ROM key of an index: the keys are not given (R467, R482); (key index,
digest, signature). -/
opaque ecdsaValid : Nat → List Byte → List Byte → Bool

/-- Factory values: silicon stepping, base MAC address and unique number (R485). -/
opaque silicon : BitVec 16
opaque macBase : BitVec 48
opaque uniqueId : BitVec 128

/-- The factory RDM controller UID (R402). -/
opaque brgUid : BitVec 48

/-- Bytes of a still slot whose contents a relayout leaves open (R200); (draw, address). -/
opaque sramByte : Nat → Nat → BitVec 8

/-- A delay or choice that the manual bounds and leaves open; (draw). -/
opaque choice : Nat → Nat

/-- What boundary-scan cells that capture a ball see (R538); (draw, cell). -/
opaque ballLevel : Nat → Nat → Bool

end Sys2Proof.Config
end

