-- ==== Sys2Proof/Machine/FixMath.lean ====
section
/-!
DEFINITION. Logarithms and powers of rationals in fixed point, to well below any code that the model forms from them
(R256, R330).
-/

namespace Sys2Proof.Machine

/-- The integer square root of `n`, from bit `k` down. -/
def isqrtFrom : Nat → Nat → Nat → Nat
  | 0, _, r => r
  | k + 1, n, r =>
    let t := r + 2 ^ k
    isqrtFrom k n (if t * t ≤ n then t else r)

/-- The integer square root of a number below 2^256. -/
def isqrt (n : Nat) : Nat := isqrtFrom 128 n 0

/-- The next `k` bits of the binary logarithm of `m` in [1, 2), in units of 2^-96. -/
def log2Bits : Nat → Nat → Nat → Nat
  | 0, _, acc => acc
  | k + 1, m, acc =>
    let s := m * m / 2 ^ 96
    if s < 2 ^ 97 then log2Bits k s (2 * acc) else log2Bits k (s / 2) (2 * acc + 1)

/-- The binary logarithm of a positive rational. -/
def log2Q (x : Rat) : Rat :=
  if x ≤ 0 then 0
  else
    let n := x.num.toNat
    let d := x.den
    let e0 : Int := (Nat.log2 n : Int) - (Nat.log2 d : Int)
    let m0 := if 0 ≤ e0 then n * 2 ^ 96 / (d * 2 ^ e0.toNat) else n * 2 ^ (96 + (-e0).toNat) / d
    let e := if m0 < 2 ^ 96 then e0 - 1 else e0
    let m := if m0 < 2 ^ 96 then 2 * m0 else m0
    (e : Rat) + (log2Bits 64 m 0 : Nat) / (2 ^ 64 : Nat)

/-- The product of the roots 2^(2^-i) that the bits of a fraction select, most significant first, in units of 2^-96. -/
def exp2Bits : Nat → Nat → Nat → Nat → Nat
  | 0, _, _, acc => acc
  | k + 1, f, root, acc =>
    let root' := isqrt (root * 2 ^ 96)
    exp2Bits k f root' (if f.testBit k then acc * root' / 2 ^ 96 else acc)

/-- Two to the power of a rational. -/
def exp2Q (x : Rat) : Rat :=
  let i := x.floor
  let f := ((x - (i : Rat)) * (2 ^ 64 : Nat)).floor.toNat
  let m : Rat := (exp2Bits 64 f (2 * 2 ^ 96) (2 ^ 96) : Nat) / (2 ^ 96 : Nat)
  if 0 ≤ i then m * (2 ^ i.toNat : Nat) else m / (2 ^ (-i).toNat : Nat)

/-- The power `x ^ a` of a rational that is not negative. -/
def powQ (x a : Rat) : Rat := if x ≤ 0 then 0 else exp2Q (a * log2Q x)

/-- The natural logarithm of 2. -/
def ln2Q : Rat := 12786308645202655660 / 18446744073709551616

def lnQ (x : Rat) : Rat := log2Q x * ln2Q

def expQ (x : Rat) : Rat := exp2Q (x / ln2Q)

/-- The decimal logarithm. -/
def log10Q (x : Rat) : Rat := log2Q x * (5553023288523357133 / 18446744073709551616)

/-- The nearest integer, halves rounded up. -/
def roundQ (x : Rat) : Int := (x + 1 / 2).floor

/-- A rational held between two bounds. -/
def clampQ (lo hi x : Rat) : Rat := if x < lo then lo else if hi < x then hi else x

end Sys2Proof.Machine
end

