-- ==== Sys2Proof/Machine/RegMap.lean ====
section
/-!
DEFINITION. The configuration space map (R563 to R567): the fields of every register, one `Fld` each under the manual's
own names, and the register index with access masks and reset words, block by block. RSV bits belong to no mask.
-/

namespace Sys2Proof.Machine

/-! `CLK_CTRL`, R72 (02). -/
def CLK_CTRL.SRC_MODE : Fld := ⟨0x10000, 0, 2⟩
def CLK_CTRL.PLL_BW : Fld := ⟨0x10000, 2, 2⟩
def CLK_CTRL.REVERTIVE : Fld := ⟨0x10000, 4, 1⟩
def CLK_CTRL.UPSTREAM : Fld := ⟨0x10000, 5, 1⟩
def CLK_CTRL.XTAL_RESTART : Fld := ⟨0x10000, 6, 1⟩

/-! `CLK_STATUS`, R72 (02). -/
def CLK_STATUS.ACTIVE_SRC : Fld := ⟨0x10004, 0, 2⟩
def CLK_STATUS.HOLDOVER : Fld := ⟨0x10004, 2, 1⟩
def CLK_STATUS.XTAL_QUAL : Fld := ⟨0x10004, 3, 1⟩
def CLK_STATUS.XTAL_WINDOW : Fld := ⟨0x10004, 4, 1⟩
def CLK_STATUS.P0_QUAL : Fld := ⟨0x10004, 5, 1⟩
def CLK_STATUS.P1_QUAL : Fld := ⟨0x10004, 6, 1⟩
def CLK_STATUS.PLL_LOCK : Fld := ⟨0x10004, 7, 1⟩
def CLK_STATUS.WAIT_XTAL : Fld := ⟨0x10004, 8, 1⟩
def CLK_STATUS.COSC_TRIMMED : Fld := ⟨0x10004, 9, 1⟩

/-! `CLK_EVENT`, R72 (02). -/
def CLK_EVENT.XTAL_STALL : Fld := ⟨0x10008, 0, 1⟩
def CLK_EVENT.XTAL_QUAL_FAIL : Fld := ⟨0x10008, 1, 1⟩
def CLK_EVENT.P0_LOSS : Fld := ⟨0x10008, 2, 1⟩
def CLK_EVENT.P1_LOSS : Fld := ⟨0x10008, 3, 1⟩
def CLK_EVENT.P0_FREQ : Fld := ⟨0x10008, 4, 1⟩
def CLK_EVENT.P1_FREQ : Fld := ⟨0x10008, 5, 1⟩
def CLK_EVENT.SRC_SWITCH : Fld := ⟨0x10008, 6, 1⟩
def CLK_EVENT.WAIT_XTAL_SEEN : Fld := ⟨0x10008, 7, 1⟩
def CLK_EVENT.COSC_TRIM_FAIL : Fld := ⟨0x10008, 8, 1⟩
def CLK_EVENT.SWITCH_COUNT : Fld := ⟨0x10008, 16, 16⟩

/-! `CLK_LIMITS`, R72 (02). -/
def CLK_LIMITS.FREQ_LIMIT : Fld := ⟨0x1000c, 0, 10⟩
def CLK_LIMITS.QUAL_TIME : Fld := ⟨0x1000c, 16, 8⟩
def CLK_LIMITS.SLEW : Fld := ⟨0x1000c, 24, 8⟩

/-! `CLK_REVERT`, R72 (02). -/
def CLK_REVERT.REVERT_HOLD : Fld := ⟨0x10010, 0, 16⟩

/-! `CLK_Pp_FOFS`, R72 (02). -/
def CLK_Pp_FOFS.FOFS (p : Nat) : Fld := ⟨0x10014 + 0x4 * p, 0, 32⟩

/-! `CLK_COSC_TRIM`, R72 (02). -/
def CLK_COSC_TRIM.COARSE : Fld := ⟨0x10020, 0, 6⟩
def CLK_COSC_TRIM.FINE : Fld := ⟨0x10020, 6, 8⟩
def CLK_COSC_TRIM.TRIM_REF : Fld := ⟨0x10020, 14, 2⟩
def CLK_COSC_TRIM.AUTO : Fld := ⟨0x10020, 16, 1⟩
def CLK_COSC_TRIM.TRIM_NOW : Fld := ⟨0x10020, 17, 1⟩

/-! `CLK_COSC_MEAS`, R72 (02). -/
def CLK_COSC_MEAS.FREQ_KHZ : Fld := ⟨0x10024, 0, 24⟩
def CLK_COSC_MEAS.AGE : Fld := ⟨0x10024, 24, 8⟩

/-! `CLK_XTAL`, R72 (02). -/
def CLK_XTAL.DRIVE : Fld := ⟨0x10028, 0, 2⟩
def CLK_XTAL.BYPASS : Fld := ⟨0x10028, 2, 1⟩

/-! `TIM_CTRL`, R116 (03). -/
def TIM_CTRL.TIME_SRC : Fld := ⟨0x20000, 0, 2⟩
def TIM_CTRL.PROFILE : Fld := ⟨0x20000, 2, 1⟩
def TIM_CTRL.PTP_ROLE : Fld := ⟨0x20000, 3, 2⟩
def TIM_CTRL.TC_MODE : Fld := ⟨0x20000, 5, 2⟩
def TIM_CTRL.TRANSPORT : Fld := ⟨0x20000, 7, 2⟩
def TIM_CTRL.TS_EXPORT : Fld := ⟨0x20000, 9, 1⟩
def TIM_CTRL.SET_GO : Fld := ⟨0x20000, 10, 1⟩
def TIM_CTRL.DOMAIN : Fld := ⟨0x20000, 16, 8⟩

/-! `TIM_STATUS`, R116 (03). -/
def TIM_STATUS.SERVO_STATE : Fld := ⟨0x20004, 0, 3⟩
def TIM_STATUS.TIME_VALID : Fld := ⟨0x20004, 3, 1⟩
def TIM_STATUS.TRACEABLE : Fld := ⟨0x20004, 4, 1⟩
def TIM_STATUS.SLAVE_PORT : Fld := ⟨0x20004, 5, 1⟩
def TIM_STATUS.PHASE_VALID : Fld := ⟨0x20004, 6, 1⟩
def TIM_STATUS.UTC_OFFSET : Fld := ⟨0x20004, 16, 16⟩

/-! `TIM_EVENT`, R116 (03). -/
def TIM_EVENT.STEP : Fld := ⟨0x20008, 0, 1⟩
def TIM_EVENT.HOLD_ENTER : Fld := ⟨0x20008, 1, 1⟩
def TIM_EVENT.HOLD_EXPIRED : Fld := ⟨0x20008, 2, 1⟩
def TIM_EVENT.PHASE_CHAIN_BROKEN : Fld := ⟨0x20008, 3, 1⟩
def TIM_EVENT.GM_CHANGE : Fld := ⟨0x20008, 4, 1⟩
def TIM_EVENT.TSQ_OVERRUN : Fld := ⟨0x20008, 5, 1⟩
def TIM_EVENT.CAPn_OVERRUN : Fld := ⟨0x20008, 6, 4⟩
def TIM_EVENT.TRIGn_MISSED : Fld := ⟨0x20008, 10, 4⟩
def TIM_EVENT.TRIGn_LATE : Fld := ⟨0x20008, 14, 4⟩
def TIM_EVENT.TRIGn_STEPPED : Fld := ⟨0x20008, 18, 4⟩
def TIM_EVENT.SET_REFUSED : Fld := ⟨0x20008, 22, 1⟩

/-! `TIM_SERVO`, R116 (03). -/
def TIM_SERVO.KP_SHIFT : Fld := ⟨0x2000c, 0, 4⟩
def TIM_SERVO.KI_SHIFT : Fld := ⟨0x2000c, 4, 4⟩
def TIM_SERVO.LOCK_THRESH : Fld := ⟨0x2000c, 8, 8⟩
def TIM_SERVO.STEP_THRESH : Fld := ⟨0x2000c, 16, 8⟩
def TIM_SERVO.OUTLIER : Fld := ⟨0x2000c, 24, 8⟩

/-! `TIM_HOLD`, R116 (03). -/
def TIM_HOLD.HOLD_MAX : Fld := ⟨0x20010, 0, 16⟩
def TIM_HOLD.HOLD_ACTION : Fld := ⟨0x20010, 16, 1⟩

/-! `TIM_HOLD_TIME`, R116 (03). -/
def TIM_HOLD_TIME.HOLD_TIME : Fld := ⟨0x20014, 0, 32⟩

/-! `TIM_OFFSET`, R116 (03). -/
def TIM_OFFSET.OFFSET : Fld := ⟨0x20018, 0, 32⟩

/-! `TIM_RATE`, R116 (03). -/
def TIM_RATE.RATE : Fld := ⟨0x2001c, 0, 32⟩

/-! `TIM_GRID`, R116 (03). -/
def TIM_GRID.GRID_OFFSET : Fld := ⟨0x20020, 0, 32⟩

/-! `TIM_PTP_CFG`, R116 (03). -/
def TIM_PTP_CFG.LOG_SYNC : Fld := ⟨0x20050, 0, 4⟩
def TIM_PTP_CFG.LOG_ANNOUNCE : Fld := ⟨0x20050, 4, 4⟩
def TIM_PTP_CFG.LOG_DELAY : Fld := ⟨0x20050, 8, 4⟩
def TIM_PTP_CFG.PRIORITY1 : Fld := ⟨0x20050, 16, 8⟩
def TIM_PTP_CFG.PRIORITY2 : Fld := ⟨0x20050, 24, 8⟩

/-! `TIM_PTP_QUALITY`, R116 (03). -/
def TIM_PTP_QUALITY.CLOCK_CLASS : Fld := ⟨0x20054, 0, 8⟩
def TIM_PTP_QUALITY.ACCURACY : Fld := ⟨0x20054, 8, 8⟩
def TIM_PTP_QUALITY.VARIANCE : Fld := ⟨0x20054, 16, 16⟩

/-! `TIM_GM_ID`, R116 (03). -/
def TIM_GM_ID.GM_ID (w : Nat) : Fld := ⟨0x20058 + 0x4 * w, 0, 32⟩

/-! `TIM_Pp_ASYM`, R116 (03). -/
def TIM_Pp_ASYM.ASYM (p : Nat) : Fld := ⟨0x20060 + 0x10 * p, 0, 32⟩

/-! `TIM_Pp_ALPHA`, R116 (03). -/
def TIM_Pp_ALPHA.ALPHA (p : Nat) : Fld := ⟨0x20064 + 0x10 * p, 0, 32⟩

/-! `TIM_Pp_LINKDLY`, R116 (03). -/
def TIM_Pp_LINKDLY.LINKDLY (p : Nat) : Fld := ⟨0x20068 + 0x10 * p, 0, 32⟩

/-! `TIM_Pp_PHASE`, R116 (03). -/
def TIM_Pp_PHASE.PHASE (p : Nat) : Fld := ⟨0x2006c + 0x10 * p, 0, 32⟩

/-! `TIM_FSYNC`, R116 (03). -/
def TIM_FSYNC.FS_EDGE : Fld := ⟨0x20080, 0, 1⟩
def TIM_FSYNC.FS_FRAMES : Fld := ⟨0x20080, 1, 3⟩
def TIM_FSYNC.FS_MISS : Fld := ⟨0x20080, 4, 4⟩
def TIM_FSYNC.FS_WINDOW : Fld := ⟨0x20080, 8, 16⟩

/-! `TIM_FSYNC_DELAY`, R116 (03). -/
def TIM_FSYNC_DELAY.FS_DELAY : Fld := ⟨0x20084, 0, 32⟩

/-! `TIM_FSYNC_ERROR`, R116 (03). -/
def TIM_FSYNC_ERROR.FS_ERROR : Fld := ⟨0x20088, 0, 32⟩

/-! `TIM_CAP_CTRL`, R116 (03). -/
def TIM_CAP_CTRL.CAP0_EDGE : Fld := ⟨0x20090, 0, 2⟩
def TIM_CAP_CTRL.CAP1_EDGE : Fld := ⟨0x20090, 8, 2⟩
def TIM_CAP_CTRL.CAP2_EDGE : Fld := ⟨0x20090, 16, 2⟩
def TIM_CAP_CTRL.CAP3_EDGE : Fld := ⟨0x20090, 24, 2⟩

/-! `TIM_TRIGn_CTRL`, R116 (03). -/
def TIM_TRIGn_CTRL.MODE (n : Nat) : Fld := ⟨0x200e0 + 0x10 * n, 0, 3⟩
def TIM_TRIGn_CTRL.POL (n : Nat) : Fld := ⟨0x200e0 + 0x10 * n, 3, 1⟩
def TIM_TRIGn_CTRL.FACET (n : Nat) : Fld := ⟨0x200e0 + 0x10 * n, 4, 2⟩
def TIM_TRIGn_CTRL.WIDTH (n : Nat) : Fld := ⟨0x200e0 + 0x10 * n, 16, 16⟩

/-! `TIM_TRIGn_TIME`, R116 (03). -/
def TIM_TRIGn_TIME.TIME (n : Nat) : Fld := ⟨0x200e4 + 0x10 * n, 0, 32⟩

/-! `TIM_TRIGn_PERIOD`, R116 (03). -/
def TIM_TRIGn_PERIOD.PERIOD (n : Nat) : Fld := ⟨0x200e8 + 0x10 * n, 0, 32⟩

/-! `TIM_TRIGn_OFFSET`, R116 (03). -/
def TIM_TRIGn_OFFSET.OFFSET (n : Nat) : Fld := ⟨0x200ec + 0x10 * n, 0, 32⟩

/-! `PRTn_CTRL`, R149 (04). -/
def PRTn_CTRL.SPEED (n : Nat) : Fld := ⟨0x30000 + 0x8000 * n, 0, 3⟩
def PRTn_CTRL.FEC (n : Nat) : Fld := ⟨0x30000 + 0x8000 * n, 3, 2⟩
def PRTn_CTRL.TX_INV (n : Nat) : Fld := ⟨0x30000 + 0x8000 * n, 5, 1⟩
def PRTn_CTRL.RX_INV (n : Nat) : Fld := ⟨0x30000 + 0x8000 * n, 6, 1⟩
def PRTn_CTRL.AN_EN (n : Nat) : Fld := ⟨0x30000 + 0x8000 * n, 7, 1⟩
def PRTn_CTRL.FWD_EN (n : Nat) : Fld := ⟨0x30000 + 0x8000 * n, 8, 1⟩
def PRTn_CTRL.CUT_THROUGH (n : Nat) : Fld := ⟨0x30000 + 0x8000 * n, 9, 1⟩
def PRTn_CTRL.TX_DIS (n : Nat) : Fld := ⟨0x30000 + 0x8000 * n, 10, 1⟩
def PRTn_CTRL.VLAN_FILTER (n : Nat) : Fld := ⟨0x30000 + 0x8000 * n, 11, 1⟩
def PRTn_CTRL.FWD_BURST (n : Nat) : Fld := ⟨0x30000 + 0x8000 * n, 12, 4⟩

/-! `PRTn_MAXLEN`, R149 (04). -/
def PRTn_MAXLEN.MAX_LEN (n : Nat) : Fld := ⟨0x30004 + 0x8000 * n, 0, 14⟩

/-! `PRTn_STATUS`, R149 (04). -/
def PRTn_STATUS.LINK_UP (n : Nat) : Fld := ⟨0x30008 + 0x8000 * n, 0, 1⟩
def PRTn_STATUS.BLOCK_LOCK (n : Nat) : Fld := ⟨0x30008 + 0x8000 * n, 1, 1⟩
def PRTn_STATUS.AN_DONE (n : Nat) : Fld := ⟨0x30008 + 0x8000 * n, 2, 1⟩
def PRTn_STATUS.SPEED_ACT (n : Nat) : Fld := ⟨0x30008 + 0x8000 * n, 3, 3⟩
def PRTn_STATUS.FEC_ACT (n : Nat) : Fld := ⟨0x30008 + 0x8000 * n, 6, 2⟩
def PRTn_STATUS.MOD_ABS (n : Nat) : Fld := ⟨0x30008 + 0x8000 * n, 8, 1⟩
def PRTn_STATUS.LOS (n : Nat) : Fld := ⟨0x30008 + 0x8000 * n, 9, 1⟩
def PRTn_STATUS.TX_FAULT (n : Nat) : Fld := ⟨0x30008 + 0x8000 * n, 10, 1⟩
def PRTn_STATUS.CUT_ACTIVE (n : Nat) : Fld := ⟨0x30008 + 0x8000 * n, 11, 1⟩

/-! `PRTn_EVENT`, R149 (04). -/
def PRTn_EVENT.LINK_DOWN (n : Nat) : Fld := ⟨0x3000c + 0x8000 * n, 0, 1⟩
def PRTn_EVENT.LINK_UP_SEEN (n : Nat) : Fld := ⟨0x3000c + 0x8000 * n, 1, 1⟩
def PRTn_EVENT.MOD_CHANGE (n : Nat) : Fld := ⟨0x3000c + 0x8000 * n, 2, 1⟩
def PRTn_EVENT.TX_FAULT_SEEN (n : Nat) : Fld := ⟨0x3000c + 0x8000 * n, 3, 1⟩
def PRTn_EVENT.WM_HIT (n : Nat) : Fld := ⟨0x3000c + 0x8000 * n, 4, 1⟩
def PRTn_EVENT.FWD_FULL (n : Nat) : Fld := ⟨0x3000c + 0x8000 * n, 5, 1⟩
def PRTn_EVENT.TXQ_OVERRUN (n : Nat) : Fld := ⟨0x3000c + 0x8000 * n, 6, 1⟩
def PRTn_EVENT.MC_TABLE_FULL (n : Nat) : Fld := ⟨0x3000c + 0x8000 * n, 7, 1⟩

/-! `PRTn_RING_WM`, R149 (04). -/
def PRTn_RING_WM.WM_LEVEL (n : Nat) : Fld := ⟨0x30010 + 0x8000 * n, 0, 12⟩

/-! `PRTn_RING_STAT`, R149 (04). -/
def PRTn_RING_STAT.RING_USED (n : Nat) : Fld := ⟨0x30014 + 0x8000 * n, 0, 12⟩
def PRTn_RING_STAT.RING_PEAK (n : Nat) : Fld := ⟨0x30014 + 0x8000 * n, 16, 12⟩

/-! `PRTn_RING_CROSS`, R149 (04). -/
def PRTn_RING_CROSS.WM_CROSSINGS (n : Nat) : Fld := ⟨0x30018 + 0x8000 * n, 0, 32⟩

/-! `PRTn_MAC_HI`, R149 (04). -/
def PRTn_MAC_HI.MAC_HI (n : Nat) : Fld := ⟨0x30020 + 0x8000 * n, 0, 16⟩

/-! `PRTn_MAC_LO`, R149 (04). -/
def PRTn_MAC_LO.MAC_LO (n : Nat) : Fld := ⟨0x30024 + 0x8000 * n, 0, 32⟩

/-! `PRTn_IPV4`, R149 (04). -/
def PRTn_IPV4.IPV4 (n : Nat) : Fld := ⟨0x30028 + 0x8000 * n, 0, 32⟩

/-! `PRTn_IPV4_CFG`, R149 (04). -/
def PRTn_IPV4_CFG.PREFIX (n : Nat) : Fld := ⟨0x3002c + 0x8000 * n, 0, 6⟩

/-! `PRTn_IPV6`, R149 (04). -/
def PRTn_IPV6.IPV6 (n : Nat) (w : Nat) : Fld := ⟨0x30030 + 0x8000 * n + 0x4 * w, 0, 32⟩

/-! `PRTn_VLAN`, R149 (04). -/
def PRTn_VLAN.VLAN_ID (n : Nat) : Fld := ⟨0x30040 + 0x8000 * n, 0, 12⟩
def PRTn_VLAN.TX_PCP (n : Nat) : Fld := ⟨0x30040 + 0x8000 * n, 12, 3⟩

/-! `PRTn_MCAST`, R149 (04). -/
def PRTn_MCAST.MC_USED (n : Nat) : Fld := ⟨0x30050 + 0x8000 * n, 0, 11⟩
def PRTn_MCAST.ROBUSTNESS (n : Nat) : Fld := ⟨0x30050 + 0x8000 * n, 16, 3⟩
def PRTn_MCAST.UNSOL_MS (n : Nat) : Fld := ⟨0x30050 + 0x8000 * n, 20, 12⟩

/-! `PRT0_WAKE_CTRL`, R149 (04). -/
def PRT0_WAKE_CTRL.WAKE_EN : Fld := ⟨0x30080, 0, 4⟩

/-! `PRT0_WAKEm_MASK`, R149 (04). -/
def PRT0_WAKEm_MASK.WAKE_MASK (m : Nat) (w : Nat) : Fld := ⟨0x30090 + 0x20 * m + 0x4 * w, 0, 32⟩

/-! `PRT0_WAKEm_CRC`, R149 (04). -/
def PRT0_WAKEm_CRC.WAKE_CRC (m : Nat) : Fld := ⟨0x300a0 + 0x20 * m, 0, 32⟩

/-! `STC_CTRL`, R189 (05). -/
def STC_CTRL.EN (c : Nat) : Fld := ⟨0x40000 + 0x40 * c, 0, 1⟩
def STC_CTRL.TYPE (c : Nat) : Fld := ⟨0x40000 + 0x40 * c, 1, 2⟩
def STC_CTRL.PATHS (c : Nat) : Fld := ⟨0x40000 + 0x40 * c, 3, 2⟩
def STC_CTRL.FEED (c : Nat) : Fld := ⟨0x40000 + 0x40 * c, 5, 2⟩
def STC_CTRL.TARGET (c : Nat) : Fld := ⟨0x40000 + 0x40 * c, 7, 1⟩
def STC_CTRL.SCALE (c : Nat) : Fld := ⟨0x40000 + 0x40 * c, 8, 1⟩
def STC_CTRL.LOSS_HOLD (c : Nat) : Fld := ⟨0x40000 + 0x40 * c, 9, 1⟩
def STC_CTRL.PREVIEW_OK (c : Nat) : Fld := ⟨0x40000 + 0x40 * c, 10, 1⟩
def STC_CTRL.MERGE_WIN (c : Nat) : Fld := ⟨0x40000 + 0x40 * c, 16, 5⟩

/-! `STC_FORMAT`, R189 (05). -/
def STC_FORMAT.SAMPLING (c : Nat) : Fld := ⟨0x40004 + 0x40 * c, 0, 3⟩
def STC_FORMAT.CHANNELS (c : Nat) : Fld := ⟨0x40004 + 0x40 * c, 3, 1⟩
def STC_FORMAT.SLOT16 (c : Nat) : Fld := ⟨0x40004 + 0x40 * c, 4, 1⟩
def STC_FORMAT.TRANSFER (c : Nat) : Fld := ⟨0x40004 + 0x40 * c, 5, 3⟩
def STC_FORMAT.COLORIMETRY (c : Nat) : Fld := ⟨0x40004 + 0x40 * c, 8, 2⟩
def STC_FORMAT.RANGE (c : Nat) : Fld := ⟨0x40004 + 0x40 * c, 10, 1⟩
def STC_FORMAT.RATE_DIV (c : Nat) : Fld := ⟨0x40004 + 0x40 * c, 11, 3⟩

/-! `STC_MATCH`, R189 (05). -/
def STC_MATCH.UDP_PORT (c : Nat) : Fld := ⟨0x40008 + 0x40 * c, 0, 16⟩
def STC_MATCH.STREAM_ID (c : Nat) : Fld := ⟨0x40008 + 0x40 * c, 16, 16⟩

/-! `STC_SSRC`, R189 (05). -/
def STC_SSRC.SSRC (c : Nat) : Fld := ⟨0x4000c + 0x40 * c, 0, 32⟩

/-! `STC_ADDR_P`, R189 (05). -/
def STC_ADDR_P.GROUP_IDX (c : Nat) (p : Nat) : Fld := ⟨0x40010 + 0x40 * c + 0x4 * p, 0, 10⟩
def STC_ADDR_P.SOURCE_IDX (c : Nat) (p : Nat) : Fld := ⟨0x40010 + 0x40 * c + 0x4 * p, 16, 10⟩

/-! `STC_WIN_ORG`, R189 (05). -/
def STC_WIN_ORG.WIN_X (c : Nat) : Fld := ⟨0x40018 + 0x40 * c, 0, 16⟩
def STC_WIN_ORG.WIN_Y (c : Nat) : Fld := ⟨0x40018 + 0x40 * c, 16, 16⟩

/-! `STC_WIN_SIZE`, R189 (05). -/
def STC_WIN_SIZE.WIN_W (c : Nat) : Fld := ⟨0x4001c + 0x40 * c, 0, 16⟩
def STC_WIN_SIZE.WIN_H (c : Nat) : Fld := ⟨0x4001c + 0x40 * c, 16, 16⟩

/-! `STC_DST_ORG`, R189 (05). -/
def STC_DST_ORG.DST_X (c : Nat) : Fld := ⟨0x40020 + 0x40 * c, 0, 16⟩
def STC_DST_ORG.DST_Y (c : Nat) : Fld := ⟨0x40020 + 0x40 * c, 16, 16⟩

/-! `STC_DST_SIZE`, R189 (05). -/
def STC_DST_SIZE.DST_W (c : Nat) : Fld := ⟨0x40024 + 0x40 * c, 0, 16⟩
def STC_DST_SIZE.DST_H (c : Nat) : Fld := ⟨0x40024 + 0x40 * c, 16, 16⟩

/-! `STC_CSTAT`, R189 (05). -/
def STC_CSTAT.STATE (c : Nat) : Fld := ⟨0x48000 + 0x10 * c, 0, 2⟩
def STC_CSTAT.P0_ACTIVE (c : Nat) : Fld := ⟨0x48000 + 0x10 * c, 2, 1⟩
def STC_CSTAT.P1_ACTIVE (c : Nat) : Fld := ⟨0x48000 + 0x10 * c, 3, 1⟩
def STC_CSTAT.SKEW_EXCEEDED (c : Nat) : Fld := ⟨0x48000 + 0x10 * c, 16, 1⟩
def STC_CSTAT.RESYNC_SEEN (c : Nat) : Fld := ⟨0x48000 + 0x10 * c, 17, 1⟩
def STC_CSTAT.FORMAT_SEEN (c : Nat) : Fld := ⟨0x48000 + 0x10 * c, 18, 1⟩
def STC_CSTAT.LOSS_SEEN (c : Nat) : Fld := ⟨0x48000 + 0x10 * c, 19, 1⟩
def STC_CSTAT.SOURCE_CHANGE_SEEN (c : Nat) : Fld := ⟨0x48000 + 0x10 * c, 20, 1⟩

/-! `STC_HSEQ`, R189 (05). -/
def STC_HSEQ.HIGHEST_SEQ (c : Nat) : Fld := ⟨0x48004 + 0x10 * c, 0, 32⟩

/-! `STC_SKEW`, R189 (05). -/
def STC_SKEW.SKEW (c : Nat) : Fld := ⟨0x48008 + 0x10 * c, 0, 32⟩

/-! `STC_LAST_FRAME`, R189 (05). -/
def STC_LAST_FRAME.LAST_FRAME (c : Nat) : Fld := ⟨0x4800c + 0x10 * c, 0, 32⟩

/-! `STC_CFG`, R189 (05). -/
def STC_CFG.SKEW_MAX : Fld := ⟨0x4a000, 0, 16⟩
def STC_CFG.SRC_TIMEOUT : Fld := ⟨0x4a000, 16, 8⟩

/-! `STC_POOL`, R189 (05). -/
def STC_POOL.WIN_USED : Fld := ⟨0x4a004, 0, 12⟩
def STC_POOL.CTX_ENABLED : Fld := ⟨0x4a004, 16, 10⟩

/-! `STC_FEEDf_CFG`, R189 (05). -/
def STC_FEEDf_CFG.STRIP_LINES (f : Nat) : Fld := ⟨0x4a010 + 0x4 * f, 0, 2⟩

/-! `STC_ADDRi`, R189 (05). -/
def STC_ADDRi.ADDR (i : Nat) (w : Nat) : Fld := ⟨0x4c000 + 0x10 * i + 0x4 * w, 0, 32⟩

/-! `FST_FEEDf_CFG`, R216 (06). -/
def FST_FEEDf_CFG.DELAY (f : Nat) : Fld := ⟨0x50000 + 0x20 * f, 0, 4⟩
def FST_FEEDf_CFG.LEAD (f : Nat) : Fld := ⟨0x50000 + 0x20 * f, 4, 2⟩
def FST_FEEDf_CFG.SLOTS (f : Nat) : Fld := ⟨0x50000 + 0x20 * f, 8, 4⟩
def FST_FEEDf_CFG.STILLS (f : Nat) : Fld := ⟨0x50000 + 0x20 * f, 12, 2⟩
def FST_FEEDf_CFG.FALLBACK (f : Nat) : Fld := ⟨0x50000 + 0x20 * f, 16, 1⟩
def FST_FEEDf_CFG.FB_STILL (f : Nat) : Fld := ⟨0x50000 + 0x20 * f, 17, 2⟩

/-! `FST_FEEDf_SHOW`, R216 (06). -/
def FST_FEEDf_SHOW.SHOW_SRC (f : Nat) : Fld := ⟨0x50004 + 0x20 * f, 0, 3⟩

/-! `FST_FEEDf_STATUS`, R216 (06). -/
def FST_FEEDf_STATUS.SHOWING (f : Nat) : Fld := ⟨0x50008 + 0x20 * f, 0, 3⟩
def FST_FEEDf_STATUS.MARK_VALID (f : Nat) : Fld := ⟨0x50008 + 0x20 * f, 3, 1⟩
def FST_FEEDf_STATUS.MARK_SLOT (f : Nat) : Fld := ⟨0x50008 + 0x20 * f, 4, 4⟩
def FST_FEEDf_STATUS.WRITE_SLOT (f : Nat) : Fld := ⟨0x50008 + 0x20 * f, 8, 4⟩
def FST_FEEDf_STATUS.PENDING_SHOW (f : Nat) : Fld := ⟨0x50008 + 0x20 * f, 16, 3⟩
def FST_FEEDf_STATUS.PENDING (f : Nat) : Fld := ⟨0x50008 + 0x20 * f, 19, 1⟩

/-! `FST_FEEDf_EVENT`, R216 (06). -/
def FST_FEEDf_EVENT.REWIND_USED (f : Nat) : Fld := ⟨0x5000c + 0x20 * f, 0, 1⟩
def FST_FEEDf_EVENT.REWIND_LOST (f : Nat) : Fld := ⟨0x5000c + 0x20 * f, 1, 1⟩
def FST_FEEDf_EVENT.FALLBACK_SHOWN (f : Nat) : Fld := ⟨0x5000c + 0x20 * f, 2, 1⟩

/-! `FST_FEEDf_MARK_FRAME`, R216 (06). -/
def FST_FEEDf_MARK_FRAME.MARK_FRAME (f : Nat) : Fld := ⟨0x50010 + 0x20 * f, 0, 32⟩

/-! `FST_FEEDf_SHOWN_FRAME`, R216 (06). -/
def FST_FEEDf_SHOWN_FRAME.SHOWN_FRAME (f : Nat) : Fld := ⟨0x50014 + 0x20 * f, 0, 32⟩

/-! `FST_FEEDf_LAYOUT`, R216 (06). -/
def FST_FEEDf_LAYOUT.SLOT0_OFS (f : Nat) : Fld := ⟨0x50018 + 0x20 * f, 0, 16⟩
def FST_FEEDf_LAYOUT.SLOT_GRAN (f : Nat) : Fld := ⟨0x50018 + 0x20 * f, 16, 16⟩

/-! `FST_PLAN`, R216 (06). -/
def FST_PLAN.USED : Fld := ⟨0x50100, 0, 11⟩
def FST_PLAN.FREE : Fld := ⟨0x50100, 16, 11⟩

/-! `FST_LAYOUT_CAL`, R216 (06). -/
def FST_LAYOUT_CAL.CAL_OFS : Fld := ⟨0x50104, 0, 16⟩
def FST_LAYOUT_CAL.CAL_GRAN : Fld := ⟨0x50104, 16, 16⟩

/-! `FST_LAYOUT_STG`, R216 (06). -/
def FST_LAYOUT_STG.STG_OFS : Fld := ⟨0x50108, 0, 16⟩
def FST_LAYOUT_STG.STG_GRAN : Fld := ⟨0x50108, 16, 16⟩

/-! `FST_REGION`, R216 (06). -/
def FST_REGION.P_MAX : Fld := ⟨0x5010c, 0, 19⟩
def FST_REGION.REGION_LIVE : Fld := ⟨0x5010c, 24, 4⟩

/-! `SCH_CTRL`, R250 (07). -/
def SCH_CTRL.SHED_MODE : Fld := ⟨0x60000, 0, 2⟩
def SCH_CTRL.SHED_AT : Fld := ⟨0x60000, 8, 8⟩
def SCH_CTRL.PEAK_CLR : Fld := ⟨0x60000, 16, 1⟩

/-! `SCH_PRIO`, R250 (07). -/
def SCH_PRIO.PRIO_CROP : Fld := ⟨0x60004, 0, 3⟩
def SCH_PRIO.PRIO_CORRECT : Fld := ⟨0x60004, 3, 3⟩
def SCH_PRIO.PRIO_DITHER : Fld := ⟨0x60004, 6, 3⟩
def SCH_PRIO.PRIO_TRANSPOSE : Fld := ⟨0x60004, 9, 3⟩
def SCH_PRIO.PRIO_DETECT : Fld := ⟨0x60004, 12, 3⟩
def SCH_PRIO.PRIO_MAP : Fld := ⟨0x60004, 15, 3⟩

/-! `SCH_STATUS`, R250 (07). -/
def SCH_STATUS.CORES_LIVE : Fld := ⟨0x60008, 0, 7⟩
def SCH_STATUS.SHED_ACTIVE : Fld := ⟨0x60008, 7, 1⟩
def SCH_STATUS.SLOTS_USED : Fld := ⟨0x60008, 8, 13⟩

/-! `SCH_LOAD`, R250 (07). -/
def SCH_LOAD.LOAD_EST : Fld := ⟨0x6000c, 0, 11⟩
def SCH_LOAD.LOAD_SHED_EST : Fld := ⟨0x6000c, 16, 11⟩

/-! `SCH_BUSY`, R250 (07). -/
def SCH_BUSY.BUSY_LAST : Fld := ⟨0x60010, 0, 10⟩
def SCH_BUSY.BUSY_PEAK : Fld := ⟨0x60010, 16, 10⟩

/-! `SCH_ITEMS`, R250 (07). -/
def SCH_ITEMS.ITEM_DEMAND : Fld := ⟨0x60014, 0, 13⟩
def SCH_ITEMS.ITEMS_PEAK : Fld := ⟨0x60014, 16, 13⟩

/-! `SCH_EVENT`, R250 (07). -/
def SCH_EVENT.MISS_SEEN : Fld := ⟨0x60018, 0, 1⟩
def SCH_EVENT.SHED_ENTER : Fld := ⟨0x60018, 1, 1⟩
def SCH_EVENT.SHED_EXIT : Fld := ⟨0x60018, 2, 1⟩
def SCH_EVENT.FAIL_SEEN : Fld := ⟨0x60018, 3, 1⟩
def SCH_EVENT.POISON_SEEN : Fld := ⟨0x60018, 4, 1⟩
def SCH_EVENT.TRACE_FROZEN : Fld := ⟨0x60018, 5, 1⟩

/-! `SCH_CORE_LIVE`, R250 (07). -/
def SCH_CORE_LIVE.CORE_LIVE (w : Nat) : Fld := ⟨0x60020 + 0x4 * w, 0, 32⟩

/-! `SCH_TRACE_CTRL`, R250 (07). -/
def SCH_TRACE_CTRL.TR_EN : Fld := ⟨0x60030, 0, 1⟩
def SCH_TRACE_CTRL.TR_STOP : Fld := ⟨0x60030, 1, 1⟩
def SCH_TRACE_CTRL.FREEZE_ON_MISS : Fld := ⟨0x60030, 2, 1⟩
def SCH_TRACE_CTRL.TR_CLEAR : Fld := ⟨0x60030, 3, 1⟩
def SCH_TRACE_CTRL.FILTER : Fld := ⟨0x60030, 16, 11⟩

/-! `SCH_TRACE_STATUS`, R250 (07). -/
def SCH_TRACE_STATUS.TR_COUNT : Fld := ⟨0x60034, 0, 13⟩
def SCH_TRACE_STATUS.TR_WRAPPED : Fld := ⟨0x60034, 13, 1⟩
def SCH_TRACE_STATUS.TR_FROZEN : Fld := ⟨0x60034, 14, 1⟩

/-! `COL_CTRL`, R275 (08). -/
def COL_CTRL.DITHER_EN : Fld := ⟨0x70000, 0, 1⟩
def COL_CTRL.MATRIX_EN : Fld := ⟨0x70000, 1, 1⟩
def COL_CTRL.BIN_EN : Fld := ⟨0x70000, 2, 1⟩
def COL_CTRL.FACET_EN : Fld := ⟨0x70000, 4, 4⟩

/-! `COL_BRIGHT`, R275 (08). -/
def COL_BRIGHT.BRIGHT : Fld := ⟨0x70004, 0, 16⟩

/-! `COL_FACETf_MASK`, R275 (08). -/
def COL_FACETf_MASK.SF_MASK (f : Nat) : Fld := ⟨0x70010 + 0x10 * f, 0, 32⟩

/-! `COL_FACETf_WIN`, R275 (08). -/
def COL_FACETf_WIN.WIN_MASK (f : Nat) : Fld := ⟨0x70014 + 0x10 * f, 0, 32⟩

/-! `COL_FACETf_CFG`, R275 (08). -/
def COL_FACETf_CFG.FACET_GAIN (f : Nat) : Fld := ⟨0x70018 + 0x10 * f, 0, 16⟩

/-! `COL_FACETf_STATUS`, R275 (08). -/
def COL_FACETf_STATUS.N_F (f : Nat) : Fld := ⟨0x7001c + 0x10 * f, 0, 6⟩
def COL_FACETf_STATUS.DITHER_M (f : Nat) : Fld := ⟨0x7001c + 0x10 * f, 8, 3⟩
def COL_FACETf_STATUS.DEPTH (f : Nat) : Fld := ⟨0x7001c + 0x10 * f, 16, 5⟩

/-! `COL_TF`, R275 (08). -/
def COL_TF.PQ_PEAK : Fld := ⟨0x70050, 0, 16⟩
def COL_TF.HLG_PEAK : Fld := ⟨0x70050, 16, 16⟩

/-! `COL_TARGET`, R275 (08). -/
def COL_TARGET.X (k : Nat) : Fld := ⟨0x70060 + 0x4 * k, 0, 16⟩
def COL_TARGET.Y (k : Nat) : Fld := ⟨0x70060 + 0x4 * k, 16, 16⟩

/-! `COL_GAMUTs_W0`, R275 (08). -/
def COL_GAMUTs_W0.G_RR (s : Nat) : Fld := ⟨0x70080 + 0x20 * s, 0, 16⟩
def COL_GAMUTs_W0.G_RG (s : Nat) : Fld := ⟨0x70080 + 0x20 * s, 16, 16⟩

/-! `COL_GAMUTs_W1`, R275 (08). -/
def COL_GAMUTs_W1.G_RB (s : Nat) : Fld := ⟨0x70084 + 0x20 * s, 0, 16⟩
def COL_GAMUTs_W1.G_GR (s : Nat) : Fld := ⟨0x70084 + 0x20 * s, 16, 16⟩

/-! `COL_GAMUTs_W2`, R275 (08). -/
def COL_GAMUTs_W2.G_GG (s : Nat) : Fld := ⟨0x70088 + 0x20 * s, 0, 16⟩
def COL_GAMUTs_W2.G_GB (s : Nat) : Fld := ⟨0x70088 + 0x20 * s, 16, 16⟩

/-! `COL_GAMUTs_W3`, R275 (08). -/
def COL_GAMUTs_W3.G_BR (s : Nat) : Fld := ⟨0x7008c + 0x20 * s, 0, 16⟩
def COL_GAMUTs_W3.G_BG (s : Nat) : Fld := ⟨0x7008c + 0x20 * s, 16, 16⟩

/-! `COL_GAMUTs_W4`, R275 (08). -/
def COL_GAMUTs_W4.G_BB (s : Nat) : Fld := ⟨0x70090 + 0x20 * s, 0, 16⟩

/-! `COL_TEMP_PTw`, R275 (08). -/
def COL_TEMP_PTw.TEMP_PT_E (w : Nat) : Fld := ⟨0x700e0 + 0x4 * w, 0, 16⟩
def COL_TEMP_PTw.TEMP_PT_O (w : Nat) : Fld := ⟨0x700e0 + 0x4 * w, 16, 16⟩

/-! `COL_ZONE_SRC`, R275 (08). -/
def COL_ZONE_SRC.ZONE_SRC0 (w : Nat) : Fld := ⟨0x700f0 + 0x4 * w, 0, 4⟩
def COL_ZONE_SRC.ZONE_SRC1 (w : Nat) : Fld := ⟨0x700f0 + 0x4 * w, 4, 4⟩
def COL_ZONE_SRC.ZONE_SRC2 (w : Nat) : Fld := ⟨0x700f0 + 0x4 * w, 8, 4⟩
def COL_ZONE_SRC.ZONE_SRC3 (w : Nat) : Fld := ⟨0x700f0 + 0x4 * w, 12, 4⟩
def COL_ZONE_SRC.ZONE_SRC4 (w : Nat) : Fld := ⟨0x700f0 + 0x4 * w, 16, 4⟩
def COL_ZONE_SRC.ZONE_SRC5 (w : Nat) : Fld := ⟨0x700f0 + 0x4 * w, 20, 4⟩
def COL_ZONE_SRC.ZONE_SRC6 (w : Nat) : Fld := ⟨0x700f0 + 0x4 * w, 24, 4⟩
def COL_ZONE_SRC.ZONE_SRC7 (w : Nat) : Fld := ⟨0x700f0 + 0x4 * w, 28, 4⟩

/-! `COL_TEMP_CFG`, R275 (08). -/
def COL_TEMP_CFG.FIXED_TEMP : Fld := ⟨0x700f8, 0, 16⟩
def COL_TEMP_CFG.TEMP_FAIL : Fld := ⟨0x700f8, 16, 16⟩

/-! `COL_DERATE`, R275 (08). -/
def COL_DERATE.DERATE_START : Fld := ⟨0x70100, 0, 16⟩
def COL_DERATE.DERATE_SLOPE : Fld := ⟨0x70100, 16, 8⟩
def COL_DERATE.DERATE_MIN : Fld := ⟨0x70100, 24, 8⟩

/-! `COL_DERATE_CTL`, R275 (08). -/
def COL_DERATE_CTL.DERATE_STEP : Fld := ⟨0x70104, 0, 16⟩
def COL_DERATE_CTL.DERATE_EN : Fld := ⟨0x70104, 16, 1⟩
def COL_DERATE_CTL.GAIN_SLEW : Fld := ⟨0x70104, 24, 8⟩

/-! `COL_STATUS`, R275 (08). -/
def COL_STATUS.DERATE : Fld := ⟨0x70108, 0, 16⟩
def COL_STATUS.HOT_ZONE : Fld := ⟨0x70108, 16, 4⟩

/-! `COL_ZONE_TEMPw`, R275 (08). -/
def COL_ZONE_TEMPw.ZONE_TEMP_E (w : Nat) : Fld := ⟨0x70110 + 0x4 * w, 0, 16⟩
def COL_ZONE_TEMPw.ZONE_TEMP_O (w : Nat) : Fld := ⟨0x70110 + 0x4 * w, 16, 16⟩

/-! `COL_EVENT`, R275 (08). -/
def COL_EVENT.ZONE_STALE : Fld := ⟨0x70130, 0, 16⟩
def COL_EVENT.DERATE_ON : Fld := ⟨0x70130, 16, 1⟩
def COL_EVENT.DERATE_FLOOR : Fld := ⟨0x70130, 17, 1⟩

/-! `COL_BIN_W0`, R275 (08). -/
def COL_BIN_W0.GAIN_R (b : Nat) (p : Nat) : Fld := ⟨0x72000 + 0x40 * b + 0x8 * p, 0, 16⟩
def COL_BIN_W0.GAIN_G (b : Nat) (p : Nat) : Fld := ⟨0x72000 + 0x40 * b + 0x8 * p, 16, 16⟩

/-! `COL_BIN_W1`, R275 (08). -/
def COL_BIN_W1.GAIN_B (b : Nat) (p : Nat) : Fld := ⟨0x72004 + 0x40 * b + 0x8 * p, 0, 16⟩
def COL_BIN_W1.GAIN_W (b : Nat) (p : Nat) : Fld := ⟨0x72004 + 0x40 * b + 0x8 * p, 16, 16⟩

/-! `SCN_TSET0`, R307 (09). -/
def SCN_TSET0.FRAME_RATE : Fld := ⟨0x80000, 0, 5⟩
def SCN_TSET0.SUBFRAMES : Fld := ⟨0x80000, 5, 6⟩
def SCN_TSET0.PLANES : Fld := ⟨0x80000, 11, 5⟩
def SCN_TSET0.SCAN : Fld := ⟨0x80000, 16, 7⟩
def SCN_TSET0.ROW_MODE : Fld := ⟨0x80000, 23, 1⟩
def SCN_TSET0.LATCH_MODE : Fld := ⟨0x80000, 24, 1⟩

/-! `SCN_TSET1`, R307 (09). -/
def SCN_TSET1.SCLK_DIV : Fld := ⟨0x80004, 0, 6⟩
def SCN_TSET1.DRIVERS : Fld := ⟨0x80004, 6, 6⟩
def SCN_TSET1.LAT_LEN : Fld := ⟨0x80004, 12, 8⟩
def SCN_TSET1.XFER : Fld := ⟨0x80004, 20, 8⟩

/-! `SCN_TSET2`, R307 (09). -/
def SCN_TSET2.UNIT : Fld := ⟨0x80008, 0, 16⟩

/-! `SCN_ROWCHG`, R307 (09). -/
def SCN_ROWCHG.DEAD : Fld := ⟨0x8000c, 0, 10⟩
def SCN_ROWCHG.SETTLE : Fld := ⟨0x8000c, 10, 10⟩

/-! `SCN_ROWCHG2`, R307 (09). -/
def SCN_ROWCHG2.PCHG_LEN : Fld := ⟨0x80010, 0, 10⟩
def SCN_ROWCHG2.DIS_LEN : Fld := ⟨0x80010, 10, 10⟩

/-! `SCN_OE`, R307 (09). -/
def SCN_OE.STAGGER : Fld := ⟨0x80014, 0, 8⟩
def SCN_OE.OE_TRIM : Fld := ⟨0x80014, 16, 16⟩

/-! `SCN_GEOM`, R307 (09). -/
def SCN_GEOM.TILE_W : Fld := ⟨0x80018, 0, 12⟩
def SCN_GEOM.TILE_RGBW : Fld := ⟨0x80018, 12, 1⟩
def SCN_GEOM.TILE_H : Fld := ⟨0x80018, 16, 12⟩

/-! `SCN_MERIDIAN`, R307 (09). -/
def SCN_MERIDIAN.MERIDIAN : Fld := ⟨0x8001c, 0, 12⟩

/-! `SCN_PROG0`, R307 (09). -/
def SCN_PROG0.ROW_NEED : Fld := ⟨0x80020, 0, 20⟩

/-! `SCN_PROG1`, R307 (09). -/
def SCN_PROG1.WD_START : Fld := ⟨0x80024, 0, 20⟩

/-! `SCN_PROG2`, R307 (09). -/
def SCN_PROG2.LAST_WIN : Fld := ⟨0x80028, 0, 20⟩

/-! `SCN_LIGHT`, R307 (09). -/
def SCN_LIGHT.LIGHT_ON : Fld := ⟨0x8002c, 0, 16⟩
def SCN_LIGHT.LIGHT_MARGIN : Fld := ⟨0x8002c, 16, 16⟩

/-! `SCN_x_CFG`, R307 (09). -/
def SCN_x_CFG.ROW_POL (x : Nat) : Fld := ⟨0x80040 + 0x8000 * x, 0, 1⟩
def SCN_x_CFG.OE_POL (x : Nat) : Fld := ⟨0x80040 + 0x8000 * x, 1, 1⟩
def SCN_x_CFG.PCHG_POL (x : Nat) : Fld := ⟨0x80040 + 0x8000 * x, 2, 1⟩
def SCN_x_CFG.DIS_POL (x : Nat) : Fld := ⟨0x80040 + 0x8000 * x, 3, 1⟩

/-! `SCN_x_STATUS`, R307 (09). -/
def SCN_x_STATUS.ENGINE (x : Nat) : Fld := ⟨0x80044 + 0x8000 * x, 0, 2⟩
def SCN_x_STATUS.TSET_PENDING (x : Nat) : Fld := ⟨0x80044 + 0x8000 * x, 2, 1⟩
def SCN_x_STATUS.LANES_LIVE (x : Nat) : Fld := ⟨0x80044 + 0x8000 * x, 8, 6⟩

/-! `SCN_x_EVENT`, R307 (09). -/
def SCN_x_EVENT.STARVED_SEEN (x : Nat) : Fld := ⟨0x80048 + 0x8000 * x, 0, 1⟩
def SCN_x_EVENT.TSET_APPLIED (x : Nat) : Fld := ⟨0x80048 + 0x8000 * x, 1, 1⟩
def SCN_x_EVENT.RELOCK (x : Nat) : Fld := ⟨0x80048 + 0x8000 * x, 2, 1⟩
def SCN_x_EVENT.HALF_FENCED (x : Nat) : Fld := ⟨0x80048 + 0x8000 * x, 3, 1⟩

/-! `SCN_x_TSET_FRAME`, R307 (09). -/
def SCN_x_TSET_FRAME.TSET_FRAME (x : Nat) : Fld := ⟨0x8004c + 0x8000 * x, 0, 32⟩

/-! `SCN_x_LANEi_W0`, R307 (09). -/
def SCN_x_LANEi_W0.X_BASE (x : Nat) (i : Nat) : Fld := ⟨0x80100 + 0x8000 * x + 0x8 * i, 0, 12⟩
def SCN_x_LANEi_W0.Y_BASE (x : Nat) (i : Nat) : Fld := ⟨0x80100 + 0x8000 * x + 0x8 * i, 16, 12⟩
def SCN_x_LANEi_W0.LANE_EN (x : Nat) (i : Nat) : Fld := ⟨0x80100 + 0x8000 * x + 0x8 * i, 31, 1⟩

/-! `SCN_x_LANEi_W1`, R307 (09). -/
def SCN_x_LANEi_W1.PAT_START (x : Nat) (i : Nat) : Fld := ⟨0x80104 + 0x8000 * x + 0x8 * i, 0, 12⟩
def SCN_x_LANEi_W1.ROW_STEP (x : Nat) (i : Nat) : Fld := ⟨0x80104 + 0x8000 * x + 0x8 * i, 16, 7⟩

/-! `SCN_x_PATw`, R307 (09). -/
def SCN_x_PATw.DX0 (x : Nat) (w : Nat) : Fld := ⟨0x84000 + 0x8000 * x + 0x4 * w, 0, 12⟩
def SCN_x_PATw.DX1 (x : Nat) (w : Nat) : Fld := ⟨0x84000 + 0x8000 * x + 0x4 * w, 16, 12⟩
def SCN_x_PATw.CH0 (x : Nat) (w : Nat) : Fld := ⟨0x84000 + 0x8000 * x + 0x4 * w, 12, 2⟩
def SCN_x_PATw.CH1 (x : Nat) (w : Nat) : Fld := ⟨0x84000 + 0x8000 * x + 0x4 * w, 28, 2⟩
def SCN_x_PATw.DUMMY0 (x : Nat) (w : Nat) : Fld := ⟨0x84000 + 0x8000 * x + 0x4 * w, 14, 1⟩
def SCN_x_PATw.DUMMY1 (x : Nat) (w : Nat) : Fld := ⟨0x84000 + 0x8000 * x + 0x4 * w, 30, 1⟩

/-! `CHN_CTRL`, R331 (10). -/
def CHN_CTRL.LAT_POL : Fld := ⟨0x90000, 0, 1⟩
def CHN_CTRL.DET_EN : Fld := ⟨0x90000, 1, 1⟩
def CHN_CTRL.CFG_REFRESH : Fld := ⟨0x90000, 2, 1⟩
def CHN_CTRL.CFG_NOW : Fld := ⟨0x90000, 3, 1⟩
def CHN_CTRL.FMAP_CLEAR : Fld := ⟨0x90000, 4, 1⟩
def CHN_CTRL.RB_AUTO : Fld := ⟨0x90000, 5, 1⟩
def CHN_CTRL.TESTS : Fld := ⟨0x90000, 6, 2⟩
def CHN_CTRL.DET_EVERY : Fld := ⟨0x90000, 8, 8⟩
def CHN_CTRL.CONFIRM : Fld := ⟨0x90000, 16, 4⟩

/-! `CHN_LATW0`, R331 (10). -/
def CHN_LATW0.LOAD_W : Fld := ⟨0x90004, 0, 8⟩
def CHN_LATW0.XFER_W : Fld := ⟨0x90004, 8, 8⟩
def CHN_LATW0.TEST_W : Fld := ⟨0x90004, 16, 8⟩
def CHN_LATW0.COPY_OPEN_W : Fld := ⟨0x90004, 24, 8⟩

/-! `CHN_LATW1`, R331 (10). -/
def CHN_LATW1.COPY_SHORT_W : Fld := ⟨0x90008, 0, 8⟩

/-! `CHN_DET`, R331 (10). -/
def CHN_DET.DET_W : Fld := ⟨0x9000c, 0, 12⟩

/-! `CHN_RB`, R331 (10). -/
def CHN_RB.RB_DIV : Fld := ⟨0x90010, 0, 8⟩
def CHN_RB.RB_DELAY : Fld := ⟨0x90010, 8, 8⟩
def CHN_RB.MARKER : Fld := ⟨0x90010, 16, 16⟩

/-! `CHN_RB_NEED`, R331 (10). -/
def CHN_RB_NEED.RB_NEED : Fld := ⟨0x90014, 0, 24⟩

/-! `CHN_CFGw`, R331 (10). -/
def CHN_CFGw.WORD (w : Nat) : Fld := ⟨0x90020 + 0x4 * w, 0, 16⟩
def CHN_CFGw.CMD_W (w : Nat) : Fld := ⟨0x90020 + 0x4 * w, 16, 8⟩
def CHN_CFGw.EN (w : Nat) : Fld := ⟨0x90020 + 0x4 * w, 24, 1⟩

/-! `CHN_STATUS`, R331 (10). -/
def CHN_STATUS.BANK_3V3 : Fld := ⟨0x90040, 0, 4⟩
def CHN_STATUS.DET_ROW_A : Fld := ⟨0x90040, 8, 6⟩
def CHN_STATUS.DET_ROW_B : Fld := ⟨0x90040, 16, 6⟩
def CHN_STATUS.RB_READY : Fld := ⟨0x90040, 24, 1⟩

/-! `CHN_EVENT`, R331 (10). -/
def CHN_EVENT.FAULT_NEW : Fld := ⟨0x90044, 0, 1⟩
def CHN_EVENT.CHAIN_BAD_SEEN : Fld := ⟨0x90044, 1, 1⟩
def CHN_EVENT.FMAP_FULL : Fld := ⟨0x90044, 2, 1⟩
def CHN_EVENT.DET_SKIP_SEEN : Fld := ⟨0x90044, 3, 1⟩
def CHN_EVENT.SENSOR_FAIL : Fld := ⟨0x90044, 4, 1⟩
def CHN_EVENT.NTC_FAIL : Fld := ⟨0x90044, 5, 1⟩
def CHN_EVENT.I2C_STUCK : Fld := ⟨0x90044, 6, 1⟩
def CHN_EVENT.BANK_FAULT : Fld := ⟨0x90044, 7, 1⟩

/-! `CHN_CHAIN_OK`, R331 (10). -/
def CHN_CHAIN_OK.CHAIN_OK (w : Nat) : Fld := ⟨0x90048 + 0x4 * w, 0, 32⟩

/-! `CHN_FMAP_STAT`, R331 (10). -/
def CHN_FMAP_STAT.FMAP_COUNT : Fld := ⟨0x90050, 0, 13⟩
def CHN_FMAP_STAT.FMAP_GEN : Fld := ⟨0x90050, 16, 16⟩

/-! `CHN_SENSs`, R331 (10). -/
def CHN_SENSs.ADDR (s : Nat) : Fld := ⟨0x90060 + 0x4 * s, 0, 7⟩
def CHN_SENSs.REG (s : Nat) : Fld := ⟨0x90060 + 0x4 * s, 8, 8⟩
def CHN_SENSs.FMT (s : Nat) : Fld := ⟨0x90060 + 0x4 * s, 16, 2⟩
def CHN_SENSs.EN (s : Nat) : Fld := ⟨0x90060 + 0x4 * s, 18, 1⟩

/-! `CHN_I2C`, R331 (10). -/
def CHN_I2C.I2C0_FAST : Fld := ⟨0x90090, 0, 1⟩
def CHN_I2C.I2C1_FAST : Fld := ⟨0x90090, 1, 1⟩
def CHN_I2C.POLL_MS : Fld := ⟨0x90090, 16, 16⟩

/-! `CHN_TEMPs`, R331 (10). -/
def CHN_TEMPs.TEMP (s : Nat) : Fld := ⟨0x900a0 + 0x4 * s, 0, 16⟩
def CHN_TEMPs.VALID (s : Nat) : Fld := ⟨0x900a0 + 0x4 * s, 16, 1⟩
def CHN_TEMPs.AGE (s : Nat) : Fld := ⟨0x900a0 + 0x4 * s, 24, 8⟩

/-! `CHN_NTCa_CFG0`, R331 (10). -/
def CHN_NTCa_CFG0.NTC_RNOM (a : Nat) : Fld := ⟨0x900d0 + 0x8 * a, 0, 16⟩
def CHN_NTCa_CFG0.NTC_BETA (a : Nat) : Fld := ⟨0x900d0 + 0x8 * a, 16, 16⟩

/-! `CHN_NTCa_CFG1`, R331 (10). -/
def CHN_NTCa_CFG1.PULLUP (a : Nat) : Fld := ⟨0x900d4 + 0x8 * a, 0, 16⟩
def CHN_NTCa_CFG1.NTC_EN (a : Nat) : Fld := ⟨0x900d4 + 0x8 * a, 16, 1⟩

/-! `CHN_NTC_TEMPa`, R331 (10). -/
def CHN_NTC_TEMPa.TEMP (a : Nat) : Fld := ⟨0x900f0 + 0x4 * a, 0, 16⟩
def CHN_NTC_TEMPa.VALID (a : Nat) : Fld := ⟨0x900f0 + 0x4 * a, 16, 1⟩
def CHN_NTC_TEMPa.CODE (a : Nat) : Fld := ⟨0x900f0 + 0x4 * a, 20, 12⟩

/-! `ID_SEL_CTRL`, R369 (11). -/
def ID_SEL_CTRL.NOTIFY_EN : Fld := ⟨0x100, 0, 1⟩
def ID_SEL_CTRL.NOTIFY_PRIO : Fld := ⟨0x100, 1, 3⟩
def ID_SEL_CTRL.NOTIFY_KEY : Fld := ⟨0x100, 4, 3⟩
def ID_SEL_CTRL.IRQ_EVT : Fld := ⟨0x100, 7, 1⟩

/-! `ID_SEL_NOTIFY`, R369 (11). -/
def ID_SEL_NOTIFY.NOTIFY_ADDR (w : Nat) : Fld := ⟨0x104 + 0x4 * w, 0, 32⟩

/-! `ID_SEL_STATUS`, R369 (11). -/
def ID_SEL_STATUS.REQUESTERS : Fld := ⟨0x114, 0, 5⟩
def ID_SEL_STATUS.TXN_OPEN : Fld := ⟨0x114, 8, 4⟩
def ID_SEL_STATUS.KEYS_SET : Fld := ⟨0x114, 16, 8⟩
def ID_SEL_STATUS.CMDQ_USED : Fld := ⟨0x114, 24, 7⟩

/-! `ID_SEL_EVENT`, R369 (11). -/
def ID_SEL_EVENT.EVQ_OVERRUN : Fld := ⟨0x118, 0, 8⟩
def ID_SEL_EVENT.CMDQ_OVERRUN : Fld := ⟨0x118, 8, 1⟩
def ID_SEL_EVENT.AUTH_FAIL_SEEN : Fld := ⟨0x118, 9, 1⟩
def ID_SEL_EVENT.HQ_REPLY_DROP : Fld := ⟨0x118, 10, 1⟩

/-! `ID_BOOT_ID`, R369 (11). -/
def ID_BOOT_ID.BOOT_ID : Fld := ⟨0x120, 0, 32⟩

/-! `ID_STATE_CTRL`, R369 (11). -/
def ID_STATE_CTRL.START : Fld := ⟨0x124, 0, 1⟩
def ID_STATE_CTRL.STOP : Fld := ⟨0x124, 1, 1⟩
def ID_STATE_CTRL.AUTO_START : Fld := ⟨0x124, 2, 1⟩

/-! `GNG_CTRL`, R409 (12). -/
def GNG_CTRL.APEX_MODE : Fld := ⟨0xb0000, 0, 2⟩
def GNG_CTRL.MSG_MODE : Fld := ⟨0xb0000, 2, 1⟩
def GNG_CTRL.GANG_ADDR : Fld := ⟨0xb0000, 8, 6⟩
def GNG_CTRL.APEX_PRIO : Fld := ⟨0xb0000, 16, 4⟩
def GNG_CTRL.SIG_PRIO : Fld := ⟨0xb0000, 20, 3⟩
def GNG_CTRL.FORGET : Fld := ⟨0xb0000, 23, 1⟩

/-! `GNG_ID`, R409 (12). -/
def GNG_ID.GANG_ID : Fld := ⟨0xb0004, 0, 16⟩
def GNG_ID.KEY_SLOT : Fld := ⟨0xb0004, 16, 3⟩

/-! `GNG_GROUP`, R409 (12). -/
def GNG_GROUP.GNG_GROUP (w : Nat) : Fld := ⟨0xb0008 + 0x4 * w, 0, 32⟩

/-! `GNG_TIMING`, R409 (12). -/
def GNG_TIMING.POLL_CYCLE_MS : Fld := ⟨0xb0018, 0, 8⟩
def GNG_TIMING.MISS_LIMIT : Fld := ⟨0xb0018, 8, 4⟩
def GNG_TIMING.RELAY_TIMEOUT : Fld := ⟨0xb0018, 16, 8⟩
def GNG_TIMING.LINK_TRIES : Fld := ⟨0xb0018, 24, 4⟩

/-! `GNG_COMMIT`, R409 (12). -/
def GNG_COMMIT.COMMIT_LEAD : Fld := ⟨0xb001c, 0, 16⟩

/-! `GNG_STATUS`, R409 (12). -/
def GNG_STATUS.IS_APEX : Fld := ⟨0xb0020, 0, 1⟩
def GNG_STATUS.APEX_ADDR : Fld := ⟨0xb0020, 1, 6⟩
def GNG_STATUS.APEX_KNOWN : Fld := ⟨0xb0020, 7, 1⟩
def GNG_STATUS.MEMBERS : Fld := ⟨0xb0020, 8, 7⟩

/-! `GNG_EVENT`, R409 (12). -/
def GNG_EVENT.MEMBER_NEW : Fld := ⟨0xb0024, 0, 1⟩
def GNG_EVENT.MEMBER_LOST : Fld := ⟨0xb0024, 1, 1⟩
def GNG_EVENT.MEMBER_BACK : Fld := ⟨0xb0024, 2, 1⟩
def GNG_EVENT.DUP_ADDR : Fld := ⟨0xb0024, 3, 1⟩
def GNG_EVENT.APEX_CHANGE : Fld := ⟨0xb0024, 4, 1⟩
def GNG_EVENT.MEMBER_EVENT : Fld := ⟨0xb0024, 5, 1⟩
def GNG_EVENT.RESEND_OVERRUN : Fld := ⟨0xb0024, 6, 1⟩

/-! `GNG_PRESENT`, R409 (12). -/
def GNG_PRESENT.PRESENT (w : Nat) : Fld := ⟨0xb0028 + 0x4 * w, 0, 32⟩

/-! `GNG_EVTPEND`, R409 (12). -/
def GNG_EVTPEND.EVTPEND (w : Nat) : Fld := ⟨0xb0030 + 0x4 * w, 0, 32⟩

/-! `GNG_EPOCH`, R409 (12). -/
def GNG_EPOCH.GANG_EPOCH : Fld := ⟨0xb0038, 0, 32⟩

/-! `GNG_RSk_W0`, R410 (12). -/
def GNG_RSk_W0.SRC_CTX (k : Nat) : Fld := ⟨0xb0800 + 0x10 * k, 0, 9⟩
def GNG_RSk_W0.RS_EN (k : Nat) : Fld := ⟨0xb0800 + 0x10 * k, 9, 1⟩
def GNG_RSk_W0.RS_PATHS (k : Nat) : Fld := ⟨0xb0800 + 0x10 * k, 10, 2⟩
def GNG_RSk_W0.RS_STREAM (k : Nat) : Fld := ⟨0xb0800 + 0x10 * k, 16, 16⟩

/-! `GNG_RSk_W1`, R410 (12). -/
def GNG_RSk_W1.RS_X (k : Nat) : Fld := ⟨0xb0804 + 0x10 * k, 0, 16⟩
def GNG_RSk_W1.RS_Y (k : Nat) : Fld := ⟨0xb0804 + 0x10 * k, 16, 16⟩

/-! `GNG_RSk_W2`, R410 (12). -/
def GNG_RSk_W2.RS_W (k : Nat) : Fld := ⟨0xb0808 + 0x10 * k, 0, 16⟩
def GNG_RSk_W2.RS_H (k : Nat) : Fld := ⟨0xb0808 + 0x10 * k, 16, 16⟩

/-! `GNG_RSk_W3`, R410 (12). -/
def GNG_RSk_W3.RS_GROUP (k : Nat) : Fld := ⟨0xb080c + 0x10 * k, 0, 10⟩

/-! `BRG_PORTp_CFG`, R411 (12). -/
def BRG_PORTp_CFG.MODE (p : Nat) : Fld := ⟨0xa0000 + 0x20 * p, 0, 2⟩
def BRG_PORTp_CFG.RDM_EN (p : Nat) : Fld := ⟨0xa0000 + 0x20 * p, 2, 1⟩
def BRG_PORTp_CFG.TX_SYNC (p : Nat) : Fld := ⟨0xa0000 + 0x20 * p, 3, 1⟩
def BRG_PORTp_CFG.SLOTS (p : Nat) : Fld := ⟨0xa0000 + 0x20 * p, 8, 10⟩
def BRG_PORTp_CFG.IDLE_LEVEL (p : Nat) : Fld := ⟨0xa0000 + 0x20 * p, 18, 8⟩

/-! `BRG_PORTp_TIME`, R411 (12). -/
def BRG_PORTp_TIME.BREAK_US (p : Nat) : Fld := ⟨0xa0004 + 0x20 * p, 0, 10⟩
def BRG_PORTp_TIME.MAB_US (p : Nat) : Fld := ⟨0xa0004 + 0x20 * p, 10, 7⟩
def BRG_PORTp_TIME.TX_EVERY (p : Nat) : Fld := ⟨0xa0004 + 0x20 * p, 20, 4⟩

/-! `BRG_PORTp_PERIOD`, R411 (12). -/
def BRG_PORTp_PERIOD.TX_PERIOD_US (p : Nat) : Fld := ⟨0xa0008 + 0x20 * p, 0, 24⟩

/-! `BRG_PORTp_OFFSET`, R411 (12). -/
def BRG_PORTp_OFFSET.TX_OFFSET (p : Nat) : Fld := ⟨0xa000c + 0x20 * p, 0, 16⟩

/-! `BRG_PORTp_STATUS`, R411 (12). -/
def BRG_PORTp_STATUS.RDM_BUSY (p : Nat) : Fld := ⟨0xa0010 + 0x20 * p, 0, 1⟩
def BRG_PORTp_STATUS.SEM_HELD (p : Nat) : Fld := ⟨0xa0010 + 0x20 * p, 1, 1⟩
def BRG_PORTp_STATUS.SEM_KEY (p : Nat) : Fld := ⟨0xa0010 + 0x20 * p, 2, 3⟩
def BRG_PORTp_STATUS.SEM_QUEUE (p : Nat) : Fld := ⟨0xa0010 + 0x20 * p, 5, 4⟩
def BRG_PORTp_STATUS.UIDS (p : Nat) : Fld := ⟨0xa0010 + 0x20 * p, 9, 9⟩

/-! `BRG_PORTp_EVENT`, R411 (12). -/
def BRG_PORTp_EVENT.RX_FRAMING (p : Nat) : Fld := ⟨0xa0014 + 0x20 * p, 0, 1⟩
def BRG_PORTp_EVENT.RX_SHORT_BREAK (p : Nat) : Fld := ⟨0xa0014 + 0x20 * p, 1, 1⟩
def BRG_PORTp_EVENT.SEM_EXPIRED (p : Nat) : Fld := ⟨0xa0014 + 0x20 * p, 2, 1⟩
def BRG_PORTp_EVENT.TX_LATE (p : Nat) : Fld := ⟨0xa0014 + 0x20 * p, 3, 1⟩

/-! `BRG_SEM`, R411 (12). -/
def BRG_SEM.SEM_LEASE : Fld := ⟨0xa0100, 0, 16⟩
def BRG_SEM.SEM_WAIT : Fld := ⟨0xa0100, 16, 16⟩

/-! `BRG_RDM`, R411 (12). -/
def BRG_RDM.ACK_TIMER_MAX : Fld := ⟨0xa0104, 0, 16⟩

/-! `BRG_UID_HI`, R411 (12). -/
def BRG_UID_HI.UID_HI : Fld := ⟨0xa0108, 0, 16⟩

/-! `BRG_UID_LO`, R411 (12). -/
def BRG_UID_LO.UID_LO : Fld := ⟨0xa010c, 0, 32⟩

/-! `BRG_RULEi_W0`, R411 (12). -/
def BRG_RULEi_W0.SRC_CTX (i : Nat) : Fld := ⟨0xa1000 + 0x10 * i, 0, 9⟩
def BRG_RULEi_W0.SRC_SLOT (i : Nat) : Fld := ⟨0xa1000 + 0x10 * i, 10, 10⟩
def BRG_RULEi_W0.SRC16 (i : Nat) : Fld := ⟨0xa1000 + 0x10 * i, 20, 1⟩
def BRG_RULEi_W0.EN (i : Nat) : Fld := ⟨0xa1000 + 0x10 * i, 21, 1⟩
def BRG_RULEi_W0.COUNT (i : Nat) : Fld := ⟨0xa1000 + 0x10 * i, 22, 3⟩

/-! `BRG_RULEi_W1`, R411 (12). -/
def BRG_RULEi_W1.DST_PORT (i : Nat) : Fld := ⟨0xa1004 + 0x10 * i, 0, 2⟩
def BRG_RULEi_W1.DST_SLOT (i : Nat) : Fld := ⟨0xa1004 + 0x10 * i, 2, 10⟩
def BRG_RULEi_W1.DST16 (i : Nat) : Fld := ⟨0xa1004 + 0x10 * i, 12, 1⟩
def BRG_RULEi_W1.INVERT (i : Nat) : Fld := ⟨0xa1004 + 0x10 * i, 13, 1⟩
def BRG_RULEi_W1.GAIN (i : Nat) : Fld := ⟨0xa1004 + 0x10 * i, 16, 16⟩

/-! `BRG_RULEi_W2`, R411 (12). -/
def BRG_RULEi_W2.OFFSET (i : Nat) : Fld := ⟨0xa1008 + 0x10 * i, 0, 16⟩

/-! `RED_CTRL`, R435 (13). -/
def RED_CTRL.PAIR_EN : Fld := ⟨0xc0000, 0, 1⟩
def RED_CTRL.UNIT_IDX : Fld := ⟨0xc0000, 1, 1⟩
def RED_CTRL.SWAP_NOW : Fld := ⟨0xc0000, 2, 1⟩
def RED_CTRL.REPROVISION : Fld := ⟨0xc0000, 3, 1⟩
def RED_CTRL.HB_MISS : Fld := ⟨0xc0000, 4, 4⟩
def RED_CTRL.HB_MS : Fld := ⟨0xc0000, 8, 8⟩

/-! `RED_ID`, R435 (13). -/
def RED_ID.PAIR_ID : Fld := ⟨0xc0004, 0, 16⟩
def RED_ID.KEY_SLOT : Fld := ⟨0xc0004, 16, 3⟩
def RED_ID.SWAP_EVERY : Fld := ⟨0xc0004, 24, 8⟩

/-! `RED_GROUP`, R435 (13). -/
def RED_GROUP.RED_GROUP (w : Nat) : Fld := ⟨0xc0008 + 0x4 * w, 0, 32⟩

/-! `RED_PEER`, R435 (13). -/
def RED_PEER.RED_PEER (w : Nat) : Fld := ⟨0xc0018 + 0x4 * w, 0, 32⟩

/-! `RED_STATUS`, R435 (13). -/
def RED_STATUS.PAIR_STATE : Fld := ⟨0xc0028, 0, 3⟩
def RED_STATUS.PEER_UP : Fld := ⟨0xc0028, 3, 1⟩
def RED_STATUS.JOURNAL_GAP : Fld := ⟨0xc0028, 4, 1⟩

/-! `RED_EPOCH`, R435 (13). -/
def RED_EPOCH.EPOCH : Fld := ⟨0xc002c, 0, 32⟩

/-! `RED_SNAP`, R435 (13). -/
def RED_SNAP.SNAP_SEQ : Fld := ⟨0xc0030, 0, 32⟩

/-! `RED_JOURNAL`, R435 (13). -/
def RED_JOURNAL.J_HELD : Fld := ⟨0xc0034, 0, 32⟩

/-! `RED_LOSS`, R435 (13). -/
def RED_LOSS.LOST_COUNT : Fld := ⟨0xc0038, 0, 16⟩

/-! `RED_LOSS_FIRST`, R435 (13). -/
def RED_LOSS_FIRST.LOST_FIRST : Fld := ⟨0xc003c, 0, 32⟩

/-! `RED_SNAP_CFG`, R435 (13). -/
def RED_SNAP_CFG.SNAP_MS : Fld := ⟨0xc0040, 0, 16⟩
def RED_SNAP_CFG.SNAP_JOURNAL : Fld := ⟨0xc0040, 16, 16⟩

/-! `RED_EVENT`, R435 (13). -/
def RED_EVENT.TOOK_OVER : Fld := ⟨0xc0044, 0, 1⟩
def RED_EVENT.FENCED : Fld := ⟨0xc0044, 1, 1⟩
def RED_EVENT.SWAP_DONE : Fld := ⟨0xc0044, 2, 1⟩
def RED_EVENT.SUBSTITUTED : Fld := ⟨0xc0044, 3, 1⟩
def RED_EVENT.PEER_LOST : Fld := ⟨0xc0044, 4, 1⟩
def RED_EVENT.SNAP_BAD : Fld := ⟨0xc0044, 5, 1⟩
def RED_EVENT.JOURNAL_GAP_SEEN : Fld := ⟨0xc0044, 6, 1⟩
def RED_EVENT.SWAP_FAIL : Fld := ⟨0xc0044, 7, 1⟩

/-! `RED_SUBSTi_W0`, R435 (13). -/
def RED_SUBSTi_W0.OLD_NODE (i : Nat) : Fld := ⟨0xc0100 + 0x8 * i, 0, 16⟩
def RED_SUBSTi_W0.SPARE_NODE (i : Nat) : Fld := ⟨0xc0100 + 0x8 * i, 16, 16⟩

/-! `RED_SUBSTi_W1`, R435 (13). -/
def RED_SUBSTi_W1.SUB_EPOCH (i : Nat) : Fld := ⟨0xc0104 + 0x8 * i, 0, 32⟩

/-! `ERR_CTRL`, R463 (14). -/
def ERR_CTRL.INFO_EVENTS : Fld := ⟨0xd0000, 0, 1⟩
def ERR_CTRL.LOG_CLEAR : Fld := ⟨0xd0000, 1, 1⟩

/-! `ERR_LIMITS`, R463 (14). -/
def ERR_LIMITS.HS_LIMIT : Fld := ⟨0xd0004, 0, 8⟩
def ERR_LIMITS.CLUSTER_LIMIT : Fld := ⟨0xd0004, 8, 3⟩
def ERR_LIMITS.ITEM_LIMIT : Fld := ⟨0xd0004, 16, 16⟩

/-! `ERR_STATUS`, R463 (14). -/
def ERR_STATUS.HANDLER_BUSY : Fld := ⟨0xd0008, 0, 4⟩
def ERR_STATUS.LOG_COUNT : Fld := ⟨0xd0008, 8, 8⟩
def ERR_STATUS.DEGRADED : Fld := ⟨0xd0008, 16, 1⟩

/-! `ERR_EVENT`, R463 (14). -/
def ERR_EVENT.LOG_OVERFLOW : Fld := ⟨0xd000c, 0, 1⟩
def ERR_EVENT.LOG_LOST : Fld := ⟨0xd000c, 1, 1⟩
def ERR_EVENT.PENDING_FULL : Fld := ⟨0xd000c, 2, 1⟩
def ERR_EVENT.FENCE_SEEN : Fld := ⟨0xd000c, 3, 1⟩

/-! `ERR_FENCE_LANE`, R463 (14). -/
def ERR_FENCE_LANE.LANE_FENCED (w : Nat) : Fld := ⟨0xd0040 + 0x4 * w, 0, 32⟩

/-! `ERR_FENCE_BLOCK`, R463 (14). -/
def ERR_FENCE_BLOCK.CLUSTER_FENCED : Fld := ⟨0xd0048, 0, 16⟩
def ERR_FENCE_BLOCK.HALF_FENCED : Fld := ⟨0xd0048, 16, 2⟩
def ERR_FENCE_BLOCK.PORT_FENCED : Fld := ⟨0xd0048, 18, 2⟩
def ERR_FENCE_BLOCK.BRIDGE_FENCED : Fld := ⟨0xd0048, 20, 1⟩
def ERR_FENCE_BLOCK.HOSTPORT_FENCED : Fld := ⟨0xd0048, 21, 1⟩
def ERR_FENCE_BLOCK.REGION_FENCED : Fld := ⟨0xd0048, 24, 4⟩

/-! `ERR_FENCE_CTX`, R463 (14). -/
def ERR_FENCE_CTX.CTX_FENCED (w : Nat) : Fld := ⟨0xd0080 + 0x4 * w, 0, 32⟩

/-! `ERR_GATE_CORE`, R463 (14). -/
def ERR_GATE_CORE.CORE_GATED (w : Nat) : Fld := ⟨0xd00c0 + 0x4 * w, 0, 32⟩

/-! `ERR_GATE_LANE`, R463 (14). -/
def ERR_GATE_LANE.LANE_GATED (w : Nat) : Fld := ⟨0xd00c8 + 0x4 * w, 0, 32⟩

/-! `ERR_GATE_BLOCK`, R463 (14). -/
def ERR_GATE_BLOCK.BLOCK_GATED : Fld := ⟨0xd00d0, 0, 32⟩

/-! `ERR_GATE_CTX`, R463 (14). -/
def ERR_GATE_CTX.CTX_GATED (w : Nat) : Fld := ⟨0xd0100 + 0x4 * w, 0, 32⟩

/-! `ID_PART`, R485 (15). -/
def ID_PART.PART : Fld := ⟨0x0, 0, 32⟩

/-! `ID_SILICON`, R485 (15). -/
def ID_SILICON.SILICON : Fld := ⟨0x4, 0, 16⟩

/-! `ID_UNIQUE`, R485 (15). -/
def ID_UNIQUE.UNIQUE_ID (w : Nat) : Fld := ⟨0x8 + 0x4 * w, 0, 32⟩

/-! `ID_MAC_HI`, R485 (15). -/
def ID_MAC_HI.MAC_BASE_HI : Fld := ⟨0x18, 0, 16⟩

/-! `ID_MAC_LO`, R485 (15). -/
def ID_MAC_LO.MAC_BASE_LO : Fld := ⟨0x1c, 0, 32⟩

/-! `ID_NODE`, R485 (15). -/
def ID_NODE.NODE_ID : Fld := ⟨0x20, 0, 16⟩

/-! `ID_PROFILE`, R485 (15). -/
def ID_PROFILE.PROFILE : Fld := ⟨0x24, 0, 1⟩
def ID_PROFILE.PINNED : Fld := ⟨0x24, 1, 1⟩

/-! `ID_LIFECYCLE`, R485 (15). -/
def ID_LIFECYCLE.LC_STATE : Fld := ⟨0x28, 0, 3⟩
def ID_LIFECYCLE.DEBUG_OPEN : Fld := ⟨0x28, 3, 1⟩
def ID_LIFECYCLE.RETURN_ARMED : Fld := ⟨0x28, 4, 1⟩

/-! `ID_FW`, R485 (15). -/
def ID_FW.FW_VERSION : Fld := ⟨0x2c, 0, 32⟩

/-! `ID_ROLES`, R485 (15). -/
def ID_ROLES.ROLES : Fld := ⟨0x30, 0, 4⟩

/-! `FWU_CTRL`, R486 (15). -/
def FWU_CTRL.SAVE : Fld := ⟨0xe0000, 0, 1⟩
def FWU_CTRL.ACT_CANCEL : Fld := ⟨0xe0000, 1, 1⟩

/-! `FWU_STATUS`, R486 (15). -/
def FWU_STATUS.PRIMARY : Fld := ⟨0xe0004, 0, 1⟩
def FWU_STATUS.OTHER_VALID : Fld := ⟨0xe0004, 1, 1⟩
def FWU_STATUS.LOAD_STATE : Fld := ⟨0xe0004, 2, 3⟩
def FWU_STATUS.ACT_PENDING : Fld := ⟨0xe0004, 5, 1⟩
def FWU_STATUS.SETTINGS_SRC : Fld := ⟨0xe0004, 6, 2⟩
def FWU_STATUS.WD_COUNT : Fld := ⟨0xe0004, 8, 2⟩

/-! `FWU_VER_A`, R486 (15). -/
def FWU_VER_A.VER_A : Fld := ⟨0xe0008, 0, 32⟩

/-! `FWU_VER_B`, R486 (15). -/
def FWU_VER_B.VER_B : Fld := ⟨0xe000c, 0, 32⟩

/-! `FWU_SEC_A`, R486 (15). -/
def FWU_SEC_A.SEC_A : Fld := ⟨0xe0010, 0, 32⟩

/-! `FWU_SEC_B`, R486 (15). -/
def FWU_SEC_B.SEC_B : Fld := ⟨0xe0014, 0, 32⟩

/-! `FWU_FLOOR`, R486 (15). -/
def FWU_FLOOR.FLOOR : Fld := ⟨0xe0018, 0, 32⟩

/-! `FWU_LOAD`, R486 (15). -/
def FWU_LOAD.LOAD_BYTES : Fld := ⟨0xe001c, 0, 23⟩

/-! `FWU_VERIFY`, R486 (15). -/
def FWU_VERIFY.RESULT : Fld := ⟨0xe0020, 0, 8⟩
def FWU_VERIFY.BAD_BLOCK_IDX : Fld := ⟨0xe0020, 16, 7⟩

/-! `FWU_ACT_SEC_HI`, R486 (15). -/
def FWU_ACT_SEC_HI.ACT_SEC_HI : Fld := ⟨0xe0024, 0, 16⟩

/-! `FWU_ACT_SEC_LO`, R486 (15). -/
def FWU_ACT_SEC_LO.ACT_SEC_LO : Fld := ⟨0xe0028, 0, 32⟩

/-! `FWU_ACT_NS`, R486 (15). -/
def FWU_ACT_NS.ACT_NS : Fld := ⟨0xe002c, 0, 32⟩

/-! `FWU_SETTINGS`, R486 (15). -/
def FWU_SETTINGS.FMT_OWN : Fld := ⟨0xe0030, 0, 16⟩
def FWU_SETTINGS.FMT_FOUND : Fld := ⟨0xe0030, 16, 16⟩

/-! `FWU_SAVE_GEN`, R486 (15). -/
def FWU_SAVE_GEN.SAVE_GEN : Fld := ⟨0xe0034, 0, 32⟩

/-! `FWU_EVENT`, R486 (15). -/
def FWU_EVENT.VERIFY_DONE : Fld := ⟨0xe0038, 0, 1⟩
def FWU_EVENT.ACTIVATED : Fld := ⟨0xe0038, 1, 1⟩
def FWU_EVENT.SETTINGS_RESET : Fld := ⟨0xe0038, 2, 1⟩
def FWU_EVENT.SETTINGS_CONVERTED : Fld := ⟨0xe0038, 3, 1⟩
def FWU_EVENT.FALLBACK : Fld := ⟨0xe0038, 4, 1⟩
def FWU_EVENT.BOOT_SLOT_BAD : Fld := ⟨0xe0038, 5, 1⟩
def FWU_EVENT.ACT_CANCELLED : Fld := ⟨0xe0038, 6, 1⟩
def FWU_EVENT.SAVE_FAIL : Fld := ⟨0xe0038, 7, 1⟩
def FWU_EVENT.BLOCK_BAD : Fld := ⟨0xe0038, 8, 1⟩

/-! `CAL_CTRL`, R499 (16). -/
def CAL_CTRL.AUTO_MASK : Fld := ⟨0xf0000, 1, 4⟩
def CAL_CTRL.AUTO_EN : Fld := ⟨0xf0000, 5, 1⟩
def CAL_CTRL.TEMP_STEP : Fld := ⟨0xf0000, 8, 8⟩
def CAL_CTRL.PERIOD_MIN : Fld := ⟨0xf0000, 16, 16⟩

/-! `CAL_STATUS`, R499 (16). -/
def CAL_STATUS.RUNNING : Fld := ⟨0xf0004, 0, 5⟩
def CAL_STATUS.PASSED_EVER : Fld := ⟨0xf0004, 8, 5⟩
def CAL_STATUS.SETS : Fld := ⟨0xf0004, 16, 4⟩

/-! `CAL_TEMP`, R499 (16). -/
def CAL_TEMP.DIE_TEMP : Fld := ⟨0xf0008, 0, 16⟩
def CAL_TEMP.LAST_SET_TEMP : Fld := ⟨0xf0008, 16, 16⟩

/-! `CAL_RESULT`, R499 (16). -/
def CAL_RESULT.DONE : Fld := ⟨0xf0010, 0, 5⟩
def CAL_RESULT.FAILED : Fld := ⟨0xf0010, 8, 5⟩
def CAL_RESULT.TRIGGER : Fld := ⟨0xf0010, 16, 2⟩

/-! `CAL_EVENT`, R499 (16). -/
def CAL_EVENT.CAL_DONE : Fld := ⟨0xf000c, 0, 1⟩
def CAL_EVENT.CAL_FAIL : Fld := ⟨0xf000c, 1, 1⟩
def CAL_EVENT.DESKEW_NO_WINDOW : Fld := ⟨0xf000c, 2, 1⟩
def CAL_EVENT.PHASE_RANGE : Fld := ⟨0xf000c, 3, 1⟩
def CAL_EVENT.ADC_RANGE : Fld := ⟨0xf000c, 4, 1⟩
def CAL_EVENT.DESKEW_CLAMP : Fld := ⟨0xf000c, 5, 1⟩
def CAL_EVENT.RB_RANGE : Fld := ⟨0xf000c, 6, 1⟩

/-! `CAL_ADC`, R499 (16). -/
def CAL_ADC.ADC_OFS : Fld := ⟨0xf0014, 0, 16⟩
def CAL_ADC.ADC_GAIN : Fld := ⟨0xf0014, 16, 16⟩

/-! `CAL_PHASE_OFS0`, R499 (16). -/
def CAL_PHASE_OFS0.PHASE_OFS : Fld := ⟨0xf0018, 0, 32⟩

/-! `CAL_PHASE_OFS1`, R499 (16). -/
def CAL_PHASE_OFS1.PHASE_OFS : Fld := ⟨0xf001c, 0, 32⟩

/-! `CAL_TAPw`, R499 (16). -/
def CAL_TAPw.TAP0 (w : Nat) : Fld := ⟨0xf0200 + 0x4 * w, 0, 6⟩
def CAL_TAPw.TAP1 (w : Nat) : Fld := ⟨0xf0200 + 0x4 * w, 8, 6⟩
def CAL_TAPw.TAP2 (w : Nat) : Fld := ⟨0xf0200 + 0x4 * w, 16, 6⟩
def CAL_TAPw.TAP3 (w : Nat) : Fld := ⟨0xf0200 + 0x4 * w, 24, 6⟩

/-! `CLK_RESET`, R519 (17). -/
def CLK_RESET.RESET_CAUSE : Fld := ⟨0x10100, 0, 4⟩
def CLK_RESET.FROM_DORMANT : Fld := ⟨0x10100, 4, 1⟩
def CLK_RESET.WAKE_SRC : Fld := ⟨0x10100, 5, 2⟩
def CLK_RESET.WAKE_PATTERN : Fld := ⟨0x10100, 7, 2⟩
def CLK_RESET.RECORD_BAD : Fld := ⟨0x10100, 9, 1⟩
def CLK_RESET.RESET_COUNT : Fld := ⟨0x10100, 16, 16⟩

/-! `CLK_STRAPS`, R519 (17). -/
def CLK_STRAPS.STRAP_ROLES : Fld := ⟨0x10104, 0, 4⟩
def CLK_STRAPS.STRAP_GANG : Fld := ⟨0x10104, 4, 6⟩
def CLK_STRAPS.STRAP_HOST : Fld := ⟨0x10104, 10, 1⟩

/-! `CLK_ROLE_CFG`, R519 (17). -/
def CLK_ROLE_CFG.ROLE_SET : Fld := ⟨0x10108, 0, 4⟩
def CLK_ROLE_CFG.ROLE_OVERRIDE : Fld := ⟨0x10108, 4, 1⟩

/-! `CLK_POWER`, R519 (17). -/
def CLK_POWER.PG_LOW : Fld := ⟨0x1010c, 0, 7⟩
def CLK_POWER.MAIN_RETRY : Fld := ⟨0x1010c, 8, 8⟩

/-! `CLK_BOOT_TIME`, R519 (17). -/
def CLK_BOOT_TIME.BOOT_MS : Fld := ⟨0x10110, 0, 16⟩
def CLK_BOOT_TIME.ROM_MS : Fld := ⟨0x10110, 16, 16⟩

/-- The whole word at address `a`. -/
def wordAt (a : Nat) : Fld := ⟨a, 0, 32⟩

/-- Bit `n` of a field. -/
def Fld.bit (f : Fld) (n : Nat) : Fld := ⟨f.addr, f.lo + n, 1⟩

/-- R564, R566: the registers of the block at 0x0. -/
def idRows : List RegRow :=
  [⟨0, 0, 1, 0, 1, 0x8170, 0xffffffff, 0, 0, 0, 0, 0⟩ /- ID_PART -/,
   ⟨0x4, 0, 1, 0, 1, 0, 0xffff, 0, 0, 0, 0, 0⟩ /- ID_SILICON -/,
   ⟨0x8, 0x4, 4, 0, 1, 0, 0xffffffff, 0, 0, 0, 0, 0⟩ /- ID_UNIQUE -/,
   ⟨0x18, 0, 1, 0, 1, 0, 0xffff, 0, 0, 0, 0, 0⟩ /- ID_MAC_HI -/,
   ⟨0x1c, 0, 1, 0, 1, 0, 0xffffffff, 0, 0, 0, 0, 0⟩ /- ID_MAC_LO -/,
   ⟨0x20, 0, 1, 0, 1, 0, 0, 0xffff, 0, 0, 0, 0⟩ /- ID_NODE -/,
   ⟨0x24, 0, 1, 0, 1, 0x1, 0x2, 0x1, 0, 0, 0, 0⟩ /- ID_PROFILE -/,
   ⟨0x28, 0, 1, 0, 1, 0, 0x1f, 0, 0, 0, 0, 0⟩ /- ID_LIFECYCLE -/,
   ⟨0x2c, 0, 1, 0, 1, 0, 0xffffffff, 0, 0, 0, 0, 0⟩ /- ID_FW -/,
   ⟨0x30, 0, 1, 0, 1, 0, 0xf, 0, 0, 0, 0, 0⟩ /- ID_ROLES -/,
   ⟨0x100, 0, 1, 0, 1, 0x86, 0, 0, 0, 0xff, 0, 0⟩ /- ID_SEL_CTRL -/,
   ⟨0x104, 0x4, 4, 0, 1, 0, 0, 0, 0, 0xffffffff, 0, 0⟩ /- ID_SEL_NOTIFY -/,
   ⟨0x114, 0, 1, 0, 1, 0, 0x7fff0f1f, 0, 0, 0, 0, 0⟩ /- ID_SEL_STATUS -/,
   ⟨0x118, 0, 1, 0, 1, 0, 0, 0, 0, 0, 0x7ff, 0⟩ /- ID_SEL_EVENT -/,
   ⟨0x120, 0, 1, 0, 1, 0, 0xffffffff, 0, 0, 0, 0, 0⟩ /- ID_BOOT_ID -/,
   ⟨0x124, 0, 1, 0, 1, 0, 0, 0, 0, 0x4, 0, 0x3⟩ /- ID_STATE_CTRL -/]
/-- R564, R566: the registers of the block at 0x10000. -/
def clkRows : List RegRow :=
  [⟨0x10000, 0, 1, 0, 1, 0x18, 0, 0, 0xc, 0x33, 0, 0x40⟩ /- CLK_CTRL -/,
   ⟨0x10004, 0, 1, 0, 1, 0x10, 0x3ff, 0, 0, 0, 0, 0⟩ /- CLK_STATUS -/,
   ⟨0x10008, 0, 1, 0, 1, 0, 0xffff0000, 0, 0, 0, 0x1ff, 0⟩ /- CLK_EVENT -/,
   ⟨0x1000c, 0, 1, 0, 1, 0x140a00c8, 0, 0, 0, 0xffff03ff, 0, 0⟩ /- CLK_LIMITS -/,
   ⟨0x10010, 0, 1, 0, 1, 0x3e8, 0, 0, 0, 0xffff, 0, 0⟩ /- CLK_REVERT -/,
   ⟨0x10014, 0x4, 2, 0, 1, 0x80000000, 0xffffffff, 0, 0, 0, 0, 0⟩ /- CLK_Pp_FOFS -/,
   ⟨0x10020, 0, 1, 0, 1, 0x12020, 0, 0, 0, 0x1ffff, 0, 0x20000⟩ /- CLK_COSC_TRIM -/,
   ⟨0x10024, 0, 1, 0, 1, 0xff000000, 0xffffffff, 0, 0, 0, 0, 0⟩ /- CLK_COSC_MEAS -/,
   ⟨0x10028, 0, 1, 0, 1, 0x2, 0, 0x7, 0, 0, 0, 0⟩ /- CLK_XTAL -/,
   ⟨0x10100, 0, 1, 0, 1, 0, 0xffff03ff, 0, 0, 0, 0, 0⟩ /- CLK_RESET -/,
   ⟨0x10104, 0, 1, 0, 1, 0, 0x7ff, 0, 0, 0, 0, 0⟩ /- CLK_STRAPS -/,
   ⟨0x10108, 0, 1, 0, 1, 0, 0, 0x1f, 0, 0, 0, 0⟩ /- CLK_ROLE_CFG -/,
   ⟨0x1010c, 0, 1, 0, 1, 0, 0xff7f, 0, 0, 0, 0, 0⟩ /- CLK_POWER -/,
   ⟨0x10110, 0, 1, 0, 1, 0, 0xffffffff, 0, 0, 0, 0, 0⟩ /- CLK_BOOT_TIME -/]
/-- R564, R566: the registers of the block at 0x20000. -/
def timRows : List RegRow :=
  [⟨0x20000, 0, 1, 0, 1, 0x7f0020, 0, 0xff01ff, 0, 0x200, 0, 0x400⟩ /- TIM_CTRL -/,
   ⟨0x20004, 0, 1, 0, 1, 0, 0xffff007f, 0, 0, 0, 0, 0⟩ /- TIM_STATUS -/,
   ⟨0x20008, 0, 1, 0, 1, 0, 0, 0, 0, 0, 0x7fffff, 0⟩ /- TIM_EVENT -/,
   ⟨0x2000c, 0, 1, 0, 1, 0xa0a1462, 0, 0, 0, 0xffffffff, 0, 0⟩ /- TIM_SERVO -/,
   ⟨0x20010, 0, 1, 0, 1, 0x3c, 0, 0, 0, 0x1ffff, 0, 0⟩ /- TIM_HOLD -/,
   ⟨0x20014, 0, 1, 0, 1, 0, 0xffffffff, 0, 0, 0, 0, 0⟩ /- TIM_HOLD_TIME -/,
   ⟨0x20018, 0, 1, 0, 1, 0, 0xffffffff, 0, 0, 0, 0, 0⟩ /- TIM_OFFSET -/,
   ⟨0x2001c, 0, 1, 0, 1, 0, 0xffffffff, 0, 0, 0, 0, 0⟩ /- TIM_RATE -/,
   ⟨0x20020, 0, 1, 0, 1, 0, 0, 0, 0xffffffff, 0, 0, 0⟩ /- TIM_GRID -/,
   ⟨0x20030, 0x4, 4, 0, 1, 0, 0xffffffff, 0, 0, 0, 0, 0⟩ /- TIM_NOW -/,
   ⟨0x20040, 0, 1, 0, 1, 0, 0, 0, 0, 0xffff, 0, 0⟩ /- TIM_SET(0) -/,
   ⟨0x20044, 0, 1, 0, 1, 0, 0, 0, 0, 0xffffffff, 0, 0⟩ /- TIM_SET(1) -/,
   ⟨0x20048, 0, 1, 0, 1, 0, 0, 0, 0, 0xffffffff, 0, 0⟩ /- TIM_SET(2) -/,
   ⟨0x2004c, 0, 1, 0, 1, 0, 0, 0, 0, 0xffff, 0, 0⟩ /- TIM_SET(3) -/,
   ⟨0x20050, 0, 1, 0, 1, 0x80800ded, 0, 0xffff0fff, 0, 0, 0, 0⟩ /- TIM_PTP_CFG -/,
   ⟨0x20054, 0, 1, 0, 1, 0xfffffef8, 0, 0xffffffff, 0, 0, 0, 0⟩ /- TIM_PTP_QUALITY -/,
   ⟨0x20058, 0x4, 2, 0, 1, 0, 0xffffffff, 0, 0, 0, 0, 0⟩ /- TIM_GM_ID -/,
   ⟨0x20060, 0x10, 2, 0, 1, 0, 0, 0, 0, 0xffffffff, 0, 0⟩ /- TIM_Pp_ASYM -/,
   ⟨0x20064, 0x10, 2, 0, 1, 0, 0, 0, 0, 0xffffffff, 0, 0⟩ /- TIM_Pp_ALPHA -/,
   ⟨0x20068, 0x10, 2, 0, 1, 0, 0xffffffff, 0, 0, 0, 0, 0⟩ /- TIM_Pp_LINKDLY -/,
   ⟨0x2006c, 0x10, 2, 0, 1, 0, 0xffffffff, 0, 0, 0, 0, 0⟩ /- TIM_Pp_PHASE -/,
   ⟨0x20080, 0, 1, 0, 1, 0x3e830, 0, 0xf, 0, 0xfffff0, 0, 0⟩ /- TIM_FSYNC -/,
   ⟨0x20084, 0, 1, 0, 1, 0, 0, 0, 0, 0xffffffff, 0, 0⟩ /- TIM_FSYNC_DELAY -/,
   ⟨0x20088, 0, 1, 0, 1, 0, 0xffffffff, 0, 0, 0, 0, 0⟩ /- TIM_FSYNC_ERROR -/,
   ⟨0x20090, 0, 1, 0, 1, 0, 0, 0, 0, 0x3030303, 0, 0⟩ /- TIM_CAP_CTRL -/] ++
  [⟨0x200a0, 0x10, 4, 0x4, 4, 0, 0xffffffff, 0, 0, 0, 0, 0⟩ /- TIM_CAPn -/,
   ⟨0x200e0, 0x10, 4, 0, 1, 0x80008, 0, 0, 0, 0xffff003f, 0, 0⟩ /- TIM_TRIGn_CTRL -/,
   ⟨0x200e4, 0x10, 4, 0, 1, 0, 0, 0, 0, 0xffffffff, 0, 0⟩ /- TIM_TRIGn_TIME -/,
   ⟨0x200e8, 0x10, 4, 0, 1, 0, 0, 0, 0, 0xffffffff, 0, 0⟩ /- TIM_TRIGn_PERIOD -/,
   ⟨0x200ec, 0x10, 4, 0, 1, 0, 0, 0, 0, 0xffffffff, 0, 0⟩ /- TIM_TRIGn_OFFSET -/,
   ⟨0x20120, 0x4, 4, 0, 1, 0, 0xffffffff, 0, 0, 0, 0, 0⟩ /- TIM_TSQ -/]
/-- R564, R566: the registers of the block at 0x30000. -/
def prt0Rows : List RegRow :=
  [⟨0x30000, 0x8000, 2, 0, 1, 0x8384, 0, 0xff, 0x800, 0xf700, 0, 0⟩ /- PRTn_CTRL -/,
   ⟨0x30004, 0x8000, 2, 0, 1, 0x5f2, 0, 0x3fff, 0, 0, 0, 0⟩ /- PRTn_MAXLEN -/,
   ⟨0x30008, 0x8000, 2, 0, 1, 0x100, 0xfff, 0, 0, 0, 0, 0⟩ /- PRTn_STATUS -/,
   ⟨0x3000c, 0x8000, 2, 0, 1, 0, 0, 0, 0, 0, 0xff, 0⟩ /- PRTn_EVENT -/,
   ⟨0x30010, 0x8000, 2, 0, 1, 0x600, 0, 0, 0, 0xfff, 0, 0⟩ /- PRTn_RING_WM -/,
   ⟨0x30014, 0x8000, 2, 0, 1, 0, 0xfff0fff, 0, 0, 0, 0, 0⟩ /- PRTn_RING_STAT -/,
   ⟨0x30018, 0x8000, 2, 0, 1, 0, 0xffffffff, 0, 0, 0, 0, 0⟩ /- PRTn_RING_CROSS -/,
   ⟨0x30020, 0x8000, 2, 0, 1, 0, 0xffff, 0, 0, 0, 0, 0⟩ /- PRTn_MAC_HI -/,
   ⟨0x30024, 0x8000, 2, 0, 1, 0, 0xffffffff, 0, 0, 0, 0, 0⟩ /- PRTn_MAC_LO -/,
   ⟨0x30028, 0x8000, 2, 0, 1, 0, 0, 0xffffffff, 0, 0, 0, 0⟩ /- PRTn_IPV4 -/,
   ⟨0x3002c, 0x8000, 2, 0, 1, 0x18, 0, 0x3f, 0, 0, 0, 0⟩ /- PRTn_IPV4_CFG -/,
   ⟨0x30030, 0x8000, 2, 0x4, 4, 0, 0, 0xffffffff, 0, 0, 0, 0⟩ /- PRTn_IPV6 -/,
   ⟨0x30040, 0x8000, 2, 0, 1, 0, 0, 0, 0x7fff, 0, 0, 0⟩ /- PRTn_VLAN -/,
   ⟨0x30050, 0x8000, 2, 0, 1, 0x3e820000, 0x7ff, 0, 0, 0xfff70000, 0, 0⟩ /- PRTn_MCAST -/,
   ⟨0x30080, 0, 1, 0, 1, 0, 0, 0, 0, 0xf, 0, 0⟩ /- PRT0_WAKE_CTRL -/,
   ⟨0x30090, 0x20, 4, 0x4, 4, 0, 0, 0, 0, 0xffffffff, 0, 0⟩ /- PRT0_WAKEm_MASK -/,
   ⟨0x300a0, 0x20, 4, 0, 1, 0, 0, 0, 0, 0xffffffff, 0, 0⟩ /- PRT0_WAKEm_CRC -/]
/-- R564, R566: the registers of the block at 0x40000. -/
def stcRows : List RegRow :=
  [⟨0x40000, 0x40, 512, 0, 1, 0x10000, 0, 0, 0x1f07ff, 0, 0, 0⟩ /- STC_CTRL -/,
   ⟨0x40004, 0x40, 512, 0, 1, 0x820, 0, 0, 0x3fff, 0, 0, 0⟩ /- STC_FORMAT -/,
   ⟨0x40008, 0x40, 512, 0, 1, 0, 0, 0, 0xffffffff, 0, 0, 0⟩ /- STC_MATCH -/,
   ⟨0x4000c, 0x40, 512, 0, 1, 0, 0, 0, 0xffffffff, 0, 0, 0⟩ /- STC_SSRC -/,
   ⟨0x40010, 0x40, 512, 0x4, 2, 0, 0, 0, 0x3ff03ff, 0, 0, 0⟩ /- STC_ADDR_P -/,
   ⟨0x40018, 0x40, 512, 0, 1, 0, 0, 0, 0xffffffff, 0, 0, 0⟩ /- STC_WIN_ORG -/,
   ⟨0x4001c, 0x40, 512, 0, 1, 0, 0, 0, 0xffffffff, 0, 0, 0⟩ /- STC_WIN_SIZE -/,
   ⟨0x40020, 0x40, 512, 0, 1, 0, 0, 0, 0xffffffff, 0, 0, 0⟩ /- STC_DST_ORG -/,
   ⟨0x40024, 0x40, 512, 0, 1, 0, 0, 0, 0xffffffff, 0, 0, 0⟩ /- STC_DST_SIZE -/,
   ⟨0x48000, 0x10, 512, 0, 1, 0, 0xf, 0, 0, 0, 0x1f0000, 0⟩ /- STC_CSTAT -/,
   ⟨0x48004, 0x10, 512, 0, 1, 0, 0xffffffff, 0, 0, 0, 0, 0⟩ /- STC_HSEQ -/,
   ⟨0x48008, 0x10, 512, 0, 1, 0, 0xffffffff, 0, 0, 0, 0, 0⟩ /- STC_SKEW -/,
   ⟨0x4800c, 0x10, 512, 0, 1, 0, 0xffffffff, 0, 0, 0, 0, 0⟩ /- STC_LAST_FRAME -/,
   ⟨0x4a000, 0, 1, 0, 1, 0x192710, 0, 0, 0, 0xffffff, 0, 0⟩ /- STC_CFG -/,
   ⟨0x4a004, 0, 1, 0, 1, 0, 0x3ff0fff, 0, 0, 0, 0, 0⟩ /- STC_POOL -/,
   ⟨0x4a010, 0x4, 4, 0, 1, 0x1, 0, 0x3, 0, 0, 0, 0⟩ /- STC_FEEDf_CFG -/,
   ⟨0x4c000, 0x10, 1024, 0x4, 4, 0, 0, 0, 0xffffffff, 0, 0, 0⟩ /- STC_ADDRi -/]
/-- R564, R566: the registers of the block at 0x50000. -/
def fstRows : List RegRow :=
  [⟨0x50000, 0, 1, 0, 1, 0x302, 0, 0x3f3f, 0x70000, 0, 0, 0⟩ /- FST_FEEDf_CFG(0) -/,
   ⟨0x50004, 0x20, 4, 0, 1, 0, 0, 0, 0x7, 0, 0, 0⟩ /- FST_FEEDf_SHOW -/,
   ⟨0x50008, 0x20, 4, 0, 1, 0, 0xf0fff, 0, 0, 0, 0, 0⟩ /- FST_FEEDf_STATUS -/,
   ⟨0x5000c, 0x20, 4, 0, 1, 0, 0, 0, 0, 0, 0x7, 0⟩ /- FST_FEEDf_EVENT -/,
   ⟨0x50010, 0x20, 4, 0, 1, 0, 0xffffffff, 0, 0, 0, 0, 0⟩ /- FST_FEEDf_MARK_FRAME -/,
   ⟨0x50014, 0x20, 4, 0, 1, 0, 0xffffffff, 0, 0, 0, 0, 0⟩ /- FST_FEEDf_SHOWN_FRAME -/,
   ⟨0x50018, 0x20, 4, 0, 1, 0, 0xffffffff, 0, 0, 0, 0, 0⟩ /- FST_FEEDf_LAYOUT -/,
   ⟨0x50020, 0, 1, 0, 1, 0x2, 0, 0x3f3f, 0x70000, 0, 0, 0⟩ /- FST_FEEDf_CFG(1) -/,
   ⟨0x50040, 0, 1, 0, 1, 0x2, 0, 0x3f3f, 0x70000, 0, 0, 0⟩ /- FST_FEEDf_CFG(2) -/,
   ⟨0x50060, 0, 1, 0, 1, 0x2, 0, 0x3f3f, 0x70000, 0, 0, 0⟩ /- FST_FEEDf_CFG(3) -/,
   ⟨0x50100, 0, 1, 0, 1, 0x4c00000, 0x7ff07ff, 0, 0, 0, 0, 0⟩ /- FST_PLAN -/,
   ⟨0x50104, 0, 1, 0, 1, 0, 0xffffffff, 0, 0, 0, 0, 0⟩ /- FST_LAYOUT_CAL -/,
   ⟨0x50108, 0, 1, 0, 1, 0, 0xffffffff, 0, 0, 0, 0, 0⟩ /- FST_LAYOUT_STG -/,
   ⟨0x5010c, 0, 1, 0, 1, 0xf000000, 0xf07ffff, 0, 0, 0, 0, 0⟩ /- FST_REGION -/]
/-- R564, R566: the registers of the block at 0x60000. -/
def schRows : List RegRow :=
  [⟨0x60000, 0, 1, 0, 1, 0x5f00, 0, 0, 0xff03, 0, 0, 0x10000⟩ /- SCH_CTRL -/,
   ⟨0x60004, 0, 1, 0, 1, 0x2829c, 0, 0, 0, 0x3ffff, 0, 0⟩ /- SCH_PRIO -/,
   ⟨0x60008, 0, 1, 0, 1, 0x40, 0x1fffff, 0, 0, 0, 0, 0⟩ /- SCH_STATUS -/,
   ⟨0x6000c, 0, 1, 0, 1, 0, 0x7ff07ff, 0, 0, 0, 0, 0⟩ /- SCH_LOAD -/,
   ⟨0x60010, 0, 1, 0, 1, 0, 0x3ff03ff, 0, 0, 0, 0, 0⟩ /- SCH_BUSY -/,
   ⟨0x60014, 0, 1, 0, 1, 0, 0x1fff1fff, 0, 0, 0, 0, 0⟩ /- SCH_ITEMS -/,
   ⟨0x60018, 0, 1, 0, 1, 0, 0, 0, 0, 0, 0x3f, 0⟩ /- SCH_EVENT -/,
   ⟨0x60020, 0x4, 2, 0, 1, 0xffffffff, 0xffffffff, 0, 0, 0, 0, 0⟩ /- SCH_CORE_LIVE -/,
   ⟨0x60030, 0, 1, 0, 1, 0x7e80001, 0, 0, 0, 0x7ff0007, 0, 0x8⟩ /- SCH_TRACE_CTRL -/,
   ⟨0x60034, 0, 1, 0, 1, 0, 0x7fff, 0, 0, 0, 0, 0⟩ /- SCH_TRACE_STATUS -/,
   ⟨0x60040, 0x4, 4, 0, 1, 0, 0xffffffff, 0, 0, 0, 0, 0⟩ /- SCH_TRACE_ENTRY -/]
/-- R564, R566: the registers of the block at 0x70000. -/
def colRows : List RegRow :=
  [⟨0x70000, 0, 1, 0, 1, 0x17, 0, 0, 0xf6, 0x1, 0, 0⟩ /- COL_CTRL -/,
   ⟨0x70004, 0, 1, 0, 1, 0x8000, 0, 0, 0, 0xffff, 0, 0⟩ /- COL_BRIGHT -/,
   ⟨0x70010, 0, 1, 0, 1, 0xffffffff, 0, 0, 0xffffffff, 0, 0, 0⟩ /- COL_FACETf_MASK(0) -/,
   ⟨0x70014, 0x10, 4, 0, 1, 0x1, 0, 0, 0xffffffff, 0, 0, 0⟩ /- COL_FACETf_WIN -/,
   ⟨0x70018, 0x10, 4, 0, 1, 0x8000, 0, 0, 0, 0xffff, 0, 0⟩ /- COL_FACETf_CFG -/,
   ⟨0x7001c, 0x10, 4, 0, 1, 0, 0x1f073f, 0, 0, 0, 0, 0⟩ /- COL_FACETf_STATUS -/,
   ⟨0x70020, 0, 1, 0, 1, 0, 0, 0, 0xffffffff, 0, 0, 0⟩ /- COL_FACETf_MASK(1) -/,
   ⟨0x70030, 0, 1, 0, 1, 0, 0, 0, 0xffffffff, 0, 0, 0⟩ /- COL_FACETf_MASK(2) -/,
   ⟨0x70040, 0, 1, 0, 1, 0, 0, 0, 0xffffffff, 0, 0, 0⟩ /- COL_FACETf_MASK(3) -/,
   ⟨0x70050, 0, 1, 0, 1, 0x3e803e8, 0, 0, 0xffffffff, 0, 0, 0⟩ /- COL_TF -/,
   ⟨0x70060, 0, 1, 0, 1, 0x547ba3d7, 0, 0xffffffff, 0, 0, 0, 0⟩ /- COL_TARGET(0) -/,
   ⟨0x70064, 0, 1, 0, 1, 0x999a4ccd, 0, 0xffffffff, 0, 0, 0, 0⟩ /- COL_TARGET(1) -/,
   ⟨0x70068, 0, 1, 0, 1, 0xf5c2666, 0, 0xffffffff, 0, 0, 0, 0⟩ /- COL_TARGET(2) -/,
   ⟨0x7006c, 0, 1, 0, 1, 0x5439500d, 0, 0xffffffff, 0, 0, 0, 0⟩ /- COL_TARGET(3) -/,
   ⟨0x70080, 0x20, 3, 0, 1, 0x4000, 0xffffffff, 0, 0, 0, 0, 0⟩ /- COL_GAMUTs_W0 -/,
   ⟨0x70084, 0x20, 3, 0, 1, 0, 0xffffffff, 0, 0, 0, 0, 0⟩ /- COL_GAMUTs_W1 -/,
   ⟨0x70088, 0x20, 3, 0, 1, 0x4000, 0xffffffff, 0, 0, 0, 0, 0⟩ /- COL_GAMUTs_W2 -/,
   ⟨0x7008c, 0x20, 3, 0, 1, 0, 0xffffffff, 0, 0, 0, 0, 0⟩ /- COL_GAMUTs_W3 -/,
   ⟨0x70090, 0x20, 3, 0, 1, 0x4000, 0xffff, 0, 0, 0, 0, 0⟩ /- COL_GAMUTs_W4 -/,
   ⟨0x700e0, 0, 1, 0, 1, 0xa00000, 0, 0, 0xffffffff, 0, 0, 0⟩ /- COL_TEMP_PTw(0) -/,
   ⟨0x700e4, 0, 1, 0, 1, 0x1e00140, 0, 0, 0xffffffff, 0, 0, 0⟩ /- COL_TEMP_PTw(1) -/,
   ⟨0x700e8, 0, 1, 0, 1, 0x3200280, 0, 0, 0xffffffff, 0, 0, 0⟩ /- COL_TEMP_PTw(2) -/,
   ⟨0x700ec, 0, 1, 0, 1, 0x46003c0, 0, 0, 0xffffffff, 0, 0, 0⟩ /- COL_TEMP_PTw(3) -/,
   ⟨0x700f0, 0x4, 2, 0, 1, 0xffffffff, 0, 0, 0, 0xffffffff, 0, 0⟩ /- COL_ZONE_SRC -/,
   ⟨0x700f8, 0, 1, 0, 1, 0x3c00190, 0, 0, 0, 0xffffffff, 0, 0⟩ /- COL_TEMP_CFG -/] ++
  [⟨0x70100, 0, 1, 0, 1, 0x32140460, 0, 0, 0, 0xffffffff, 0, 0⟩ /- COL_DERATE -/,
   ⟨0x70104, 0, 1, 0, 1, 0x8010021, 0, 0, 0, 0xff01ffff, 0, 0⟩ /- COL_DERATE_CTL -/,
   ⟨0x70108, 0, 1, 0, 1, 0x8000, 0xfffff, 0, 0, 0, 0, 0⟩ /- COL_STATUS -/,
   ⟨0x70110, 0x4, 8, 0, 1, 0, 0xffffffff, 0, 0, 0, 0, 0⟩ /- COL_ZONE_TEMPw -/,
   ⟨0x70130, 0, 1, 0, 1, 0, 0, 0, 0, 0, 0x3ffff, 0⟩ /- COL_EVENT -/,
   ⟨0x72000, 0x40, 128, 0x8, 8, 0x80008000, 0, 0, 0xffffffff, 0, 0, 0⟩ /- COL_BIN_W0 -/,
   ⟨0x72004, 0x40, 128, 0x8, 8, 0x80008000, 0, 0, 0xffffffff, 0, 0, 0⟩ /- COL_BIN_W1 -/]
/-- R564, R566: the registers of the block at 0x80000. -/
def scnARows : List RegRow :=
  [⟨0x80000, 0, 1, 0, 1, 0x120720e, 0, 0, 0x1ffffff, 0, 0, 0⟩ /- SCN_TSET0 -/,
   ⟨0x80004, 0, 1, 0, 1, 0x808604, 0, 0, 0xfffffff, 0, 0, 0⟩ /- SCN_TSET1 -/,
   ⟨0x80008, 0, 1, 0, 1, 0x4, 0, 0, 0xffff, 0, 0, 0⟩ /- SCN_TSET2 -/,
   ⟨0x8000c, 0, 1, 0, 1, 0xf0dc, 0, 0, 0xfffff, 0, 0, 0⟩ /- SCN_ROWCHG -/,
   ⟨0x80010, 0, 1, 0, 1, 0xf0a0, 0, 0, 0xfffff, 0, 0, 0⟩ /- SCN_ROWCHG2 -/,
   ⟨0x80014, 0, 1, 0, 1, 0x10, 0, 0, 0xffff00ff, 0, 0, 0⟩ /- SCN_OE -/,
   ⟨0x80018, 0, 1, 0, 1, 0x2000200, 0, 0xfff1fff, 0, 0, 0, 0⟩ /- SCN_GEOM -/,
   ⟨0x8001c, 0, 1, 0, 1, 0x100, 0, 0xfff, 0, 0, 0, 0⟩ /- SCN_MERIDIAN -/,
   ⟨0x80020, 0, 1, 0, 1, 0x27b98, 0xfffff, 0, 0, 0, 0, 0⟩ /- SCN_PROG0 -/,
   ⟨0x80024, 0, 1, 0, 1, 0x22f44, 0xfffff, 0, 0, 0, 0, 0⟩ /- SCN_PROG1 -/,
   ⟨0x80028, 0, 1, 0, 1, 0x20960, 0xfffff, 0, 0, 0, 0, 0⟩ /- SCN_PROG2 -/,
   ⟨0x8002c, 0, 1, 0, 1, 0x7bc00dac, 0xffffffff, 0, 0, 0, 0, 0⟩ /- SCN_LIGHT -/,
   ⟨0x80040, 0x8000, 2, 0, 1, 0xd, 0, 0xf, 0, 0, 0, 0⟩ /- SCN_x_CFG -/,
   ⟨0x80044, 0x8000, 2, 0, 1, 0x2000, 0x3f07, 0, 0, 0, 0, 0⟩ /- SCN_x_STATUS -/,
   ⟨0x80048, 0x8000, 2, 0, 1, 0, 0, 0, 0, 0, 0xf, 0⟩ /- SCN_x_EVENT -/,
   ⟨0x8004c, 0x8000, 2, 0, 1, 0, 0xffffffff, 0, 0, 0, 0, 0⟩ /- SCN_x_TSET_FRAME -/,
   ⟨0x80100, 0x8000, 2, 0x8, 32, 0x80000000, 0, 0x8fff0fff, 0, 0, 0, 0⟩ /- SCN_x_LANEi_W0 -/,
   ⟨0x80104, 0x8000, 2, 0x8, 32, 0x10000, 0, 0x7f0fff, 0, 0, 0, 0⟩ /- SCN_x_LANEi_W1 -/,
   ⟨0x84000, 0x8000, 2, 0x4, 2048, 0, 0, 0x7fff7fff, 0, 0, 0, 0⟩ /- SCN_x_PATw -/]
/-- R564, R566: the registers of the block at 0x90000. -/
def chnRows : List RegRow :=
  [⟨0x90000, 0, 1, 0, 1, 0x301e7, 0, 0x1, 0xffc6, 0xf0020, 0, 0x18⟩ /- CHN_CTRL -/,
   ⟨0x90004, 0, 1, 0, 1, 0x28050306, 0, 0, 0xffffffff, 0, 0, 0⟩ /- CHN_LATW0 -/,
   ⟨0x90008, 0, 1, 0, 1, 0x30, 0, 0, 0xff, 0, 0, 0⟩ /- CHN_LATW1 -/,
   ⟨0x9000c, 0, 1, 0, 1, 0x50, 0, 0, 0xfff, 0, 0, 0⟩ /- CHN_DET -/,
   ⟨0x90010, 0, 1, 0, 1, 0x5a3c0820, 0, 0, 0xff, 0xffffff00, 0, 0⟩ /- CHN_RB -/,
   ⟨0x90014, 0, 1, 0, 1, 0x26a5c, 0xffffff, 0, 0, 0, 0, 0⟩ /- CHN_RB_NEED -/,
   ⟨0x90020, 0, 1, 0, 1, 0x400000, 0, 0, 0x1ffffff, 0, 0, 0⟩ /- CHN_CFGw(0) -/,
   ⟨0x90024, 0, 1, 0, 1, 0x480000, 0, 0, 0x1ffffff, 0, 0, 0⟩ /- CHN_CFGw(1) -/,
   ⟨0x90028, 0, 1, 0, 1, 0x500000, 0, 0, 0x1ffffff, 0, 0, 0⟩ /- CHN_CFGw(2) -/,
   ⟨0x9002c, 0, 1, 0, 1, 0x580000, 0, 0, 0x1ffffff, 0, 0, 0⟩ /- CHN_CFGw(3) -/,
   ⟨0x90040, 0, 1, 0, 1, 0, 0x13f3f0f, 0, 0, 0, 0, 0⟩ /- CHN_STATUS -/,
   ⟨0x90044, 0, 1, 0, 1, 0, 0, 0, 0, 0, 0xff, 0⟩ /- CHN_EVENT -/,
   ⟨0x90048, 0x4, 2, 0, 1, 0, 0xffffffff, 0, 0, 0, 0, 0⟩ /- CHN_CHAIN_OK -/,
   ⟨0x90050, 0, 1, 0, 1, 0, 0xffff1fff, 0, 0, 0, 0, 0⟩ /- CHN_FMAP_STAT -/,
   ⟨0x90060, 0, 1, 0, 1, 0x48, 0, 0, 0, 0x7ff7f, 0, 0⟩ /- CHN_SENSs(0) -/,
   ⟨0x90064, 0, 1, 0, 1, 0x49, 0, 0, 0, 0x7ff7f, 0, 0⟩ /- CHN_SENSs(1) -/,
   ⟨0x90068, 0, 1, 0, 1, 0x4a, 0, 0, 0, 0x7ff7f, 0, 0⟩ /- CHN_SENSs(2) -/,
   ⟨0x9006c, 0, 1, 0, 1, 0x4b, 0, 0, 0, 0x7ff7f, 0, 0⟩ /- CHN_SENSs(3) -/,
   ⟨0x90070, 0, 1, 0, 1, 0x4c, 0, 0, 0, 0x7ff7f, 0, 0⟩ /- CHN_SENSs(4) -/,
   ⟨0x90074, 0, 1, 0, 1, 0x4d, 0, 0, 0, 0x7ff7f, 0, 0⟩ /- CHN_SENSs(5) -/,
   ⟨0x90078, 0, 1, 0, 1, 0x4e, 0, 0, 0, 0x7ff7f, 0, 0⟩ /- CHN_SENSs(6) -/,
   ⟨0x9007c, 0, 1, 0, 1, 0x4f, 0, 0, 0, 0x7ff7f, 0, 0⟩ /- CHN_SENSs(7) -/,
   ⟨0x90080, 0, 1, 0, 1, 0x48, 0, 0, 0, 0x7ff7f, 0, 0⟩ /- CHN_SENSs(8) -/,
   ⟨0x90084, 0, 1, 0, 1, 0x49, 0, 0, 0, 0x7ff7f, 0, 0⟩ /- CHN_SENSs(9) -/,
   ⟨0x90088, 0, 1, 0, 1, 0x4a, 0, 0, 0, 0x7ff7f, 0, 0⟩ /- CHN_SENSs(10) -/] ++
  [⟨0x9008c, 0, 1, 0, 1, 0x4b, 0, 0, 0, 0x7ff7f, 0, 0⟩ /- CHN_SENSs(11) -/,
   ⟨0x90090, 0, 1, 0, 1, 0x640003, 0, 0, 0, 0xffff0003, 0, 0⟩ /- CHN_I2C -/,
   ⟨0x900a0, 0x4, 12, 0, 1, 0xff000000, 0xff01ffff, 0, 0, 0, 0, 0⟩ /- CHN_TEMPs -/,
   ⟨0x900d0, 0x8, 4, 0, 1, 0xd6b03e8, 0, 0, 0, 0xffffffff, 0, 0⟩ /- CHN_NTCa_CFG0 -/,
   ⟨0x900d4, 0x8, 4, 0, 1, 0x3e8, 0, 0, 0, 0x1ffff, 0, 0⟩ /- CHN_NTCa_CFG1 -/,
   ⟨0x900f0, 0x4, 4, 0, 1, 0, 0xfff1ffff, 0, 0, 0, 0, 0⟩ /- CHN_NTC_TEMPa -/,
   ⟨0x91000, 0x8, 4096, 0x4, 2, 0, 0xffffffff, 0, 0, 0, 0, 0⟩ /- CHN_FMAPi -/]
/-- R564, R566: the registers of the block at 0xa0000. -/
def brgRows : List RegRow :=
  [⟨0xa0000, 0x20, 4, 0, 1, 0x20008, 0, 0x7, 0x3ffff08, 0, 0, 0⟩ /- BRG_PORTp_CFG -/,
   ⟨0xa0004, 0x20, 4, 0, 1, 0x3040b0, 0, 0, 0xf1ffff, 0, 0, 0⟩ /- BRG_PORTp_TIME -/,
   ⟨0xa0008, 0x20, 4, 0, 1, 0x61a8, 0, 0, 0xffffff, 0, 0, 0⟩ /- BRG_PORTp_PERIOD -/,
   ⟨0xa000c, 0x20, 4, 0, 1, 0, 0, 0, 0xffff, 0, 0, 0⟩ /- BRG_PORTp_OFFSET -/,
   ⟨0xa0010, 0x20, 4, 0, 1, 0, 0x3ffff, 0, 0, 0, 0, 0⟩ /- BRG_PORTp_STATUS -/,
   ⟨0xa0014, 0x20, 4, 0, 1, 0, 0, 0, 0, 0, 0xf, 0⟩ /- BRG_PORTp_EVENT -/,
   ⟨0xa0100, 0, 1, 0, 1, 0x1f407d0, 0, 0, 0, 0xffffffff, 0, 0⟩ /- BRG_SEM -/,
   ⟨0xa0104, 0, 1, 0, 1, 0x64, 0, 0, 0, 0xffff, 0, 0⟩ /- BRG_RDM -/,
   ⟨0xa0108, 0, 1, 0, 1, 0, 0, 0xffff, 0, 0, 0, 0⟩ /- BRG_UID_HI -/,
   ⟨0xa010c, 0, 1, 0, 1, 0, 0, 0xffffffff, 0, 0, 0, 0⟩ /- BRG_UID_LO -/,
   ⟨0xa1000, 0x10, 1024, 0, 1, 0, 0, 0, 0x1fffdff, 0, 0, 0⟩ /- BRG_RULEi_W0 -/,
   ⟨0xa1004, 0x10, 1024, 0, 1, 0, 0, 0, 0xffff3fff, 0, 0, 0⟩ /- BRG_RULEi_W1 -/,
   ⟨0xa1008, 0x10, 1024, 0, 1, 0, 0, 0, 0xffff, 0, 0, 0⟩ /- BRG_RULEi_W2 -/]
/-- R564, R566: the registers of the block at 0xb0000. -/
def gngRows : List RegRow :=
  [⟨0xb0000, 0, 1, 0, 1, 0x380000, 0, 0xf3f07, 0, 0x700000, 0, 0x800000⟩ /- GNG_CTRL -/,
   ⟨0xb0004, 0, 1, 0, 1, 0x70000, 0, 0x7ffff, 0, 0, 0, 0⟩ /- GNG_ID -/,
   ⟨0xb0008, 0, 1, 0, 1, 0, 0, 0xffffffff, 0, 0, 0, 0⟩ /- GNG_GROUP(0) -/,
   ⟨0xb000c, 0, 1, 0, 1, 0, 0, 0xffffffff, 0, 0, 0, 0⟩ /- GNG_GROUP(1) -/,
   ⟨0xb0010, 0, 1, 0, 1, 0xffff, 0, 0xffffffff, 0, 0, 0, 0⟩ /- GNG_GROUP(2) -/,
   ⟨0xb0014, 0, 1, 0, 1, 0xefc0bc01, 0, 0xffffffff, 0, 0, 0, 0⟩ /- GNG_GROUP(3) -/,
   ⟨0xb0018, 0, 1, 0, 1, 0x30a0305, 0, 0, 0, 0xfff0fff, 0, 0⟩ /- GNG_TIMING -/,
   ⟨0xb001c, 0, 1, 0, 1, 0xc8, 0, 0, 0, 0xffff, 0, 0⟩ /- GNG_COMMIT -/,
   ⟨0xb0020, 0, 1, 0, 1, 0, 0x7fff, 0, 0, 0, 0, 0⟩ /- GNG_STATUS -/,
   ⟨0xb0024, 0, 1, 0, 1, 0, 0, 0, 0, 0, 0x7f, 0⟩ /- GNG_EVENT -/,
   ⟨0xb0028, 0x4, 2, 0, 1, 0, 0xffffffff, 0, 0, 0, 0, 0⟩ /- GNG_PRESENT -/,
   ⟨0xb0030, 0x4, 2, 0, 1, 0, 0xffffffff, 0, 0, 0, 0, 0⟩ /- GNG_EVTPEND -/,
   ⟨0xb0038, 0, 1, 0, 1, 0, 0xffffffff, 0, 0, 0, 0, 0⟩ /- GNG_EPOCH -/,
   ⟨0xb0100, 0x10, 64, 0x4, 4, 0, 0xffffffff, 0, 0, 0, 0, 0⟩ /- GNG_MEMBERm -/,
   ⟨0xb0800, 0x10, 16, 0, 1, 0xc00, 0, 0, 0xffff0fff, 0, 0, 0⟩ /- GNG_RSk_W0 -/,
   ⟨0xb0804, 0x10, 16, 0, 1, 0, 0, 0, 0xffffffff, 0, 0, 0⟩ /- GNG_RSk_W1 -/,
   ⟨0xb0808, 0x10, 16, 0, 1, 0, 0, 0, 0xffffffff, 0, 0, 0⟩ /- GNG_RSk_W2 -/,
   ⟨0xb080c, 0x10, 16, 0, 1, 0, 0, 0, 0x3ff, 0, 0, 0⟩ /- GNG_RSk_W3 -/]
/-- R564, R566: the registers of the block at 0xc0000. -/
def redRows : List RegRow :=
  [⟨0xc0000, 0, 1, 0, 1, 0x530, 0, 0x3, 0, 0xfff0, 0, 0xc⟩ /- RED_CTRL -/,
   ⟨0xc0004, 0, 1, 0, 1, 0x60000, 0, 0x7ffff, 0, 0xff000000, 0, 0⟩ /- RED_ID -/,
   ⟨0xc0008, 0, 1, 0, 1, 0, 0, 0xffffffff, 0, 0, 0, 0⟩ /- RED_GROUP(0) -/,
   ⟨0xc000c, 0, 1, 0, 1, 0, 0, 0xffffffff, 0, 0, 0, 0⟩ /- RED_GROUP(1) -/,
   ⟨0xc0010, 0, 1, 0, 1, 0xffff, 0, 0xffffffff, 0, 0, 0, 0⟩ /- RED_GROUP(2) -/,
   ⟨0xc0014, 0, 1, 0, 1, 0xefc0bc02, 0, 0xffffffff, 0, 0, 0, 0⟩ /- RED_GROUP(3) -/,
   ⟨0xc0018, 0x4, 4, 0, 1, 0, 0, 0xffffffff, 0, 0, 0, 0⟩ /- RED_PEER -/,
   ⟨0xc0028, 0, 1, 0, 1, 0, 0x1f, 0, 0, 0, 0, 0⟩ /- RED_STATUS -/,
   ⟨0xc002c, 0, 1, 0, 1, 0, 0xffffffff, 0, 0, 0, 0, 0⟩ /- RED_EPOCH -/,
   ⟨0xc0030, 0, 1, 0, 1, 0, 0xffffffff, 0, 0, 0, 0, 0⟩ /- RED_SNAP -/,
   ⟨0xc0034, 0, 1, 0, 1, 0, 0xffffffff, 0, 0, 0, 0, 0⟩ /- RED_JOURNAL -/,
   ⟨0xc0038, 0, 1, 0, 1, 0, 0xffff, 0, 0, 0, 0, 0⟩ /- RED_LOSS -/,
   ⟨0xc003c, 0, 1, 0, 1, 0, 0xffffffff, 0, 0, 0, 0, 0⟩ /- RED_LOSS_FIRST -/,
   ⟨0xc0040, 0, 1, 0, 1, 0x40003e8, 0, 0, 0, 0xffffffff, 0, 0⟩ /- RED_SNAP_CFG -/,
   ⟨0xc0044, 0, 1, 0, 1, 0, 0, 0, 0, 0, 0xff, 0⟩ /- RED_EVENT -/,
   ⟨0xc0100, 0x8, 16, 0, 1, 0, 0, 0, 0, 0xffffffff, 0, 0⟩ /- RED_SUBSTi_W0 -/,
   ⟨0xc0104, 0x8, 16, 0, 1, 0, 0xffffffff, 0, 0, 0, 0, 0⟩ /- RED_SUBSTi_W1 -/]
/-- R564, R566: the registers of the block at 0xd0000. -/
def errRows : List RegRow :=
  [⟨0xd0000, 0, 1, 0, 1, 0, 0, 0, 0, 0x1, 0, 0x2⟩ /- ERR_CTRL -/,
   ⟨0xd0004, 0, 1, 0, 1, 0x1388020a, 0, 0, 0, 0xffff07ff, 0, 0⟩ /- ERR_LIMITS -/,
   ⟨0xd0008, 0, 1, 0, 1, 0, 0x1ff0f, 0, 0, 0, 0, 0⟩ /- ERR_STATUS -/,
   ⟨0xd000c, 0, 1, 0, 1, 0, 0, 0, 0, 0, 0xf, 0⟩ /- ERR_EVENT -/,
   ⟨0xd0010, 0x4, 6, 0, 1, 0, 0xffffffff, 0, 0, 0, 0, 0⟩ /- ERR_LOG_ENTRY -/,
   ⟨0xd0040, 0x4, 2, 0, 1, 0, 0xffffffff, 0, 0, 0, 0, 0⟩ /- ERR_FENCE_LANE -/,
   ⟨0xd0048, 0, 1, 0, 1, 0, 0xf3fffff, 0, 0, 0, 0, 0⟩ /- ERR_FENCE_BLOCK -/,
   ⟨0xd0080, 0x4, 16, 0, 1, 0, 0xffffffff, 0, 0, 0, 0, 0⟩ /- ERR_FENCE_CTX -/,
   ⟨0xd00c0, 0x4, 2, 0, 1, 0, 0xffffffff, 0, 0, 0, 0, 0⟩ /- ERR_GATE_CORE -/,
   ⟨0xd00c8, 0x4, 2, 0, 1, 0, 0xffffffff, 0, 0, 0, 0, 0⟩ /- ERR_GATE_LANE -/,
   ⟨0xd00d0, 0, 1, 0, 1, 0, 0xffffffff, 0, 0, 0, 0, 0⟩ /- ERR_GATE_BLOCK -/,
   ⟨0xd0100, 0x4, 16, 0, 1, 0, 0xffffffff, 0, 0, 0, 0, 0⟩ /- ERR_GATE_CTX -/]
/-- R564, R566: the registers of the block at 0xe0000. -/
def fwuRows : List RegRow :=
  [⟨0xe0000, 0, 1, 0, 1, 0, 0, 0, 0, 0, 0, 0x3⟩ /- FWU_CTRL -/,
   ⟨0xe0004, 0, 1, 0, 1, 0, 0x3ff, 0, 0, 0, 0, 0⟩ /- FWU_STATUS -/,
   ⟨0xe0008, 0, 1, 0, 1, 0, 0xffffffff, 0, 0, 0, 0, 0⟩ /- FWU_VER_A -/,
   ⟨0xe000c, 0, 1, 0, 1, 0, 0xffffffff, 0, 0, 0, 0, 0⟩ /- FWU_VER_B -/,
   ⟨0xe0010, 0, 1, 0, 1, 0, 0xffffffff, 0, 0, 0, 0, 0⟩ /- FWU_SEC_A -/,
   ⟨0xe0014, 0, 1, 0, 1, 0, 0xffffffff, 0, 0, 0, 0, 0⟩ /- FWU_SEC_B -/,
   ⟨0xe0018, 0, 1, 0, 1, 0, 0xffffffff, 0, 0, 0, 0, 0⟩ /- FWU_FLOOR -/,
   ⟨0xe001c, 0, 1, 0, 1, 0, 0x7fffff, 0, 0, 0, 0, 0⟩ /- FWU_LOAD -/,
   ⟨0xe0020, 0, 1, 0, 1, 0xff, 0x7f00ff, 0, 0, 0, 0, 0⟩ /- FWU_VERIFY -/,
   ⟨0xe0024, 0, 1, 0, 1, 0, 0xffff, 0, 0, 0, 0, 0⟩ /- FWU_ACT_SEC_HI -/,
   ⟨0xe0028, 0, 1, 0, 1, 0, 0xffffffff, 0, 0, 0, 0, 0⟩ /- FWU_ACT_SEC_LO -/,
   ⟨0xe002c, 0, 1, 0, 1, 0, 0xffffffff, 0, 0, 0, 0, 0⟩ /- FWU_ACT_NS -/,
   ⟨0xe0030, 0, 1, 0, 1, 0, 0xffffffff, 0, 0, 0, 0, 0⟩ /- FWU_SETTINGS -/,
   ⟨0xe0034, 0, 1, 0, 1, 0, 0xffffffff, 0, 0, 0, 0, 0⟩ /- FWU_SAVE_GEN -/,
   ⟨0xe0038, 0, 1, 0, 1, 0, 0, 0, 0, 0, 0x1ff, 0⟩ /- FWU_EVENT -/]
/-- R564, R566: the registers of the block at 0xf0000. -/
def calRows : List RegRow :=
  [⟨0xf0000, 0, 1, 0, 1, 0x3c053e, 0, 0, 0, 0xffffff3e, 0, 0⟩ /- CAL_CTRL -/,
   ⟨0xf0004, 0, 1, 0, 1, 0, 0xf1f1f, 0, 0, 0, 0, 0⟩ /- CAL_STATUS -/,
   ⟨0xf0008, 0, 1, 0, 1, 0, 0xffffffff, 0, 0, 0, 0, 0⟩ /- CAL_TEMP -/,
   ⟨0xf000c, 0, 1, 0, 1, 0, 0, 0, 0, 0, 0x7f, 0⟩ /- CAL_EVENT -/,
   ⟨0xf0010, 0, 1, 0, 1, 0, 0x31f1f, 0, 0, 0, 0, 0⟩ /- CAL_RESULT -/,
   ⟨0xf0014, 0, 1, 0, 1, 0x80000000, 0xffffffff, 0, 0, 0, 0, 0⟩ /- CAL_ADC -/,
   ⟨0xf0018, 0, 1, 0, 1, 0, 0xffffffff, 0, 0, 0, 0, 0⟩ /- CAL_PHASE_OFS0 -/,
   ⟨0xf001c, 0, 1, 0, 1, 0, 0xffffffff, 0, 0, 0, 0, 0⟩ /- CAL_PHASE_OFS1 -/,
   ⟨0xf0100, 0x20, 8, 0x4, 8, 0, 0xffffffff, 0, 0, 0, 0, 0⟩ /- CAL_SETk -/,
   ⟨0xf0200, 0x4, 16, 0, 1, 0x20202020, 0x3f3f3f3f, 0, 0, 0, 0, 0⟩ /- CAL_TAPw -/,
   ⟨0xf0400, 0x40, 8, 0x4, 16, 0, 0xffffffff, 0, 0, 0, 0, 0⟩ /- CAL_SET_TAPk -/]

/-- The blocks of R564: base, bytes of the decoded range, and their registers. `PRT1_` and `SCN_B_` repeat the layouts
of `PRT0_` and `SCN_A_`. -/
def blockTable : List (Nat × Nat × List RegRow) :=
  [(0x0, 0x200, idRows), (0x10000, 0x200, clkRows), (0x20000, 0x200, timRows), (0x30000, 0x200, prt0Rows),
   (0x38000, 0x200, prt0Rows), (0x40000, 0x10000, stcRows), (0x50000, 0x200, fstRows), (0x60000, 0x100, schRows),
   (0x70000, 0x4000, colRows), (0x80000, 0x6000, scnARows), (0x88000, 0x6000, scnARows), (0x90000, 0x9000, chnRows),
   (0xA0000, 0x5000, brgRows), (0xB0000, 0x900, gngRows), (0xC0000, 0x200, redRows), (0xD0000, 0x200, errRows),
   (0xE0000, 0x100, fwuRows), (0xF0000, 0x600, calRows)]

/-- Whether a stride and count reach the offset `o`. -/
def strideHits (stride count o : Nat) : Bool :=
  if stride = 0 then o == 0 else o % stride == 0 && decide (o / stride < count)

/-- Whether the register array `r` has a register at address `a`. -/
def RegRow.has (r : RegRow) (a : Nat) : Bool :=
  decide (r.base ≤ a) &&
    (if r.stride1 = 0 then strideHits r.stride2 r.count2 (a - r.base)
     else decide ((a - r.base) / r.stride1 < r.count1) &&
       strideHits r.stride2 r.count2 ((a - r.base) % r.stride1))

/-- R301: the registers at offsets 0x000 to 0x02C of `SCN_B_` are those of `SCN_A_`. -/
def regHome (a : Nat) : Nat := if 0x88000 ≤ a ∧ a < 0x88030 then a - 0x8000 else a

/-- The block that decodes the address `a`, if any (R564). -/
def blockOf (a : Nat) : Option (Nat × Nat × List RegRow) :=
  blockTable.find? (fun b => decide (b.1 ≤ a) && decide (a < b.1 + b.2.1))

/-- The register at address `a`, if the index names one (R566). -/
def regInfo (a : Nat) : Option RegRow :=
  match blockOf a with
  | some b => b.2.2.find? (fun r => r.has a)
  | none => none

/-- R564, R565: whether `a` lies inside a decoded range of the configuration space or of the `STA_` space. -/
def inDecoded (a : Nat) : Bool :=
  (blockOf a).isSome || (decide (0x100000 ≤ a) && decide (a < 0x118000))

/-- The reference map of R287 and R307: word 0 of `SCN_x_LANEi`. -/
def laneResetWord (half i : Nat) : Nat :=
  256 * half + 128 * (i % 2) + (32 * (i / 2)) * 2 ^ 16 + 2 ^ 31

/-- Entry `j` of the reference pattern (R287, R307). -/
def patEntry (j : Nat) : Nat := if j < 384 then j / 3 + (j % 3) * 2 ^ 12 else 0

/-- The reset word of `SCN_x_PATw`. -/
def patResetWord (w : Nat) : Nat := patEntry (2 * w) + patEntry (2 * w + 1) * 2 ^ 16

/-- The offset of an address within its `SCN_` block, and the half. -/
def scnOffset (a : Nat) : Nat × Nat := ((a - 0x80000) / 0x8000, (a - 0x80000) % 0x8000)

/-- The reset word of the register at `a` (R8, the Reset columns). -/
def regReset (a : Nat) : Word :=
  match regInfo a with
  | some r =>
    if 0x80100 ≤ a ∧ a < 0x90000 then
      let (h, o) := scnOffset a
      if 0x4000 ≤ o then wordOf (patResetWord ((o - 0x4000) / 4))
      else if 0x100 ≤ o ∧ o < 0x200 ∧ o % 8 = 0 then wordOf (laneResetWord h ((o - 0x100) / 8))
      else wordOf r.reset
    else wordOf r.reset
  | none => 0#32

end Sys2Proof.Machine
end

