-- ==== Sys2Proof/Machine/Maps.lean ====
section
/-!
DEFINITION. Sparse maps from a key to a value, in one canonical form: keys strictly rising, and no entry equal to what
an unlisted key reads as. Registers, statistics counters and the SRAM window are held this way.
-/

namespace Sys2Proof.Machine

/-- A sparse map: (key, value) pairs. -/
abbrev SMap (α : Type) := List (Nat × α)

/-- The value at key `k`; `d k` where the map lists none. -/
def smGet {α : Type} (d : Nat → α) : SMap α → Nat → α
  | [], k => d k
  | (a, v) :: m, k => if a = k then v else smGet d m k

/-- The map without key `k`. -/
def smErase {α : Type} : SMap α → Nat → SMap α
  | [], _ => []
  | (a, v) :: m, k => if a = k then smErase m k else (a, v) :: smErase m k

/-- The map with `v` listed at `k`, the keys kept rising. -/
def smInsert {α : Type} : SMap α → Nat → α → SMap α
  | [], k, v => [(k, v)]
  | (a, w) :: m, k, v =>
    if k < a then (k, v) :: (a, w) :: m
    else if a = k then (k, v) :: m
    else (a, w) :: smInsert m k v

/-- The map with `v` at `k`, in canonical form: writing what an unlisted key reads as removes the entry. -/
def smSet {α : Type} [DecidableEq α] (d : Nat → α) (m : SMap α) (k : Nat) (v : α) : SMap α :=
  if v = d k then smErase m k else smInsert m k v

/-- The map without the keys that `p` does not select. -/
def smKeep {α : Type} (p : Nat → Bool) (m : SMap α) : SMap α := m.filter (fun x => p x.1)

/-- Whether every key of `m` is above `lo`, the keys rise strictly and no entry equals its default. -/
def smWfAbove {α : Type} [DecidableEq α] (d : Nat → α) : SMap α → Nat → Bool
  | [], _ => true
  | (a, v) :: m, lo => decide (lo ≤ a) && decide (v ≠ d a) && smWfAbove d m (a + 1)

/-- The canonical form of a sparse map over the defaults `d`. -/
def smWf {α : Type} [DecidableEq α] (d : Nat → α) (m : SMap α) : Bool := smWfAbove d m 0

/-- Writing a list of values at consecutive keys of stride `st` from `k`. -/
def smSetList {α : Type} [DecidableEq α] (d : Nat → α) (st : Nat) : SMap α → Nat → List α → SMap α
  | m, _, [] => m
  | m, k, v :: vs => smSetList d st (smSet d m k v) (k + st) vs

end Sys2Proof.Machine
end

