-- ==== Sys2Proof/Machine/State.lean ====
section
/-!
DEFINITION. The state of the AM8170: the volatile chip, what survives a reset in flash and fuses, the SRAM window, the
boundary-scan TAP, and the queue of commands that wait. Everything is plain data.
-/

namespace Sys2Proof.Machine

open Sys2Proof

/-- The nine device states (R32, R363). -/
inductive DevState
  | off | reset | boot | stopped | running | updating | dormant | fenced | recovery
  deriving DecidableEq, Repr

/-- The status codes of replies (R341). -/
inductive Status
  | ok | pending | busy | badOpcode | badLength | badAddress | fieldClass | txnConflict | txnUnknown
  | authFail | staleEpoch | lifecycleDenied | poison | farFailed | semTimeout
  deriving DecidableEq, Repr

/-- What the last register access, host access or command row answered: the model's own latch of it. -/
structure Answer where
  status : Status
  words : List Nat
  deriving DecidableEq, Repr

/-- The always-on record of resets and wakes (R509, R519) with the watchdog history of R472: the instants in
milliseconds on the delay line of the last watchdog resets, newest first; and whether a fallback has to be latched at the next Boot (R472, R478). -/
structure Aon where
  resetCause : Nat
  fromDormant : Bool
  wakeSrc : Nat
  wakePattern : Nat
  resetCount : Nat
  pgLow : Nat
  mainRetry : Nat
  wdTimes : List Nat
  wakeEn : Nat
  wakeMask : List Nat
  wakeCrc : List Nat
  fallback : Bool
  deriving DecidableEq, Repr

/-- Supplies and reset pin: group A good, PWREN_MAIN driven, VDD_CORE and VDD_SRAM good (R503), the wake detector armed
(R516), the chain banks disabled at reset release (R313), and whether OE, row and chain balls are
driven yet (R508); the image runs, the ports are up, the settings are applied (R515), and
Recovery answers only `PING` and `IDENTIFY` (R484, R514). -/
structure Power where
  groupAGood : Bool
  pwrenMain : Bool
  groupBGood : Bool
  wakeArmed : Bool
  outputsDriven : Bool
  bankOff : Nat
  imageRunning : Bool
  portsUp : Bool
  settingsIn : Bool
  locked : Bool
  deriving DecidableEq, Repr

/-- The three references of the timebase PLL (R37). -/
inductive ClkSrc
  | xtal | p0 | p1
  deriving DecidableEq, Repr

/-- The two phases of a control-oscillator trim (R66). -/
inductive TrimPhase
  | coarse | fine (bit : Nat)
  deriving DecidableEq, Repr

/-- A trim in progress (R66): its phase, the gates used, and the code with the smallest error so far. -/
structure Trim where
  phase : TrimPhase
  gates : Nat
  bestErr : Nat
  keptErr : Option Nat
  bestCoarse : Nat
  bestFine : Nat
  deriving DecidableEq, Repr

/-- Clock state behind the `CLK_` fields: crystal lost (R49), the one automatic restart used (R50), the last source held
(R58), a forced source lost while its mode was in force (R54), a mode write whose preferred source has not been taken
yet (R54), the restart window of the crystal deferred by a trip (R60), the trim in progress, the tick of the last
trim measurement (the `AGE` field), and whether the last trim ended within ±0.5 %. -/
structure Clk where
  xtalLost : Bool
  autoRestartUsed : Bool
  restartWindow : Bool
  lastSrc : Option ClkSrc
  forcedLost : Bool
  modeFresh : Bool
  trim : Option Trim
  measuredAt : Option Nat
  trimOk : Bool
  deriving DecidableEq, Repr

/-- An event record (R366). -/
structure EventRec where
  type : Nat
  prio : Nat
  cause : Nat
  id : Nat
  unit : Nat
  argA : Nat
  argB : Nat
  frame : Nat
  value : Nat
  deriving DecidableEq, Repr

/-- A time record (R70, R116): seconds, nanoseconds and 2^-16 ns, and whether time was invalid. -/
structure TimeRec where
  sec : Nat
  ns : Nat
  frac : Nat
  invalid : Bool
  deriving DecidableEq, Repr

/-- The outcome field of a log entry (R458). -/
inductive ErrOutcome
  | none | poisoned | restarted | acquiring | fenced | blanked | reset | failed
  deriving DecidableEq, Repr

/-- An entry of the error log (R458), with the tick of C at which it was written. -/
structure LogEntry where
  level : Nat
  severity : Nat
  secondary : Bool
  escalated : Bool
  waited : Bool
  outcome : ErrOutcome
  retained : Bool
  unit : Nat
  code : Nat
  seq : Nat
  time : TimeRec
  detail : Nat
  tick : Nat
  deriving DecidableEq, Repr

/-- An error being handled or waiting (R445 to R447): its code, unit, the level it was detected at, the level that
handles it, its severity and the number of its log entry. -/
structure ErrJob where
  code : Nat
  unit : Nat
  level : Nat
  atLevel : Nat
  severity : Nat
  logSeq : Nat
  detail : Nat
  deriving DecidableEq, Repr

/-- The error unit: the log (oldest first), the next `LOG_SEQ`, the handler slot of each level, the pending list of each
level in its order, the ticks at which blocks last stalled (R440, `BLOCK_STALL`), the boundary FIFOs fenced alone (R439), and
the quiesced units that resume at the next frame boundary (R456). -/
structure Errs where
  log : List LogEntry
  nextSeq : Nat
  slots : List (Option ErrJob)
  waiting : List (List ErrJob)
  stalls : List (Nat × Nat)
  fifos : List Nat
  resuming : List Nat
  deriving DecidableEq, Repr

/-- A reply packet (R338, R348): where it goes and its contents. `bare` marks a bare reply (R342); `mac` is the trailer of
16 bytes. -/
structure Reply where
  dst : Source
  port : Nat
  opcode : Nat
  status : Status
  notice : Bool
  bare : Bool
  key : Nat
  gang : Nat
  tag : Nat
  txn : Nat
  epoch : Nat
  seq : Nat
  node : Nat
  arg : Nat
  payload : List Byte
  mac : List Byte
  deriving DecidableEq, Repr

/-- A held reply of a requester (R348); `reply` is `none` until it has been formed, and `again` tells that a repeat is
waiting for it. -/
structure Held where
  opcode : Nat
  tag : Nat
  seq : Nat
  reply : Option Reply
  again : Bool
  deriving DecidableEq, Repr

/-- A requester's entry (R345, R346): `high` is H, bit k of `bitmap` tells whether H - k has been accepted. -/
structure Requester where
  key : Nat
  src : Source
  high : Nat
  bitmap : Nat
  held : List Held
  deriving DecidableEq, Repr

/-- The states of a transaction (R362, `TXN_STATUS`). -/
inductive TxnState
  | isOpen | scheduled | applied | rolledBack | timedOut | refused
  deriving DecidableEq, Repr

/-- A word staged or written by a commit: its address, the mask of the bits written and their values. -/
structure StagedWord where
  addr : Nat
  mask : Nat
  value : Nat
  deriving DecidableEq, Repr

/-- A transaction (R355): its ID, the key that opened it, its state, its staged words in ascending address order, the
time G it is scheduled for, the `EFFECT_FRAME` of its commit, and the tick at which a command last named it (R361). -/
structure Txn where
  id : Nat
  key : Nat
  state : TxnState
  words : List StagedWord
  due : Option FullTime
  effect : Nat
  since : Nat
  deriving DecidableEq, Repr

/-- A commit whose fields have not all taken effect (R354): the frame number of its effect boundary, its class F words,
its class L words still waiting for the freeze point before that boundary, whether it carries a timing set, and the
event placed at the boundary (R359): key, transaction ID and cause. -/
structure Pend where
  boundary : Int
  fWords : List StagedWord
  lWords : List StagedWord
  tset : Bool
  event : Option (Nat × Nat × Nat)
  deriving DecidableEq, Repr

/-- The servo states (R98, `SERVO_STATE`). -/
inductive Servo
  | freerun | acquire | locked | holdover | fsync
  deriving DecidableEq, Repr

/-- An entry of the foreign master table (R83). -/
structure Foreign where
  port : PortIx
  ann : PtpAnnounce
  deriving DecidableEq, Repr

/-- An entry of the timestamp export queue (R91, R116): the time, messageType, port, direction and sequenceId. -/
structure TsqEntry where
  time : TimeRec
  msgType : Nat
  port : Nat
  transmit : Bool
  seq : Nat
  deriving DecidableEq, Repr

/-- A trigger output (R112 to R114), with times in 2^-16 ns: the armed compare target; the target that it was armed with, from
which `PERIODIC` counts; the latest target that has fired, which never fires again; whether TRIGn is asserted; and the
tick at which the last pulse that has started ends. -/
structure Trig where
  target : Option Int
  start : Int
  fired : Option Int
  asserted : Bool
  till : Nat
  deriving DecidableEq, Repr

/-- A trigger that has not been armed. -/
def Trig.idle : Trig := { target := none, start := 0, fired := none, asserted := false, till := 0 }

/-- An edge on a capture input that may yet be one of a pulse shorter than 5 ns (R111): its instant in 0.05 ns of C, its
direction, its time record, and whether `CAPn_EDGE` enables it. -/
structure CapHold where
  at05 : Nat
  rising : Bool
  time : TimeRec
  enabled : Bool
  deriving DecidableEq, Repr

/-- The time unit (R73 to R114). Times are in 2^-16 ns, the rate correction in steps of 2^-48 (R74). `rInt` is the
integral part of r, `rate` the r in force with the slew of R97, until the C `slewTill` at which the slew has been spread.
`upstreamLostAt` is the C at which the upstream reference was last lost (R103). `accepted` holds the errors accepted since
the last step (at most 8, newest first), `rates` the integral parts of the last accepted updates (at most 64). `lastFrame` is the n of
the last frame boundary taken on the grid in force, `freezeDone` whether the freeze point after it has passed.
`fsBase` is the n of the boundary of the last FSYNC_IN pulse accepted (R107). `lastCap` holds the instants of the last captures in 0.05 ns of
C, `capHeld` the edges that a short pulse may yet undo (R111). `partnerBit` is R84's answer of the peer delay partner of each port. -/
structure Time where
  c : BitVec 64
  base : Int
  cb : Nat
  rInt : Int
  rate : Int
  slewTill : Nat
  servo : Servo
  accepted : List Int
  rates : List Int
  lockCount : Nat
  bigCount : Nat
  slave : Option (PortIx × Nat)
  foreign : List Foreign
  holdStart : Option Nat
  holdInvalid : Bool
  upstreamLostAt : Option Nat
  fsMissed : Nat
  fsBase : Option Int
  meanPath : Int
  lastSync : Option (Int × Int)
  delayReq : Option (Int × Nat)
  txSeq : Nat
  dreqWindow : List (Nat × Nat)
  partnerBit : List Bool
  phaseBroken : Bool
  tsq : List TsqEntry
  caps : List (List TimeRec)
  lastCap : List (Option Nat)
  capHeld : List (Option CapHold)
  trigs : List Trig
  lastFrame : Option Int
  freezeDone : Bool
  deriving DecidableEq, Repr

/-- Where a PTP frame goes (R81): an IP group and a UDP port, or the Ethernet group of L2 with Ethertype 0x88F7. -/
inductive PtpTo
  | udp (group port : Nat)
  | l2 (mac : Nat)
  deriving DecidableEq, Repr

/-- What a locally originated frame carries. `other` is a frame of a protocol that the commands do not follow in detail. -/
inductive TxBody
  | reply (r : Reply)
  | notice (seq key : Nat) (dst : Nat) (ev : EventRec)
  | ptpSync (dest : PtpTo) (seq : Nat) (origin : Int) (phaseBit : Bool)
  | ptpAnnounce (dest : PtpTo) (seq : Nat) (gmId : Nat) (stepsRemoved : Nat)
  | ptpDelayReq (dest : PtpTo) (seq : Nat) (peer : Bool)
  | ptpDelayResp (dest : PtpTo) (seq : Nat) (requester : Nat) (receipt : Int)
  | arpReply (ip : Nat) (dst : Nat)
  | mcReport (group : Nat) (source : Nat) (joining : Bool)
  | luevevan (group : Nat) (payload : List Byte)
  | gang (kind : Nat) (payload : List Byte)
  | pair (kind : Nat) (payload : List Byte)
  | other
  deriving DecidableEq, Repr

/-- A frame that a unit hands to a port: what it carries and its length in bytes, with the FCS and a tag. -/
structure TxMsg where
  body : TxBody
  len : Nat
  deriving DecidableEq, Repr

/-- A locally originated frame in a transmit queue (R131, R135, R141): what it carries, its padded length in bytes, and its VLAN
tag. -/
structure TxFrame where
  body : TxBody
  len : Nat
  tag : Option VlanTag
  deriving DecidableEq, Repr

/-- A frame in a forwarding buffer, or on its way through the egress (R128, R129): its length, whether it ends with its FCS
inverted, its PTP event message if it is one (R85), with the correctionField that it has at present, and the tick of its
arrival. -/
structure FwdFrame where
  len : Nat
  stomped : Bool
  ptp : Option PtpHead
  arrived : Nat
  deriving DecidableEq, Repr

/-- What a port transmits at present (R130): nothing, a frame forwarded from the other port, or a local frame. -/
inductive Sending
  | idle
  | forwarded (f : FwdFrame)
  | localFrame (f : TxFrame)
  deriving DecidableEq, Repr

/-- A frame in a receive ring (R192): the buffers it holds in each of the four regions; whether it may carry a packet of the
control plane; and whether a Selul command that waits keeps it (R194, R344). -/
structure HeldFrame where
  regs : List Nat
  control : Bool
  kept : Bool
  deriving DecidableEq, Repr

/-- One network port (R117 to R143): whether it has been started, the mode it runs (the code of `SPEED`), the highest mode that
the module last seated supports (R119, 0 before any); the frames that hold ring buffers (oldest first) and the region that
the next buffer comes from (R192); the forwarding buffer whose ingress is this port; the transmit queue, what it transmits and since which tick, the frames forwarded in a
row while local frames waited (R130); the multicast filter table (group and source, R142), the reports still to be repeated
(group, source, joining, times left, R143), and the ticks of the last bare replies (R342). -/
structure Port where
  up : Bool
  mode : Nat
  moduleBest : Nat
  held : List HeldFrame
  nextRegion : Nat
  fwd : List FwdFrame
  txq : List TxFrame
  sending : Sending
  since : Nat
  burst : Nat
  table : List (Nat × Nat)
  reports : List (Nat × Nat × Bool × Nat)
  bareTimes : List Nat
  deriving DecidableEq, Repr

/-- The merge window of a context (R171): the highest sequence number accepted (q for sACN, R173), whether H - k has been
accepted at bit k, and the too-old packets in a row (R172). -/
structure Merge where
  high : Nat
  bitmap : Nat
  tooOld : Nat
  deriving DecidableEq, Repr

/-- A stream context (R165 to R175, R187): its merge window, `none` until the first packet of R172; the sACN sources heard
(identifier, priority), oldest first, and the one followed; the latest slot values; the synchronization universe of its
data, 0 for none, the slot values held for it (R167), and whether 2.5 s have passed without its packet; and the arrivals
of the last packets of frames (origin boundary, port, local time) for R175. -/
structure Ctx where
  merge : Option Merge
  sources : List (Nat × Nat)
  followed : Option Nat
  latest : List Nat
  waiting : Option (List Nat)
  syncUniv : Nat
  syncFree : Bool
  lastPk : List (Int × Nat × Int)
  deriving DecidableEq, Repr

/-- A context that nothing has reached. -/
def Ctx.start : Ctx :=
  { merge := none, sources := [], followed := none, latest := [], waiting := none, syncUniv := 0,
    syncFree := false, lastPk := [] }

/-- The settings of a context that apply to a frame (R186). -/
structure CtxCfg where
  id : Nat
  type : Nat
  sampling : Nat
  slot16 : Bool
  transfer : Nat
  colorimetry : Nat
  fullRange : Bool
  channels : Nat
  win : Nat × Nat × Nat × Nat
  dst : Nat × Nat × Nat × Nat
  scaled : Bool
  lossHold : Bool
  deriving DecidableEq, Repr

/-- What a feed shows in a frame (R209 to R213, `SHOWING`): nothing, the new frame or the mark in a ring slot with the
number of its origin boundary, the fallback, or the source that `SHOW_SRC` names. -/
inductive Show
  | off
  | live (slot : Nat) (o : Int)
  | rewind (slot : Nat) (o : Int)
  | fbBlack
  | fbStill (v : Nat)
  | black
  | still (v : Nat)
  deriving DecidableEq, Repr

/-- A ring slot in use (R202, R203): the number o of its origin boundary, the settings of its contexts, its pixels (pixel
number × 4 + channel), the scale area (context, window pixel × 4 + channel), the destination pixels and the window pixels
delivered, the strips signalled complete, the contexts whose part a BLANK packet delivered, and whether an item failed
(R240). -/
structure FrameRec where
  slot : Nat
  o : Int
  ctxs : List CtxCfg
  px : SMap Nat
  scale : List (Nat × SMap Nat)
  got : List Nat
  winGot : List (Nat × Nat)
  windows : List Nat
  strips : List Nat
  blanked : List Nat
  failed : Bool
  deriving DecidableEq, Repr

/-- A feed (R202 to R214): whether its ring runs, the next ring slot to be assigned, the slots in use, the rewind mark
(slot and origin boundary), what its ring shows and what the feed shows in the present frame, what has been decided of
both for the next, and the stills loaded since they were corrected (R222). -/
structure Feed where
  running : Bool
  next : Nat
  frames : List FrameRec
  mark : Option (Nat × Int)
  ring : Show
  cur : Show
  decided : Option (Show × Show)
  stillNew : List Nat
  deriving DecidableEq, Repr

def Feed.start : Feed :=
  { running := false, next := 0, frames := [], mark := none, ring := .off, cur := .off, decided := none, stillNew := [] }

/-- An effect of a step on the SRAM window (R569): bytes stored, or a range that becomes zero. -/
inductive SramOp
  | store (addr : Nat) (bytes : List Byte)
  | zero (lo hi : Nat)
  | resetCal
  deriving DecidableEq, Repr

/-- Where a work item stands (R226 to R237). -/
inductive ItemState
  | waiting | ready | running (core : Nat)
  deriving DecidableEq, Repr

/-- A work item (R221 to R230): its slot, type, feed, the frame number presented, sub-frame and strip (the half for
DETECT, the context for MAP), its staging buffer and region of pixels, its dependence counter and the slots it waits on,
its ready level, its deadline in 2^-16 ns, the cluster whose strip area it holds, the reason of a cancel that reached it
while it runs, whether it has been granted again (R240), and the tick of its grant. -/
structure Item where
  slot : Nat
  type : WorkType
  feed : Nat
  frame : Int
  sub : Nat
  strip : Nat
  buffer : Nat
  counter : Nat
  waits : List Nat
  state : ItemState
  prio : Nat
  deadline : Int
  cluster : Option Nat
  cancel : Option Nat
  again : Bool
  grantC : Nat
  scale : Nat
  dith : Nat × Nat
  gset : Nat
  deriving DecidableEq, Repr

/-- The scheduler (R219 to R249): the items, the idle queue of cores, the trace (oldest first, four words each) with the
tick of its last entry, the entries left before a freeze (R248) and the entries made in that tick (R249), the core time used
in the frame (`BUSY_LAST`), and whether a commit has ended the cause of shed operation (R243). -/
structure Sched where
  items : List Item
  idle : List Nat
  trace : List (List Nat)
  traceC : Option Nat
  traceLeft : Option Nat
  traceNew : Nat
  busy : Nat
  busyFrom : Nat
  shedEnd : Bool
  lastCore : Nat
  deriving DecidableEq, Repr

/-- The colour unit (R262 to R268): the last valid reading of each zone source, sensors 0 to 7 and NTCs 0 to 3, `none`
before the first and once 10 s have passed; the gain sets still in use, newest first, each with its number and its gains
at (zone × 128 + bin) × 4 + channel; the number of the next set; whether the bin table or the temperature points have
changed since the last set; and whether the last set was computed with `BIN_EN` at 1. -/
structure Colour where
  srcs : List (Option Int)
  sets : List (Nat × SMap Nat)
  nextSet : Nat
  tableNew : Bool
  binOn : Bool
  deriving DecidableEq, Repr

def Colour.start : Colour :=
  { srcs := List.replicate 12 none, sets := [], nextSet := 0, tableNew := false, binOn := false }

/-- What the outputs show (R303, `ENGINE`): blank; blank until a lock frame can start; blank in a lock frame or for a
timing set, until the boundary `showAt`; display. -/
inductive Display
  | blank | waitLock
  | blankUntil (showAt : Int)
  | showing
  deriving DecidableEq, Repr

/-- A staging buffer (R296 to R298): the frame and sub-frame it holds with the facet, the strips marked valid, the codes
of its pixels (pixel number × 4 + channel), and the detection row that each half's DETECT item wrote (R317). -/
structure Staging where
  holds : Option (Int × Nat × Nat)
  marks : List Nat
  codes : SMap Nat
  det : List (Option Nat)
  deriving DecidableEq, Repr

/-- What a quad shifts into its four chains (R292, R317, R319, R325): plane `b` of row `r` of sub-frame `k` of frame `n`, which
facet `f` owns; the detection plane of that row; zeros; the chain check marker with zeros after it; a configuration word for
every driver. -/
inductive ShiftWhat
  | plane (n : Int) (k f r b : Nat)
  | detect (n : Int) (k r : Nat)
  | zeros | marker
  | config (word : Nat)
  deriving DecidableEq, Repr

/-- The commands on a LAT line (R311). -/
inductive LatCmd
  | load | transfer | test | copyOpen | copyShort
  | config (w : Nat)
  deriving DecidableEq, Repr

/-- An edge that an engine has planned (R291 to R293, R311, R319). Of a half: the row turns off and the address becomes
`next`; the row turns on; the discharge and pre-charge lines. Of a quad: its OE line; the rise and the end of a LAT pulse; what
the drivers do for a command; a shift of `len` bits that take `bit` each, and its end. -/
inductive LineOp
  | rowOff (next : Nat) | rowOn
  | dis (on : Bool) | pchg (on : Bool)
  | oe (on : Bool)
  | latOn (cmd : LatCmd) | latOff
  | act (cmd : LatCmd)
  | shift (what : ShiftWhat) (bit len : Nat) | shiftEnd
  deriving DecidableEq, Repr

/-- A planned edge: its instant in units of 0.025 ns, and its half or quad. -/
structure PlannedOp where
  due : Int
  unit : Nat
  op : LineOp
  deriving DecidableEq, Repr

/-- The lines of a half (R286, R293): whether a row is on, its address, and the discharge and pre-charge lines. -/
structure HalfLines where
  rowOn : Bool
  row : Nat
  dis : Bool
  pchg : Bool
  deriving DecidableEq, Repr

/-- A shift under way (R310, R315): its start in units of 0.025 ns, the time of a bit, the number of bits, and what each lane
of the quad shifts, the highest bit first. -/
structure ShiftRun where
  start : Int
  bit : Nat
  len : Nat
  data : List Nat
  deriving DecidableEq, Repr

/-- The lines of a quad (R295, R310): its OE line, the command on its LAT line, and its shift under way. -/
structure QuadLines where
  oe : Bool
  lat : Option LatCmd
  shift : Option ShiftRun
  deriving DecidableEq, Repr

/-- The registers of a lane's drivers, bit j for position j (R282, R292, R325): shift register, buffer latch, output latch,
and the four configuration registers, none where nothing has been written. -/
structure LaneRegs where
  shift : Nat
  buffer : Nat
  output : Nat
  config : List (Option Nat)
  deriving DecidableEq, Repr

/-- The lines to the drivers (R286, R291 to R295, R310, R311): the planned edges in the order of their instants, the lines of
the two halves and of the sixteen quads, and the registers of the sixty-four chains. -/
structure Lines where
  plan : List PlannedOp
  halves : List HalfLines
  quads : List QuadLines
  lanes : List LaneRegs
  deriving DecidableEq, Repr

def HalfLines.idle : HalfLines := { rowOn := false, row := 0, dis := false, pchg := false }
def QuadLines.idle : QuadLines := { oe := false, lat := none, shift := none }
def LaneRegs.start : LaneRegs := { shift := 0, buffer := 0, output := 0, config := List.replicate 4 none }

def Lines.start : Lines :=
  { plan := [], halves := List.replicate 2 .idle, quads := List.replicate 16 .idle, lanes := List.replicate 64 .start }

/-- Every output inactive, nothing planned and nothing shifted (R304). -/
def Lines.quiet (l : Lines) : Lines :=
  { l with plan := [], halves := List.replicate 2 .idle, quads := List.replicate 16 .idle }

/-- The scan engines (R288 to R306): what they do; the sub-frame in progress; the two staging buffers and whether the
engines have freed each; the strips starved in the sub-frames not yet over (frame, sub-frame, strip); the row on in each
lit row slot with the codes shifted to each lane; the dithered strips in the cluster buffers (item slot of the TRANSPOSE,
codes); the halves of the detection slot whose readback window has not come (frame, sub-frame, half, and the row once the
drivers have captured its flags); and the lines to
the drivers. -/
structure Scan where
  display : Display
  sub : Option (Int × Nat)
  stg : List Staging
  freed : List Bool
  starved : List (Int × Nat × Nat)
  rowOn : Option Nat
  lanes : List (Nat × List Nat)
  dithered : List (Nat × SMap Nat)
  tests : List (Int × Nat × Nat × Option Nat)
  lines : Lines
  deriving DecidableEq, Repr

def Staging.start : Staging := { holds := none, marks := [], codes := [], det := [none, none] }

def Scan.start : Scan :=
  { display := .blank, sub := none, stg := [Staging.start, Staging.start], freed := [true, true], starved := [],
    rowOn := none, lanes := [], dithered := [], tests := [], lines := Lines.start }

/-- An entry of the fault list (R323, R324). -/
structure FaultEntry where
  lane : Nat
  row : Nat
  pos : Nat
  short : Bool
  confirmed : Bool
  count : Nat
  x : Nat
  y : Nat
  ch : Nat
  deriving DecidableEq, Repr

/-- Sensors of the chains (R327 to R330): the tick of the last valid reading of each sensor slot, and the sensor slots that
the poll under way has still to read. -/
structure Chains where
  faults : List (Nat × FaultEntry)
  sensedAt : List (Option Nat)
  polling : List Nat
  deriving DecidableEq, Repr

def Chains.start : Chains := { faults := [], sensedAt := List.replicate 12 none, polling := [] }

/-- What begins when a reply has left the ball, or at its own boundary (R365, `COMMAND_ACTION_START`). -/
inductive Action
  | reset | dormant | activate | revert | lifecycle
  deriving DecidableEq, Repr

/-- The Selul unit (R334 to R368): the network requesters, most recently used first, and the host's (R346), the floor of
each key, the command queue, oldest first, each command with the key it was checked under (R343, R344), the packets in the host input buffer and the host reply queue (R336),
the ticks of the host port's last bare replies (R342), the open and scheduled transactions and the 16 most recently closed
(R355), the delayed replies (R347), and the action that a reply still holds back (R365). -/
structure Selul where
  requesters : List Requester
  hostReq : Option Requester
  floors : List (Option Nat)
  cmdq : List (Cmd × Option (List Byte))
  hostIn : Nat
  hostOut : List Reply
  hqOverrun : Bool
  bareHost : List Nat
  txns : List Txn
  closed : List Txn
  nextTxn : Nat
  delayed : List Reply
  action : Option Action
  deriving DecidableEq, Repr

/-- An RDM or semaphore request that a port has taken (R403, R404): its command, with the key that it was checked
under. -/
structure RdmReq where
  cmd : Cmd
  key : Option (List Byte)
  deriving DecidableEq, Repr

/-- Where the RDM request that runs on a port stands (R402, R405): waiting for its turn after a DMX packet, awaiting the
response, in the responder's ACK_TIMER wait, or ended with a status, the reason and detail of R392, and the payload of
its result. -/
inductive RdmPhase
  | queued | sent | timerWait
  | done (st : Status) (reason detail : Nat) (payload : List Byte)
  deriving DecidableEq, Repr

/-- A DMX port of the bridge (R396 to R405): the output buffer as the slots that rules have written, the last send instant,
whether RDM delayed the packet of that instant, the slots of the packet last started, the requester that holds the semaphore under a lease, the requests that wait for
the semaphore, those that may run, in order, with the phase of the first, the parts of an ACK_OVERFLOW response received,
the tick of the first request's start, the slots that fall to `IDLE_LEVEL` at the next send instant (R401), and the UIDs
found. -/
structure DmxPort where
  out : SMap (Option Nat)
  lastSend : Option Int
  delayed : Bool
  sent : List Nat
  holder : Option (Nat × Source)
  waiting : List RdmReq
  runq : List RdmReq
  phase : RdmPhase
  joined : List Byte
  startC : Nat
  toIdle : List Nat
  uids : List Nat
  uidOverflow : Bool
  deriving DecidableEq, Repr

def DmxPort.start : DmxPort :=
  { out := [], lastSend := none, delayed := false, sent := [], holder := none, waiting := [], runq := [], phase := .queued, joined := [],
    startC := 0, toIdle := [], uids := [], uidOverflow := false }

/-- A re-send entry of the apex (R394, R395): the next `SEQ`, the origin boundary of the frame it sends, and the pixels of
its rectangle sent of that frame. -/
structure Resend where
  seq : Nat
  origin : Int
  got : List Nat
  deriving DecidableEq, Repr

/-- A member's record at the apex (R373, R383, R410): its address, words 0 to 2 of its last `STATUS`, the table's flags, the
cycles missed in a row, the tick of that `STATUS`, the `BOOT_ID`s reported since the last `POLL`, the cycles in a row in
which one member alone answered, and `EVT_ANY` as the last `POLL` saw it. -/
structure Member where
  addr : Nat
  words : List Nat
  present : Bool
  silent : Bool
  duplicate : Bool
  misses : Nat
  heardC : Nat
  boots : List Nat
  single : Nat
  evtAny : Bool
  deriving DecidableEq, Repr

/-- A sender of gang or pair messages as its receiver knows it (R375, R376): its `BOOT_ID`, the window of its sequence
numbers, and the `APEX_PRIO` of its claim. `boot` is `none` until the sender has told it. -/
structure Peer where
  addr : Nat
  boot : Option Nat
  high : Option Nat
  bitmap : Nat
  prio : Option Nat
  deriving DecidableEq, Repr

/-- What a relay serves: a command of a requester, or a step of a gang transaction (R391) with the apex's transaction
ID. -/
inductive RelayUse
  | direct
  | start (txn : Nat)
  | stage (txn : Nat)
  | commit (txn : Nat)
  | rollback
  | check (txn : Nat)
  deriving DecidableEq, Repr

/-- An outstanding relay (R388 to R390): its `GSEQ`, the member, the requester's command with the key it was checked under,
the message sent, the times sent, and whether its first answer was `PENDING`. -/
structure Relay where
  gseq : Nat
  addr : Nat
  cmd : Cmd
  key : Option (List Byte)
  bytes : List Byte
  tries : Nat
  pending : Bool
  use : RelayUse
  deriving DecidableEq, Repr

/-- Where the member transaction of a gang transaction stands (R391). -/
inductive GangMemberState
  | opening | opened | committing | scheduled | refused
  deriving DecidableEq, Repr

/-- A member's part of a gang transaction: its transaction ID and the writes that wait until it is open. -/
structure GangPart where
  addr : Nat
  tid : Nat
  state : GangMemberState
  waiting : List (Cmd × Option (List Byte))
  deriving DecidableEq, Repr

/-- A gang transaction (R391): the apex's transaction ID, the key slot that opened it, the members' parts, the commit under way with its key, the
`EFFECT_FRAME` of the last member to reply, the first refusal (status code and address), and the tag of a commit that
succeeded. -/
structure GangTxn where
  id : Nat
  key : Nat
  parts : List GangPart
  commit : Option (Cmd × Option (List Byte))
  effect : Nat
  refusal : Option (Nat × Nat)
  tag : Nat
  deriving DecidableEq, Repr

/-- A `SIGNAL` without an `ACK` yet (R385). -/
structure SignalOut where
  gseq : Nat
  bytes : List Byte
  tries : Nat
  deriving DecidableEq, Repr

/-- What the apex delivers from a member (R386). -/
inductive Delivery
  | reply (gseq : Nat) (relay : Nat) (bytes : List Byte)
  | signal (gseq : Nat) (ev : List Byte)
  | nothing (gseq : Nat)
  deriving DecidableEq, Repr

/-- The deliveries of a member that wait for lower sequence numbers, each with the tick of its arrival, and the sequence
number awaited. -/
structure Inbox where
  addr : Nat
  next : Nat
  waiting : List (Nat × Delivery)
  deriving DecidableEq, Repr

/-- A device's part in the election (R379, R380). -/
inductive GangRole
  | member | backoff | claimant | apex
  deriving DecidableEq, Repr

/-- The gang (R371 to R393): the role, the next `GSEQ`, the senders known, the member table, the relays in order of
acceptance, the `RELAY_REPLY` messages formed (sender, its `GSEQ`, message), the `SIGNAL`s that wait for an `ACK`, the
apex that a `STATUS` is due to, the deliveries held, the gang transactions, and the events to be signalled at the end of
the step. -/
structure Gang where
  role : GangRole
  gseq : Nat
  peers : List Peer
  members : List Member
  relays : List Relay
  formed : List (Nat × Nat × List Byte)
  signals : List SignalOut
  statusDue : Option Nat
  inbox : List Inbox
  txns : List GangTxn
  toSignal : List EventRec
  deriving DecidableEq, Repr

def Gang.start : Gang :=
  { role := .member, gseq := 0, peers := [], members := [], relays := [], formed := [], signals := [], statusDue := none,
    inbox := [], txns := [], toSignal := [] }

/-- Profile 0 (R406, R408): the gang address of later accesses (0xFF for the device itself), the messages waiting (type,
gang address, sequence, value), the next sequence number and the overrun bit. -/
structure Emul where
  sel : Nat
  msgs : List (Nat × Nat × Nat × Nat)
  seq : Nat
  overrun : Bool
  deriving DecidableEq, Repr

def Emul.start : Emul := { sel := 0xFF, msgs := [], seq := 0, overrun := false }

/-- A journal entry (R418, R425): its number and its transaction record, byte for byte. -/
abbrev JournalEntry := Nat × List Byte

/-- A snapshot (R424): its sequence number, J_s, and its bytes. -/
structure Snapshot where
  seq : Nat
  journal : Nat
  data : List Byte
  deriving DecidableEq, Repr

/-- A snapshot being received (R426): its sequence number, part count, length and CRC-32, and the parts that have
arrived. -/
structure SnapIn where
  seq : Nat
  count : Nat
  length : Nat
  crc : Nat
  parts : List (Nat × List Byte)
  deriving DecidableEq, Repr

/-- A controlled swap (R428): none, or under way and waiting for the `ACK` of snapshot `seq`. -/
inductive SwapState
  | none
  | waiting (seq : Nat)
  deriving DecidableEq, Repr

/-- The director pair (R416 to R432): the peer as a sender, what its last heartbeat said (pair state, epoch), the misses in a
row, the next sequence number of pair messages, the journal kept or held with the highest number issued, the numbers
acknowledged by the standby, the last complete snapshot with the entries it holds, the one being received, the entries
made since the last snapshot and the tick at which that was sent, the swap under way, the tick at which the unit last became active, and the senders of
`ANNOUNCE` known. -/
structure Pair where
  peer : Option Peer
  peerState : Nat
  peerEpoch : Nat
  misses : Nat
  gseq : Nat
  journal : List JournalEntry
  issued : Nat
  ackSnap : Nat
  ackJournal : Nat
  snap : Option Snapshot
  snapIn : Option SnapIn
  sinceSnap : Nat
  snapC : Nat
  swap : SwapState
  activeC : Nat
  announcers : List Peer
  deriving DecidableEq, Repr

def Pair.start : Pair :=
  { peer := none, peerState := 0, peerEpoch := 0, misses := 0, gseq := 0, journal := [], issued := 0, ackSnap := 0,
    ackJournal := 0, snap := none, snapIn := none, sinceSnap := 0, snapC := 0, swap := .none, activeC := 0,
    announcers := [] }

/-- What an image slot of the flash holds: the runs of bytes written since their sectors were erased (offset, bytes). -/
abbrev ImageRuns := List (Nat × List Byte)

/-- A copy of the settings (R475): its generation, its format and the words of the fields with access RW. -/
structure Settings where
  generation : Nat
  format : Nat
  words : List (Nat × Word)
  deriving DecidableEq, Repr

/-- What flash and fuses hold (R466): the boot selector (`PRIMARY`, `OTHER_VALID`, whether the device was Running, whether
the primary image has been activated and not yet booted), the life-cycle record with the state that an event is still
owed for (R487), the profile record and its pin, the key slots, the epoch record with the fence mark and the gang epoch,
the security floor, the image slots and the settings slots. -/
structure NonVol where
  primary : Nat
  otherValid : Bool
  wasRunning : Bool
  activated : Bool
  lifecycle : Nat
  previous : Option Nat
  profile : Nat
  pinned : Bool
  keys : List (Option (List Byte))
  epoch : Nat
  fenceMark : Bool
  gangEpoch : Nat
  floor : Nat
  images : List ImageRuns
  settings : List (Option Settings)
  deriving DecidableEq, Repr

/-- A part as it ships: Blank, empty key slots, profile 1 unpinned, epoch 0, erased flash (R562). -/
def NonVol.factory : NonVol :=
  { primary := 0, otherValid := false, wasRunning := false, activated := false, lifecycle := 0, previous := none,
    profile := 1, pinned := false, keys := List.replicate 8 none, epoch := 0, fenceMark := false, gangEpoch := 0,
    floor := 0, images := [[], []], settings := [none, none] }

/-- An effect of a step on flash and fuses (R466 to R483). -/
inductive NvOp
  | primary (slot : Nat)
  | otherValid (b : Bool)
  | running (b : Bool)
  | activated (b : Bool)
  | lifecycle (state : Nat)
  | eventPlaced
  | profile (p : Nat)
  | pin (b : Bool)
  | key (slot : Nat) (k : Option (List Byte))
  | eraseKeys
  | eraseProfile
  | epoch (e : Nat)
  | fenceMark (b : Bool)
  | gangEpoch (e : Nat)
  | eraseEpoch
  | floor (v : Nat)
  | writeImage (slot off : Nat) (bytes : List Byte)
  | eraseImage (slot lo hi : Nat)
  | saveSettings (slot : Nat) (x : Settings)
  | copySettings (src dst : Nat)
  | eraseSettings
  | nodeSetting (slot node : Nat)
  deriving DecidableEq, Repr

/-- A load of an image (R468): the byte ranges written in it, the bytes that may wait in the write buffer, the blocks whose
check has failed, the words that a save in progress writes (R476), the nonce of an armed return (R482), the time of a
scheduled activation (R473), and the verification in progress with the requester to answer. -/
structure Load where
  active : Bool
  ranges : List (Nat × Nat)
  buffered : Nat
  bad : List Nat
  saving : Option (List (Nat × Word))
  armed : Option (List Byte)
  actTime : Option FullTime
  toVerify : Option (Cmd × Option (List Byte))
  deriving DecidableEq, Repr

def Load.start : Load :=
  { active := false, ranges := [], buffered := 0, bad := [], saving := none, armed := none, actTime := none, toVerify := none }

/-- A temperature set (R497): the die temperature, the phase offsets, the ADC offset and gain, and the 64 lane taps. -/
structure CalSet where
  temp : Int
  phase0 : Int
  phase1 : Int
  adcOfs : Int
  adcGain : Nat
  taps : List Nat
  deriving DecidableEq, Repr

/-- A calibration run (R490 to R492): its trigger, the items still to come in ascending order, those passed and failed, the
lanes' taps found so far with the quads still to take, and the command to answer. -/
structure CalRun where
  trigger : Nat
  items : List Nat
  passed : List Nat
  failed : List Nat
  taps : List (Nat × Int)
  quads : List Nat
  cmd : Option (Cmd × Option (List Byte))
  deriving DecidableEq, Repr

/-- Self-calibration (R490 to R498): the run in progress, the automatic run that waits for its end (trigger and items), the
stored sets by place with the number of their storing, the next such number, the tick at which a run last completed, and
what waits to be applied: phase offsets
at the next servo update, ADC values at the next conversion, lane taps at the next frame boundary. -/
structure Calib where
  run : Option CalRun
  queued : Option (Nat × List Nat)
  sets : List (Nat × Nat × CalSet)
  nextSet : Nat
  lastC : Nat
  phaseTo : Option (Int × Int)
  adcTo : Option (Int × Nat)
  tapsTo : Option (List Nat)
  deriving DecidableEq, Repr

def Calib.start : Calib :=
  { run := none, queued := none, sets := [], nextSet := 0, lastC := 0, phaseTo := none, adcTo := none, tapsTo := none }

/-- The states of the IEEE 1149.1 TAP controller (R538). -/
inductive TapState
  | reset | idle | selectDr | captureDr | shiftDr | exit1Dr | pauseDr | exit2Dr | updateDr
  | selectIr | captureIr | shiftIr | exit1Ir | pauseIr | exit2Ir | updateIr
  deriving DecidableEq, Repr

/-- The boundary-scan logic (R538, R539): the controller, the level of TCK, the instruction shift register and the
instruction in force, the bypass and identification registers, the boundary shift register and its update stage, and
TDO. -/
structure Tap where
  state : TapState
  tck : Bool
  irShift : Nat
  ir : Nat
  bypass : Bool
  idShift : Nat
  boundary : List Bool
  held : List Bool
  tdo : Bool
  deriving DecidableEq, Repr

/-- The boundary cells: one for each of the 317 signal balls of R528 but the 20 that R538 excepts. -/
def cellCount : Nat := 297

/-- Test-Logic-Reset, with `IDCODE` selected. -/
def Tap.reset : Tap :=
  { state := .reset, tck := false, irShift := 0, ir := 2, bypass := false, idShift := 0,
    boundary := List.replicate cellCount false, held := List.replicate cellCount false, tdo := false }

/-- The time unit at reset release: C at zero, `FREERUN` (R73, R98). -/
def Time.start : Time :=
  { c := 0, base := 0, cb := 0, rInt := 0, rate := 0, slewTill := 0, servo := .freerun, accepted := [], rates := [], lockCount := 0,
    bigCount := 0, slave := none, foreign := [], holdStart := none, holdInvalid := false, upstreamLostAt := none, fsMissed := 0, fsBase := none, meanPath := 0,
    lastSync := none, delayReq := none, txSeq := 0, dreqWindow := [(0, 0), (0, 0)], partnerBit := [false, false],
    phaseBroken := false, tsq := [], caps := [[], [], [], []], lastCap := [none, none, none, none],
    capHeld := [none, none, none, none], trigs := List.replicate 4 Trig.idle, lastFrame := none, freezeDone := false }

/-- A port that has not been started. -/
def Port.start : Port :=
  { up := false, mode := 0, moduleBest := 0, held := [], nextRegion := 0, fwd := [], txq := [], sending := .idle, since := 0,
    burst := 0, table := [], reports := [], bareTimes := [] }

/-- The Selul unit after any reset (R509). -/
def Selul.start : Selul :=
  { requesters := [], hostReq := none, floors := List.replicate 8 none, cmdq := [], hostIn := 0, hostOut := [],
    hqOverrun := false, bareHost := [], txns := [], closed := [], nextTxn := 1, delayed := [], action := none }

/-- The volatile state of the device. The meanings of most commands change this part only. -/
structure Chip where
  /-- The device state (R32). -/
  st : DevState
  /-- Whether the present Fenced state was entered from Running (R34). -/
  fromRunning : Bool
  /-- The words of the configuration space, as they differ from their reset words (R563, R566). -/
  regs : SMap Word
  /-- Commits whose fields have not all taken effect (R354). -/
  pend : List Pend
  /-- The 48-bit statistics counters that are not zero (R144, R567). -/
  counters : SMap Nat
  /-- The snapshots of R144: bits 47:32 of each counter at its last low-word read. -/
  snaps : SMap Nat
  /-- The model's own latch of the last access answer. -/
  answer : Answer
  /-- The model's own counter that free values are drawn with. -/
  freeCtr : Nat
  /-- The always-on record (R509). -/
  aon : Aon
  /-- Supplies and boot progress (R503 to R517). -/
  power : Power
  /-- Clock state (R37 to R68). -/
  clk : Clk
  /-- The time unit (R73 to R114). -/
  time : Time
  /-- P0 and P1 (R117 to R148). -/
  ports : Vector Port 2
  /-- The event queue, in order of placing (R366). -/
  evq : List EventRec
  /-- The next `EVENT_ID` (R366). -/
  nextEvent : Nat
  /-- The `SEQ` of the next notice (R368). -/
  noticeSeq : Nat
  /-- The error unit (R445 to R461). -/
  errs : Errs
  /-- The Selul unit (R334 to R368). -/
  sel : Selul
  /-- The stream contexts that differ from `Ctx.start` (R150 to R188). -/
  ctxs : SMap Ctx
  /-- The words of contexts that a frame boundary has changed (R186), the last boundary first: its number and the words as
  they were before it. -/
  was : List (Int × List StagedWord)
  /-- The feeds (R191 to R218). -/
  feeds : Vector Feed 4
  /-- What the step in progress does to the SRAM window, in order; empty between steps. -/
  sramOps : List SramOp
  /-- The slots and stills of each feed under the memory layout in force (R197), then the terms of the planner rule it was made for (R199, R200). -/
  layout : List Nat
  /-- Whether a field that the memory layout depends on has changed since the layout was taken (R200). -/
  layoutOld : Bool
  /-- The work scheduler (R219 to R249). -/
  sched : Sched
  /-- The colour unit (R253 to R276). -/
  colour : Colour
  /-- The scan engines (R277 to R309). -/
  scan : Scan
  /-- The chains and lamp-board sensors (R310 to R333). -/
  chains : Chains
  /-- The DMX ports of the bridge (R396 to R405). -/
  dmx : Vector DmxPort 4
  /-- The re-send entries (R394). -/
  resend : List Resend
  /-- The millisecond in which the re-send engine last sent, and the payload bytes sent in it (R395). -/
  resendMs : Nat × Nat
  /-- The gang (R371 to R393). -/
  gang : Gang
  /-- The AM6140 emulation of profile 0 (R406 to R408). -/
  emul : Emul
  /-- The director pair (R416 to R432). -/
  pair : Pair
  /-- Loading, saving, activation and arming (R468 to R482). -/
  loading : Load
  /-- What the step in progress does to flash and fuses, in order; empty between steps. -/
  nvOps : List NvOp
  /-- Self-calibration (R490 to R499). -/
  calib : Calib
  deriving DecidableEq, Repr

/-- The volatile state right after power has been applied (R509, cause `POWER`). -/
def Chip.powerOn : Chip :=
  { st := .reset,
    fromRunning := false,
    regs := [],
    pend := [],
    counters := [],
    snaps := [],
    answer := ⟨.ok, []⟩,
    freeCtr := 0,
    aon := ⟨0, false, 0, 0, 0, 0, 0, [], 0, [], [], false⟩,
    power := ⟨false, false, false, false, false, 0, false, false, false, false⟩,
    clk := ⟨false, false, false, none, false, false, none, none, false⟩,
    time := Time.start,
    ports := Vector.replicate 2 Port.start,
    evq := [],
    nextEvent := 1,
    noticeSeq := 0,
    errs := ⟨[], 0, [none, none, none, none], [[], [], [], []], [], [], []⟩,
    sel := Selul.start,
    ctxs := [],
    was := [],
    feeds := Vector.replicate 4 Feed.start,
    sramOps := [],
    layout := [],
    layoutOld := false,
    sched := ⟨[], [], [], none, none, 0, 0, 0, false, 63⟩,
    colour := Colour.start,
    scan := Scan.start,
    chains := Chains.start,
    dmx := Vector.replicate 4 DmxPort.start,
    resend := List.replicate 16 ⟨0, 0, []⟩,
    resendMs := (0, 0),
    gang := Gang.start,
    emul := Emul.start,
    pair := Pair.start,
    loading := Load.start,
    nvOps := [],
    calib := Calib.start }

/-! One setter for each part of the chip. -/

def Chip.setSt (c : Chip) (x : DevState) : Chip := { c with st := x }
def Chip.setFromRunning (c : Chip) (x : Bool) : Chip := { c with fromRunning := x }
def Chip.setRegs (c : Chip) (x : SMap Word) : Chip := { c with regs := x }
def Chip.setPend (c : Chip) (x : List Pend) : Chip := { c with pend := x }
def Chip.setCounters (c : Chip) (x : SMap Nat) : Chip := { c with counters := x }
def Chip.setSnaps (c : Chip) (x : SMap Nat) : Chip := { c with snaps := x }
def Chip.setAnswer (c : Chip) (x : Answer) : Chip := { c with answer := x }
def Chip.setFreeCtr (c : Chip) (x : Nat) : Chip := { c with freeCtr := x }
def Chip.setAon (c : Chip) (x : Aon) : Chip := { c with aon := x }
def Chip.setPower (c : Chip) (x : Power) : Chip := { c with power := x }
def Chip.setClk (c : Chip) (x : Clk) : Chip := { c with clk := x }
def Chip.setTime (c : Chip) (x : Time) : Chip := { c with time := x }
def Chip.setPorts (c : Chip) (x : Vector Port 2) : Chip := { c with ports := x }
def Chip.setEvq (c : Chip) (x : List EventRec) : Chip := { c with evq := x }
def Chip.setNextEvent (c : Chip) (x : Nat) : Chip := { c with nextEvent := x }
def Chip.setNoticeSeq (c : Chip) (x : Nat) : Chip := { c with noticeSeq := x }
def Chip.setErrs (c : Chip) (x : Errs) : Chip := { c with errs := x }
def Chip.setSel (c : Chip) (x : Selul) : Chip := { c with sel := x }
def Chip.setCtxs (c : Chip) (x : SMap Ctx) : Chip := { c with ctxs := x }
def Chip.setWas (c : Chip) (x : List (Int × List StagedWord)) : Chip := { c with was := x }
def Chip.setFeeds (c : Chip) (x : Vector Feed 4) : Chip := { c with feeds := x }
def Chip.setSramOps (c : Chip) (x : List SramOp) : Chip := { c with sramOps := x }
def Chip.setLayout (c : Chip) (x : List Nat) : Chip := { c with layout := x }
def Chip.setLayoutOld (c : Chip) (x : Bool) : Chip := { c with layoutOld := x }
def Chip.setSched (c : Chip) (x : Sched) : Chip := { c with sched := x }
def Chip.setColour (c : Chip) (x : Colour) : Chip := { c with colour := x }
def Chip.setScan (c : Chip) (x : Scan) : Chip := { c with scan := x }
def Chip.setChains (c : Chip) (x : Chains) : Chip := { c with chains := x }
def Chip.setDmx (c : Chip) (x : Vector DmxPort 4) : Chip := { c with dmx := x }
def Chip.setResend (c : Chip) (x : List Resend) : Chip := { c with resend := x }
def Chip.setResendMs (c : Chip) (x : Nat × Nat) : Chip := { c with resendMs := x }
def Chip.setGang (c : Chip) (x : Gang) : Chip := { c with gang := x }
def Chip.setEmul (c : Chip) (x : Emul) : Chip := { c with emul := x }
def Chip.setPair (c : Chip) (x : Pair) : Chip := { c with pair := x }
def Chip.setLoading (c : Chip) (x : Load) : Chip := { c with loading := x }
def Chip.setNvOps (c : Chip) (x : List NvOp) : Chip := { c with nvOps := x }
def Chip.setCalib (c : Chip) (x : Calib) : Chip := { c with calib := x }

/-- Faults that stop a step. The model raises none: every command of the table has an effect that the manual gives, or
is an event that cannot take place in the state it meets, which leaves the state as it is (log entry 2). -/
inductive Fault
  | none_raised
  deriving DecidableEq, Repr

/-- Refusals. `notModelled` is raised by no meaning: it stands for a command without one, and is safe. -/
inductive Refusal
  | notModelled (mnemonic : String)
  deriving DecidableEq, Repr

/-- The machine: the volatile chip; the calibration shares and the rest of the SRAM window (R569), each as the bytes that
differ from what an unlisted address reads as; what flash and fuses hold; the boundary-scan logic; and the commands that
wait, first in, first out. -/
structure State where
  chip : Chip
  cal : SMap Byte
  sram : SMap Byte
  nv : NonVol
  tap : Tap
  pending : List Instr
  late : List Instr
  taking : Bool
  deriving DecidableEq, Repr

/-- The machine right after reset. -/
def State.reset : State :=
  { chip := Chip.powerOn, cal := [], sram := [], nv := NonVol.factory, tap := Tap.reset, pending := [], late := [], taking := false }

end Sys2Proof.Machine
end

