-- ==== Sys2Proof/Machine/Ops.lean ====
section
/-!
DEFINITION. The operations that every family shares: reading and writing a register field, latching a flag, counting,
drawing a free value, reading the local time, placing an event, sending a local frame, writing the error log, blanking
the outputs, and taking a reset.
-/

namespace Sys2Proof.Machine

open Sys2Proof

/-! Registers (R4, R563). -/

/-- The word of the register at `a`. -/
def Chip.reg (c : Chip) (a : Nat) : Word := smGet regReset c.regs a

/-- The chip with `w` in the register at `a`. -/
def Chip.setReg (c : Chip) (a : Nat) (w : Word) : Chip := { c with regs := smSet regReset c.regs a w }

/-- The value of a field. -/
def Chip.get (c : Chip) (f : Fld) : Nat := (c.reg f.addr).toNat >>> f.lo % 2 ^ f.width

/-- A word with the bits of a field replaced. -/
def insertField (w : Nat) (f : Fld) (v : Nat) : Nat :=
  w % 2 ^ f.lo + (v % 2 ^ f.width) * 2 ^ f.lo + (w / 2 ^ (f.lo + f.width)) * 2 ^ (f.lo + f.width)

/-- The chip with the value `v` in a field. -/
def Chip.put (c : Chip) (f : Fld) (v : Nat) : Chip :=
  c.setReg f.addr (wordOf (insertField (c.reg f.addr).toNat f v))

/-- Whether a field is not zero. -/
def Chip.bit (c : Chip) (f : Fld) : Bool := c.get f != 0

/-- The chip with a one-bit field set to `b`. -/
def Chip.putB (c : Chip) (f : Fld) (b : Bool) : Chip := c.put f (if b then 1 else 0)

/-- The value of a field read as a signed number. -/
def Chip.getS (c : Chip) (f : Fld) : Int :=
  let v := c.get f
  if v < 2 ^ (f.width - 1) then (v : Int) else (v : Int) - (2 ^ f.width : Nat)

/-- A signed number as the bits of a field of `w` bits, held at the ends of its range. -/
def satSigned (w : Nat) (v : Int) : Nat :=
  if v < -(2 ^ (w - 1) : Int) then 2 ^ (w - 1)
  else if (2 ^ (w - 1) : Int) ≤ v then 2 ^ (w - 1) - 1
  else (v % (2 ^ w : Int)).toNat

/-- The chip with a signed value in a field, saturating. -/
def Chip.putS (c : Chip) (f : Fld) (v : Int) : Chip := c.put f (satSigned f.width v)

/-- Latching a flag (W1C fields): it stays 1 until a write of 1 clears it. -/
def Chip.latch (c : Chip) (f : Fld) : Chip := c.put f 1

/-- Latching a flag, with `k` done at a 0-to-1 transition only. -/
def Chip.raise (c : Chip) (f : Fld) (k : Chip → Chip) : Chip := if c.bit f then c else k (c.latch f)

/-- The number of ones among bits `lo` to `lo + n - 1` of `w`. -/
def popCount (w : Nat) : Nat → Nat
  | 0 => 0
  | n + 1 => popCount w n + (if w.testBit n then 1 else 0)

/-- The chip with an answer latched. -/
def Chip.ans (c : Chip) (st : Status) (ws : List Nat) : Chip := { c with answer := ⟨st, ws⟩ }

/-- The chip with the answer `OK` and no words. -/
def Chip.ok (c : Chip) : Chip := c.ans .ok []

/-! Statistics (R144). -/

/-- The value of the 48-bit counter at `a`. -/
def Chip.count (c : Chip) (a : Nat) : Nat := smGet (fun _ => 0) c.counters a

/-- The chip with `n` added to the counter at `a`, which saturates at 2^48 - 1. -/
def Chip.bump (c : Chip) (a n : Nat) : Chip :=
  { c with counters := smSet (fun _ => 0) c.counters a (min (c.count a + n) (2 ^ 48 - 1)) }

/-- The low-word read of a counter (R144): its value is answered and the counter cleared, and bits 47:32 become its
snapshot. -/
def Chip.takeCounter (c : Chip) (a : Nat) : Chip × Nat :=
  let v := c.count a
  ({ c with counters := smSet (fun _ => 0) c.counters a 0,
            snaps := smSet (fun _ => 0) c.snaps a (v / 2 ^ 32) }, v)

/-! Free values. -/

/-- The next free value: a counter that only the opaque constants of Config are applied to. -/
def Chip.draw (c : Chip) : Chip × Nat := ({ c with freeCtr := c.freeCtr + 1 }, c.freeCtr)

/-- A computed value is put into a field; one that the field cannot hold leaves a free value there. -/
def Chip.putFit (c : Chip) (f : Fld) (v : Int) : Chip :=
  if 0 ≤ v ∧ v < (2 ^ f.width : Nat) then c.put f v.toNat
  else
    let (c, d) := c.draw
    c.put f (Config.choice d)

/-! Ports. -/

def Chip.port (c : Chip) (p : PortIx) : Port := c.ports[p]

def Chip.setPort (c : Chip) (p : PortIx) (q : Port) : Chip := { c with ports := c.ports.set p q }

/-- The other port. -/
def otherPort (p : PortIx) : PortIx := if p = 0 then 1 else 0

/-- The statistics block of a port (R144). -/
def portCnt (p : PortIx) (o : Nat) : Nat := 0x100000 + 0x200 * p.val + o

/-- `LINK_UP` of a port (R122). -/
def Chip.linkUp (c : Chip) (p : PortIx) : Bool := c.bit (PRTn_STATUS.LINK_UP p)

/-- R141: the VLAN tag of local frames of the port. -/
def Chip.txTag (c : Chip) (p : PortIx) : Option VlanTag :=
  let v := c.get (PRTn_VLAN.VLAN_ID p)
  if v = 0 then none else some ⟨v, c.get (PRTn_VLAN.TX_PCP p)⟩

/-- R141: the bytes that the VLAN tag of local frames adds. -/
def Chip.tagBytes (c : Chip) (p : PortIx) : Nat := if (c.txTag p).isSome then 4 else 0

/-- R135, R141: a frame as it enters a transmit queue: padded to 64 bytes, with its tag. -/
def Chip.txFrame (c : Chip) (p : PortIx) (f : TxMsg) : TxFrame := ⟨f.body, max 64 f.len, c.txTag p⟩

/-- R131: a locally originated frame enters its port's transmit queue of 64 frames, is dropped by a full queue, which
latches `TXQ_OVERRUN`, or is discarded while the link is down. -/
def Chip.sendLocal (c : Chip) (p : PortIx) (f : TxMsg) : Chip :=
  if !c.linkUp p then c.bump (portCnt p 0x90) 1
  else if (c.port p).txq.length ≥ 64 then c.latch (PRTn_EVENT.TXQ_OVERRUN p)
  else c.setPort p { c.port p with txq := (c.port p).txq ++ [c.txFrame p f] }

/-- The IPv4-mapped form of the IPv4 address `a`. -/
def mapped4 (a : Nat) : Nat := 0xFFFF * 2 ^ 32 + a % 2 ^ 32

/-- Whether a 128-bit address is IPv4-mapped. -/
def isMapped4 (ip : Nat) : Bool := ip / 2 ^ 32 == 0xFFFF

/-- The length of a UDP frame with `n` payload bytes, with its FCS and padded to 64 bytes (R135, R334). -/
def Chip.udpLen (c : Chip) (p : PortIx) (ip n : Nat) : Nat :=
  max 64 (14 + c.tagBytes p + (if isMapped4 ip then 20 else 40) + 8 + n + 4)

/-- Four consecutive words as one 128-bit number, word 0 the most significant (R369). -/
def Chip.get128 (c : Chip) (f : Nat → Fld) : Nat :=
  ((c.get (f 0) * 2 ^ 32 + c.get (f 1)) * 2 ^ 32 + c.get (f 2)) * 2 ^ 32 + c.get (f 3)

/-! Time (R73 to R78, R104). Times are in 2^-16 ns. -/

/-- One second. -/
def secU : Int := 65536000000000

/-- One nanosecond. -/
def nsU : Int := 65536

/-- One microsecond. -/
def usU : Int := 65536000

/-- The local time of R74, with `frac10` tenths of a nanosecond since the last tick (R76): the ticks since C_b run at the r
with the slew until the slew has been spread, and at its integral part from then on (R97). -/
def Time.now (t : Time) (frac10 : Nat) : Int :=
  let n := t.c.toNat - t.cb
  let m := min n (t.slewTill - t.cb)
  t.base + ((m : Int) * 81920 * (2 ^ 48 + t.rate) + ((n - m : Nat) : Int) * 81920 * (2 ^ 48 + t.rInt)) / 2 ^ 48
    + ((frac10 : Int) * 65536) / 10

def Chip.now (c : Chip) : Int := c.time.now 0

/-- `TIME_VALID` (R100). -/
def Chip.timeValid (c : Chip) : Bool := c.bit TIM_STATUS.TIME_VALID

/-- A time as a record of R116. -/
def timeRecOf (t : Int) (invalid : Bool) : TimeRec :=
  let u := t.toNat
  let ns := u / 65536
  { sec := (ns / 1000000000) % 2 ^ 48, ns := ns % 1000000000, frac := u % 65536, invalid := invalid }

def Chip.nowRec (c : Chip) : TimeRec := timeRecOf c.now (!c.timeValid)

/-- A full time as a local time. -/
def FullTime.at (g : FullTime) : Int := ((g.sec : Int) * 1000000000 + (g.ns : Int)) * 65536

/-- The frame period of a `FRAME_RATE` code in seconds, as numerator and denominator (R277). -/
def periodOf : Nat → Option (Nat × Nat)
  | 0 => some (1001, 24000) | 1 => some (1, 24) | 2 => some (1, 25) | 3 => some (1001, 30000) | 4 => some (1, 30)
  | 5 => some (1, 48) | 6 => some (1, 50) | 7 => some (1001, 60000) | 8 => some (1, 60) | 9 => some (1, 72)
  | 10 => some (1, 90) | 11 => some (1, 96) | 12 => some (1, 100) | 13 => some (1001, 120000) | 14 => some (1, 120)
  | 15 => some (1, 144) | 16 => some (1, 150) | 17 => some (1, 180) | 18 => some (1, 200) | 19 => some (1, 240)
  | _ => none

/-- The period of the timing set in force. -/
def Chip.period (c : Chip) : Nat × Nat := (periodOf (c.get SCN_TSET0.FRAME_RATE)).getD (1, 120)

/-- The boundary T_n of a grid of period `p` and offset `go` in ns (R104). -/
def gridT (p : Nat × Nat) (go n : Int) : Int := n * (p.1 : Int) * secU / (p.2 : Int) + go * nsU

/-- The number of the last boundary at or before `t`. -/
def gridN (p : Nat × Nat) (go t : Int) : Int := (t - go * nsU) * (p.2 : Int) / ((p.1 : Int) * secU)

def Chip.gridOffset (c : Chip) : Int := c.getS TIM_GRID.GRID_OFFSET

/-- T_n on the grid in force. -/
def Chip.boundary (c : Chip) (n : Int) : Int := gridT c.period c.gridOffset n

/-- The n of the last frame boundary: the last one taken on this grid, or, before any, the one that the local time
gives (log entry 6). -/
def Chip.frameNow (c : Chip) : Int :=
  match c.time.lastFrame with
  | some n => n
  | none => gridN c.period c.gridOffset c.now

/-- The freeze interval of R22. -/
def freezeU : Int := 600 * usU

/-- R22, R205: whether the freeze point after the last frame boundary has passed; before any boundary has been taken on the
grid, the local time tells. -/
def Chip.pastFreeze (c : Chip) : Bool :=
  c.time.freezeDone || (c.time.lastFrame.isNone && decide (c.boundary (c.frameNow + 1) - freezeU < c.now))

/-- Bits 31:0 of a frame number. -/
def frame32 (n : Int) : Nat := (n % 2 ^ 32).toNat

/-! Events and notices (R366 to R368). -/

def selCnt (o : Nat) : Nat := 0x100900 + o

/-- R368: the notice of an event, on each port whose link is up. -/
def Chip.sendNotice (c : Chip) (e : EventRec) : Chip :=
  if c.bit ID_SEL_CTRL.NOTIFY_EN && decide (e.prio ≤ c.get ID_SEL_CTRL.NOTIFY_PRIO)
      && (c.linkUp 0 || c.linkUp 1) then
    let a := c.get128 (fun w => ID_SEL_NOTIFY.NOTIFY_ADDR w)
    let dst := if a = 0 then mapped4 0xEFC0BB01 else a
    let body := TxBody.notice c.noticeSeq (c.get ID_SEL_CTRL.NOTIFY_KEY) dst e
    let one (c : Chip) (p : PortIx) : Chip :=
      if c.linkUp p then c.sendLocal p ⟨body, c.udpLen p dst 72⟩ else c
    let c' := one (one c 0) 1
    { c'.bump (selCnt 0x68) 1 with noticeSeq := (c.noticeSeq + 1) % 2 ^ 32 }
  else c

/-- Whether profile 0 is in force (R11, R406). -/
def Chip.emulates (c : Chip) : Bool := c.get ID_PROFILE.PROFILE == 0

/-- R408: a message of the emulation enters its queue of 64; a full queue sets the overrun bit. -/
def Chip.message (c : Chip) (type addr value : Nat) : Chip :=
  if !c.emulates then c
  else if c.emul.msgs.length ≥ 64 then c.setEmul { c.emul with overrun := true }
  else
    let m := (type, addr, c.emul.seq, value)
    c.setEmul { c.emul with msgs := c.emul.msgs ++ [m], seq := (c.emul.seq + 1) % 2 ^ 16 }

/-- R408: the message of an event. -/
def Chip.eventMessage (c : Chip) (e : EventRec) : Chip :=
  let own := c.get GNG_CTRL.GANG_ADDR
  if e.type = 0x0007 ∧ e.cause = 1 then c.message 0x02 own (c.get CHN_FMAP_STAT.FMAP_COUNT)
  else if e.type = 0x0005 ∧ e.cause = 2 then c.message 0x03 own e.value
  else if e.type = 0x0014 ∧ e.cause = 2 then c.message 0x05 e.unit 0
  else if e.type = 0x0014 ∧ e.cause = 3 then c.message 0x05 e.unit 1
  else if e.type = 0x0009 then c.message 0x06 own (e.value % 2 ^ 8)
  else if e.prio ≤ 3 then c.message 0x07 own (e.type * 2 ^ 16 + e.cause)
  else c

/-- `MSG_MODE`, forced to 1 in profile 0 (R408, R409). -/
def Chip.msgMode (c : Chip) : Bool := c.bit GNG_CTRL.MSG_MODE || c.emulates

/-- R385: a member in message mode signals an event of priority `SIG_PRIO` or higher. -/
def Chip.noteSignal (c : Chip) (e : EventRec) : Chip :=
  if c.msgMode && c.get GNG_ID.GANG_ID != 0 && c.gang.role != .apex && decide (e.prio ≤ c.get GNG_CTRL.SIG_PRIO) then
    c.setGang { c.gang with toSignal := c.gang.toSignal ++ [e] }
  else c

/-- R366: an event takes the next `EVENT_ID` and is placed, or is dropped by the full queue of its priority. -/
def Chip.placeEvent (c : Chip) (type prio cause unit argA argB frame value : Nat) : Chip :=
  let e : EventRec := ⟨type, prio, cause, c.nextEvent, unit % 2 ^ 16, argA % 2 ^ 16, argB % 2 ^ 16, frame % 2 ^ 32,
    value % 2 ^ 32⟩
  let c1 := { c with nextEvent := if c.nextEvent = 0xFFFFFFFF then 1 else c.nextEvent + 1 }
  if (c.evq.filter (fun x => x.prio == prio)).length ≥ 32 then
    ((c1.latch (ID_SEL_EVENT.EVQ_OVERRUN.bit prio)).bump (selCnt 0x58) 1).eventMessage e
  else ((({ c1 with evq := c1.evq ++ [e] }).sendNotice e).eventMessage e).noteSignal e

/-- An event of the present frame. -/
def Chip.event (c : Chip) (type prio cause unit argA argB value : Nat) : Chip :=
  c.placeEvent type prio cause unit argA argB (frame32 c.frameNow) value

/-! The error log (R458 to R461). -/

def errCnt (o : Nat) : Nat := 0x100D00 + o

/-- R464: an `ERR_EVENT` bit latches, and its 0-to-1 transition places an info event. -/
def Chip.raiseErr (c : Chip) (b : Nat) : Chip :=
  c.raise ⟨0xD000C, b, 1⟩ (fun c => c.event 0x10 6 0 0xF000 0 0 (0x1000 + b))

/-- The level at which an error code is detected (R440). -/
def errLevel (code : Nat) : Nat := code / 256 - 1

/-- The severity of an error code (R440): 0 info, 1 warn, 2 fault, 3 fatal. -/
def errSeverity (code : Nat) : Nat :=
  if code = 0x0101 ∨ code = 0x0103 ∨ code = 0x0107 then 0
  else if code = 0x0102 ∨ code = 0x0108 ∨ code = 0x0408 then 1
  else if code = 0x0401 ∨ code = 0x0402 ∨ (0x0404 ≤ code ∧ code ≤ 0x0407) then 3
  else 2

def outcomeCode : ErrOutcome → Nat
  | .none => 0 | .poisoned => 1 | .restarted => 2 | .acquiring => 3 | .fenced => 4 | .blanked => 5 | .reset => 6
  | .failed => 7

/-- The list without its first entry that satisfies `p`. -/
def dropFirst {α : Type} (p : α → Bool) : List α → List α
  | [] => []
  | x :: xs => if p x then xs else x :: dropFirst p xs

/-- R459: the log with a new entry, whether it was stored, and whether an entry was overwritten or the new one lost. -/
def logInsert (log : List LogEntry) (e : LogEntry) : List LogEntry × Bool × Bool :=
  if log.length < 128 then (log ++ [e], true, false)
  else if log.any (fun x => x.severity == 0) then (dropFirst (fun x => x.severity == 0) log ++ [e], true, true)
  else if log.any (fun x => x.severity == 1) then (dropFirst (fun x => x.severity == 1) log ++ [e], true, true)
  else if e.severity == 3 && log.any (fun x => x.severity == 2) then
    (dropFirst (fun x => x.severity == 2) log ++ [e], true, true)
  else (log, false, true)

/-- The chip with `LOG_COUNT` telling the entries held. -/
def Chip.showLog (c : Chip) : Chip := c.put ERR_STATUS.LOG_COUNT c.errs.log.length

/-- An entry with its `LOG_SEQ` and its time (R458). -/
def Chip.stampEntry (c : Chip) (e : LogEntry) : LogEntry := { e with seq := c.errs.nextSeq, time := c.nowRec, tick := c.time.c.toNat }

/-- R458, R459: a stamped entry goes into the log. -/
def Chip.storeEntry (c : Chip) (e : LogEntry) : Chip :=
  let r := logInsert c.errs.log e
  let c1 := c.setErrs { c.errs with log := r.1, nextSeq := (c.errs.nextSeq + 1) % 2 ^ 16 }
  let c2 := if r.2.1 then c1.showLog.bump (errCnt 0x00) 1 else c1
  let c3 := if e.secondary then c2.bump (errCnt 0x08) 1 else c2
  if r.2.2 then (c3.bump (errCnt 0x28) 1).raiseErr 0 else c3

/-- R461: the `ERROR` event of an entry. -/
def Chip.entryEvent (c : Chip) (e : LogEntry) : Chip :=
  if e.severity = 0 ∧ c.get ERR_CTRL.INFO_EVENTS = 0 then c
  else
    c.event 0x10 (match e.severity with | 3 => 0 | 2 => 1 | 1 => 3 | _ => 6)
      (e.level + 4 * e.severity + (if e.secondary then 16 else 0) + (if e.escalated then 32 else 0))
      e.unit e.seq (outcomeCode e.outcome) e.code

/-- R458 to R461: one entry is written, drawing its `LOG_SEQ`, and places its `ERROR` event. -/
def Chip.writeLog (c : Chip) (e : LogEntry) : Chip := (c.storeEntry (c.stampEntry e)).entryEvent (c.stampEntry e)

/-- An entry for an error code at its own level, with nothing secondary, escalated or waiting. -/
def plainEntry (code unit detail : Nat) (o : ErrOutcome) : LogEntry :=
  { level := errLevel code, severity := errSeverity code, secondary := false, escalated := false, waited := false,
    outcome := o, retained := false, unit := unit, code := code, seq := 0, time := ⟨0, 0, 0, false⟩, detail := detail, tick := 0 }

/-- The chip with the outcome of the log entry `seq` written (R458). -/
def Chip.setOutcome (c : Chip) (seq : Nat) (o : ErrOutcome) : Chip :=
  { c with errs := { c.errs with
      log := c.errs.log.map (fun e => if e.seq = seq ∧ e.retained = false then { e with outcome := o } else e) } }

/-! Blanking and reset. -/

/-- `ENGINE` of a half; the half of a quiesced engine is blank (R302, R455). -/
def Chip.engineCode (c : Chip) (h : Nat) : Nat :=
  if c.bit (ERR_FENCE_BLOCK.HALF_FENCED.bit h) then 3
  else if c.bit (ERR_GATE_BLOCK.BLOCK_GATED.bit (16 + h)) then 0
  else match c.scan.display with
    | .blank | .waitLock => 0
    | .blankUntil _ => 1
    | .showing => 2

/-- `ENGINE` of both halves. -/
def Chip.showEngine (c : Chip) : Chip :=
  (c.put (SCN_x_STATUS.ENGINE 0) (c.engineCode 0)).put (SCN_x_STATUS.ENGINE 1) (c.engineCode 1)

def chnCnt (o : Nat) : Nat := 0x100800 + o

/-- R332: the `CHAIN` event of bit `b` of `CHN_EVENT`; `unit` is the lane or slot. -/
def Chip.raiseChain (c : Chip) (b unit : Nat) : Chip :=
  c.raise ⟨0x90044, b, 1⟩ (fun c => c.event 0x0007 3 (b + 1) unit 0 0 0)

def nodeId (c : Chip) : Nat := c.get ID_NODE.NODE_ID
def bootId (c : Chip) : Nat := c.get ID_BOOT_ID.BOOT_ID

def gangAddr (c : Chip) : Nat := c.get GNG_CTRL.GANG_ADDR

/-- R412: the `GANG` event of bit `b` of `GNG_EVENT`. -/
def Chip.raiseGang (c : Chip) (b addr value : Nat) : Chip :=
  c.raise ⟨0xB0024, b, 1⟩ (fun c => c.event 0x0014 3 (b + 1) addr 0 0 value)

/-- R321: a detection slot is skipped for a half. -/
def Chip.skipDetection (c : Chip) : Chip := (c.bump (chnCnt 0x08) 1).raiseChain 3 0

/-- What the engines hold while they show nothing: no row is on and, where they did show something, every output goes
inactive. -/
def Scan.darkened (s : Scan) : Scan :=
  let lines := match s.display with
    | .blank | .waitLock => s.lines
    | _ => s.lines.quiet
  { s with rowOn := none, lanes := [], tests := [], lines := lines }

/-- The engines' state is `d`. Unless they display, no row is on and every output is inactive (R299, R304, R305), and the
detection slots whose readback window has not come are skipped (R321). -/
def Chip.setDisplay (c : Chip) (d : Display) : Chip :=
  if d = .showing then (c.setScan { c.scan with display := d }).showEngine
  else
    let c := c.scan.tests.foldl (fun c _ => c.skipDetection) c
    (c.setScan { c.scan.darkened with display := d }).showEngine

/-- R304: every OE, row, pre-charge and discharge output goes inactive. Display resumes through a lock frame (R303). -/
def Chip.blankOutputs (c : Chip) : Chip := c.setDisplay .blank

/-! Words of commits (R5, R354). -/

/-- The chip with a word of a commit in force. -/
def Chip.applyWord (c : Chip) (w : StagedWord) : Chip :=
  if w.mask = 0 then c
  else
    let old := (c.reg w.addr).toNat
    c.setReg w.addr (wordOf (old - (old &&& w.mask) + (w.value &&& w.mask)))

/-- The configuration that applies to frame `n` (R186): the words of contexts changed at a later boundary are as they were,
and the class F words are in force that take effect at or before its boundary. -/
def Chip.viewAt (c : Chip) (n : Int) : Chip :=
  let c := (c.was.filter (fun e => decide (n < e.1))).foldl (fun c e => e.2.foldl Chip.applyWord c) c
  (c.pend.filter (fun p => decide (p.boundary ≤ n))).foldl (fun c p => p.fWords.foldl Chip.applyWord c) c

/-- The cause codes of R462. -/
def causePower : Nat := 0
def causePin : Nat := 1
def causeWatchdog : Nat := 2
def causeCommand : Nat := 3
def causeClkNone : Nat := 4
def causeLifecycle : Nat := 5
def causeFatal : Nat := 6

/-- R462, R506, R507, R509: a reset cause arises. During a reset hold only `POWER` and `PIN` replace the recorded cause.
Everything volatile returns to its reset value; the always-on record is kept but for `POWER`, and so is the error
log. -/
def Chip.takeReset (c : Chip) (cause : Nat) : Chip :=
  if c.st = .off then c
  else if c.st = .reset ∧ cause ≠ causePower ∧ cause ≠ causePin then c
  else
    let fresh := Chip.powerOn
    let power := { fresh.power with
      groupAGood := c.power.groupAGood, pwrenMain := c.power.pwrenMain,
      groupBGood := c.power.groupBGood && decide (cause ≠ causePower) }
    if cause = causePower then
      { fresh with
        answer := c.answer, freeCtr := c.freeCtr, power := power, sramOps := c.sramOps, nvOps := c.nvOps,
        aon := { fresh.aon with resetCause := cause, pgLow := c.aon.pgLow, mainRetry := c.aon.mainRetry } }
    else
      { fresh with
        answer := c.answer, freeCtr := c.freeCtr, power := power, sramOps := c.sramOps, nvOps := c.nvOps,
        errs := { fresh.errs with log := c.errs.log, nextSeq := c.errs.nextSeq },
        aon := { c.aon with
          resetCause := cause, fromDormant := c.aon.fromDormant && decide (c.st = .reset),
          resetCount := if c.st = .reset then c.aon.resetCount else min (c.aon.resetCount + 1) 0xFFFF } }

/-- R445, R448, R462: an error whose containment is a reset: its entry is written, the outputs blank, and the reset is
taken. -/
def Chip.fatal (c : Chip) (code unit detail cause : Nat) : Chip :=
  let seq := c.errs.nextSeq
  (((c.writeLog (plainEntry code unit detail .none)).setOutcome seq .reset).blankOutputs).takeReset cause

end Sys2Proof.Machine
end

