-- ==== Sys2Proof/Machine/Geometry.lean ====
section
/-!
DEFINITION. What follows from the configuration: the timing program (R278 to R300), the tessellation map (R282 to
R287), strips and facets, the memory plan (R197 to R201), the item and load estimates (R229, R241), the readback
sequence (R316, R319), and the conditions that a commit is checked against. Intervals are in units of 0.025 ns.
-/

namespace Sys2Proof.Machine

open Sys2Proof

/-! The timing set (R277 to R280). -/

/-- One timebase tick of 1.25 ns. -/
def tickQ : Nat := 50

/-- Tenths of a nanosecond from a time in units of 0.025 ns, to the nearest (log entry 21). -/
def tenths (q : Int) : Int := (q + 2) / 4

def Chip.subframes (c : Chip) : Nat := c.get SCN_TSET0.SUBFRAMES
def Chip.planes (c : Chip) : Nat := c.get SCN_TSET0.PLANES
def Chip.rows (c : Chip) : Nat := c.get SCN_TSET0.SCAN
def Chip.drivers (c : Chip) : Nat := c.get SCN_TSET1.DRIVERS
def Chip.doubleLatch (c : Chip) : Bool := c.bit SCN_TSET0.LATCH_MODE
def Chip.channels (c : Chip) : Nat := if c.bit SCN_GEOM.TILE_RGBW then 4 else 3

/-- t_sh of R279. -/
def Chip.tShift (c : Chip) : Nat :=
  (8 * c.drivers * c.get SCN_TSET1.SCLK_DIV + c.get SCN_TSET1.LAT_LEN) * tickQ

/-- t_x of R279. -/
def Chip.tGap (c : Chip) : Nat := c.get SCN_TSET1.XFER * tickQ

/-- d_b of R289. -/
def Chip.pulse (c : Chip) (b : Nat) : Int := 4 * ((2 ^ b * c.get SCN_TSET2.UNIT : Nat) + c.getS SCN_OE.OE_TRIM)

/-- The planes of each image window, in order (R289). -/
def Chip.windows (c : Chip) : List (List Nat) :=
  let b := c.planes
  if c.doubleLatch then
    (List.range (b / 2)).map (fun i => [i, b - 1 - i]) ++ (if b % 2 = 1 then [[(b - 1) / 2]] else [])
  else (List.range b).map (fun i => [i])

/-- The light and gaps of a window. -/
def Chip.windowLight (c : Chip) (w : List Nat) : Int := (w.map (fun b => c.pulse b + c.tGap)).sum

/-- The lengths of the image windows, the detection window following the last (R290). -/
def Chip.windowLens (c : Chip) : List (List Nat) → List Int
  | [] => []
  | w :: ws =>
    let m := match ws with
      | [] => 1
      | v :: _ => v.length
    max (m * c.tShift : Nat) (c.windowLight w) :: c.windowLens ws

/-- The length of the detection window (R290). -/
def Chip.detLen (c : Chip) : Int := ((c.windows.headD []).length * c.tShift : Nat)

/-- The row change, from the row slot start to the first OE pulse (R293). -/
def Chip.rowChange (c : Chip) : Int := ((c.get SCN_ROWCHG.DEAD + c.get SCN_ROWCHG.SETTLE) * tickQ : Nat)

def Chip.staggerAll (c : Chip) : Int := (60 * c.get SCN_OE.STAGGER : Nat)

/-- `WD_START` (R290). -/
def Chip.wdStart (c : Chip) : Int := c.rowChange + (c.windowLens c.windows).sum

/-- `LAST_WIN` (R290). -/
def Chip.lastWin (c : Chip) : Int := c.rowChange + ((c.windowLens c.windows).dropLast).sum

/-- `ROW_NEED` (R290). -/
def Chip.rowNeed (c : Chip) : Int := c.wdStart + c.detLen - c.tGap + c.staggerAll

/-- T_row, rounded down to 0.1 ns (R280). -/
def Chip.tRow (c : Chip) : Int :=
  let p := c.period
  4 * ((p.1 * 10000000000 / (p.2 * c.subframes * c.rows) : Nat) : Int)

/-- The end of the last image pulse of a row slot on OE15, from the row slot start. -/
def Chip.lightEnd (c : Chip) : Int := c.lastWin + c.windowLight (c.windows.getLastD []) - c.tGap + c.staggerAll

/-- R290, R300: the program registers for the fields in force. -/
def Chip.showProgram (c : Chip) : Chip :=
  let on := tenths c.rowChange
  let margin := on + tenths (c.tRow - c.lightEnd)
  ((((c.putFit SCN_PROG0.ROW_NEED (tenths c.rowNeed)).putFit SCN_PROG1.WD_START (tenths c.wdStart)).putFit
    SCN_PROG2.LAST_WIN (tenths c.lastWin)).putFit SCN_LIGHT.LIGHT_ON on).putFit SCN_LIGHT.LIGHT_MARGIN margin

/-! Edges (R104). -/

/-- `a / b` to the nearest whole number, halves upward (log entry 118). -/
def roundDiv (a : Int) (b : Nat) : Int := (2 * a + (b : Int)) / (2 * (b : Int))

/-- The instant at a fraction `u` / `d` of frame `n`, computed at once and rounded to the nearest 0.1 ns (R104, R288), in
0.1 ns. -/
def Chip.instant10 (c : Chip) (n u : Int) (d : Nat) : Int :=
  let p := c.period
  roundDiv ((n * (d : Int) + u) * (p.1 : Int) * 10000000000) (p.2 * d) + c.gridOffset * 10

/-- A time in 0.1 ns in 2^-16 ns. -/
def from10 (t : Int) : Int := t * 65536 / 10

/-- E_n,k in 0.1 ns (R104). -/
def Chip.edge10 (c : Chip) (n : Int) (k : Nat) : Int := c.instant10 n k c.subframes

/-- E_n,k in 2^-16 ns. -/
def Chip.edgeAt (c : Chip) (n : Int) (k : Nat) : Int := from10 (c.edge10 n k)

/-! Lanes. -/

/-- The half of a lane, and its number in the half. -/
def laneHalf (l : Nat) : Nat := l / 32

def Chip.laneEn (c : Chip) (l : Nat) : Bool := c.bit (SCN_x_LANEi_W0.LANE_EN (l / 32) (l % 32))

/-- Whether lane `l` is fenced by itself, with its engine or with its region (R302, R452). -/
def Chip.laneFenced (c : Chip) (l : Nat) : Bool :=
  c.bit ((ERR_FENCE_LANE.LANE_FENCED (l / 32)).bit (l % 32)) || c.bit (ERR_FENCE_BLOCK.HALF_FENCED.bit (l / 32))
    || c.bit (ERR_FENCE_BLOCK.REGION_FENCED.bit (l / 16))

/-- Whether the lane's bank is disabled (R313). -/
def Chip.bankOff (c : Chip) (l : Nat) : Bool := c.power.bankOff.testBit (l / 16)

/-- Whether lane `l` is quiesced by itself, with its half or with its region (R455). -/
def Chip.laneGated (c : Chip) (l : Nat) : Bool :=
  c.bit ((ERR_GATE_LANE.LANE_GATED (l / 32)).bit (l % 32)) || c.bit (ERR_GATE_BLOCK.BLOCK_GATED.bit (16 + l / 32))
    || c.bit (ERR_GATE_BLOCK.BLOCK_GATED.bit (24 + l / 16))

/-- Whether lane `l` is enabled and survives containment, in a bank that is not disabled. -/
def Chip.laneOn (c : Chip) (l : Nat) : Bool :=
  c.bit (ID_ROLES.ROLES.bit 0) && c.laneEn l && !c.laneFenced l && !c.laneGated l && !c.bankOff l

def allLanes : List Nat := List.range 64

/-- `LANES_LIVE` of both halves. -/
def Chip.showLanes (c : Chip) : Chip :=
  (c.put (SCN_x_STATUS.LANES_LIVE 0) ((List.range 32).filter c.laneOn).length).put (SCN_x_STATUS.LANES_LIVE 1)
    ((List.range 32).filter (fun i => c.laneOn (32 + i))).length

/-! The tessellation map (R282 to R287). -/

/-- A pixel as one number. -/
def pixKey (x y : Nat) : Nat := y * 65536 + x
def keyCol (k : Nat) : Nat := k % 65536
def keyRow (k : Nat) : Nat := k / 65536

/-- Pattern entry `j` of a half as its 16 bits. -/
def Chip.patEntry (c : Chip) (half j : Nat) : Nat :=
  (c.reg (0x84000 + 0x8000 * half + 4 * (j / 2))).toNat / 2 ^ (16 * (j % 2)) % 2 ^ 16

def Chip.rowStep (c : Chip) (l : Nat) : Nat := max 1 (c.get (SCN_x_LANEi_W1.ROW_STEP (l / 32) (l % 32)))

/-- The tile row of lane `l` at scan row `r` (R283). -/
def Chip.laneRow (c : Chip) (l r : Nat) : Nat :=
  c.get (SCN_x_LANEi_W0.Y_BASE (l / 32) (l % 32)) + r * c.rowStep l

/-- What position `j` of lane `l` drives in each row: the column and the channel (R283). -/
def Chip.laneCol (c : Chip) (l j : Nat) : Option (Nat × Nat) :=
  let e := c.patEntry (l / 32) (c.get (SCN_x_LANEi_W1.PAT_START (l / 32) (l % 32)) + j)
  if c.laneEn l && !e.testBit 14 then
    some (c.get (SCN_x_LANEi_W0.X_BASE (l / 32) (l % 32)) + e % 4096, e / 4096 % 4)
  else none

/-- The columns and channels that a lane drives, position by position. -/
def Chip.laneCols (c : Chip) (l : Nat) : List (Nat × Nat) :=
  (List.range (16 * c.drivers)).filterMap (c.laneCol l)

/-- The channels that a lane drives, as pixKey × 4 + channel. -/
def Chip.laneKeys (c : Chip) (l : Nat) : List Nat :=
  let cols := c.laneCols l
  (List.range c.rows).flatMap (fun r => cols.map (fun xc => pixKey xc.1 (c.laneRow l r) * 4 + xc.2))

/-- A sorted list without repeats. -/
def dedupSorted (l : List Nat) : List Nat :=
  (l.foldl (fun acc a => if acc.head? = some a then acc else a :: acc) []).reverse

def sortNat (l : List Nat) : List Nat := l.mergeSort

/-- The pixels that a lane drives. -/
def Chip.lanePixels (c : Chip) (l : Nat) : List Nat :=
  let xs := dedupSorted (sortNat ((c.laneCols l).map (·.1)))
  (List.range c.rows).flatMap (fun r => xs.map (fun x => pixKey x (c.laneRow l r)))

/-- The pixels that region `q` holds, in raster order (R198, R283). -/
def Chip.regionPixels (c : Chip) (q : Nat) : List Nat :=
  dedupSorted (sortNat ((List.range 16).flatMap (fun i => c.lanePixels (16 * q + i))))

/-- Every pixel driven, in raster order. -/
def Chip.drivenPixels (c : Chip) : List Nat := dedupSorted (sortNat (allLanes.flatMap c.lanePixels))

/-- P_max of R197. -/
def Chip.pMax (c : Chip) : Nat := ((List.range 4).map (fun q => (c.regionPixels q).length)).foldl max 0

/-- P_t of R284. -/
def Chip.pDriven (c : Chip) : Nat := c.drivenPixels.length

/-- The pixels driven by lanes that survive containment (R35). -/
def Chip.pLive (c : Chip) : Nat :=
  (dedupSorted (sortNat ((allLanes.filter c.laneOn).flatMap c.lanePixels))).length

/-- R284, R285, R287: whether the map is valid under the timing set. -/
def Chip.mapOk (c : Chip) : Bool :=
  let w := c.get SCN_GEOM.TILE_W
  let h := c.get SCN_GEOM.TILE_H
  let mer := c.get SCN_MERIDIAN.MERIDIAN
  let lanes := allLanes.filter c.laneEn
  let keys := lanes.flatMap c.laneKeys
  decide (1 ≤ w ∧ 1 ≤ h ∧ mer ≤ w)
    && decide ((dedupSorted (sortNat keys)).length = keys.length)
    && allLanes.all (fun l =>
      decide (c.get (SCN_x_LANEi_W1.PAT_START (l / 32) (l % 32)) + 16 * c.drivers - 1 ≤ 4095) && decide (c.rowStep l ≤ 64))
    && lanes.all (fun l =>
      decide (1 ≤ c.rows ∧ c.laneRow l (c.rows - 1) < h)
        && (c.laneCols l).all (fun xc =>
          decide (xc.1 < w) && (if l < 32 then decide (xc.1 < mer) else decide (mer ≤ xc.1))
            && decide (xc.2 < c.channels)))
    && decide (((List.range 4).map (fun q => (c.regionPixels q).length)).sum = c.pDriven)

/-! R35, R36, R280: the timing set. -/

/-- Whether a bank with an enabled lane is supplied at 3.3 V (R278, R313). -/
def Chip.slowBank (c : Chip) : Bool :=
  allLanes.any (fun l => c.laneEn l && c.bit (CHN_STATUS.BANK_3V3.bit (l / 16)))

/-- The sizing rule of R35 over the surviving lanes and pixels. -/
def Chip.sizingOk (c : Chip) : Bool :=
  let p := c.period
  let lanes := (allLanes.filter c.laneOn).length
  decide (p.2 * c.subframes * c.pLive * c.channels * c.planes * 100 * c.get SCN_TSET1.SCLK_DIV
    ≤ lanes * 1600000000 * 86 * p.1)

/-- The conditions of R277, R278, R279, R280, R294 and R318 that need no map. -/
def Chip.tsetOk (c : Chip) : Bool :=
  let dead := c.get SCN_ROWCHG.DEAD
  (periodOf (c.get SCN_TSET0.FRAME_RATE)).isSome
    && decide (1 ≤ c.subframes ∧ c.subframes ≤ 32)
    && decide (8 ≤ c.planes ∧ c.planes ≤ 16)
    && decide (1 ≤ c.rows ∧ c.rows ≤ (if c.bit SCN_TSET0.ROW_MODE then 64 else 32))
    && decide (4 ≤ c.get SCN_TSET1.SCLK_DIV)
    && (!c.slowBank || decide (16 ≤ c.get SCN_TSET1.SCLK_DIV))
    && decide (1 ≤ c.drivers ∧ c.drivers ≤ 48)
    && decide (1 ≤ dead ∧ c.get SCN_ROWCHG2.DIS_LEN + c.get SCN_ROWCHG2.PCHG_LEN ≤ dead)
    && decide (4 ≤ c.get SCN_TSET1.LAT_LEN ∧ 4 ≤ c.get SCN_TSET1.XFER)
    && decide (1 ≤ (c.get SCN_TSET2.UNIT : Int) + c.getS SCN_OE.OE_TRIM)
    && (!c.doubleLatch || (c.windows.all (fun w =>
      w.length != 2 || decide (c.pulse (w.headD 0) + c.tGap ≤ c.tShift))))
    && decide (c.rowNeed ≤ c.tRow)
    && decide (1 ≤ c.get CHN_DET.DET_W)
    && decide ((2 * c.tGap + c.get CHN_DET.DET_W * tickQ : Nat) ≤ c.detLen)

/-! The driver commands and the readback sequence (R312, R314, R319). -/

/-- The widths of the commands that can be issued (R312). -/
def Chip.issuedWidths (c : Chip) : List Nat :=
  let tests := c.get CHN_CTRL.TESTS
  [c.get CHN_LATW0.XFER_W]
    ++ (if c.doubleLatch then [c.get CHN_LATW0.LOAD_W] else [])
    ++ (if c.bit CHN_CTRL.DET_EN then [c.get CHN_LATW0.TEST_W] else [])
    ++ (if tests.testBit 0 then [c.get CHN_LATW0.COPY_OPEN_W] else [])
    ++ (if tests.testBit 1 then [c.get CHN_LATW1.COPY_SHORT_W] else [])
    ++ (((List.range 4).filter (fun w => c.bit (CHN_CFGw.EN w))).map (fun w => c.get (CHN_CFGw.CMD_W w)))

/-- Whether a list has no repeats. -/
def noRepeats : List Nat → Bool
  | [] => true
  | a :: l => !l.contains a && noRepeats l

/-- `RB_NEED` (R319). -/
def Chip.rbNeed (c : Chip) : Nat :=
  let tests := c.get CHN_CTRL.TESTS
  let n := 16 * c.drivers
  let copies := (if tests.testBit 0 then [c.get CHN_LATW0.COPY_OPEN_W] else [])
    ++ (if tests.testBit 1 then [c.get CHN_LATW1.COPY_SHORT_W] else [])
  let cfgs := if c.bit CHN_CTRL.CFG_REFRESH then
      ((List.range 4).filter (fun w => c.bit (CHN_CFGw.EN w))).map (fun w => c.get (CHN_CFGw.CMD_W w)) else []
  let cmds := copies ++ cfgs
  let bits := n * cmds.length + (if copies.isEmpty then 0 else 16)
  cmds.sum * tickQ + 2 * cmds.length * c.tGap + bits * (c.get CHN_RB.RB_DIV * 25)

/-- R312, R314, R319: whether the chain settings are valid. -/
def Chip.chainOk (c : Chip) : Bool :=
  let xfer := c.get SCN_TSET1.XFER
  decide (c.get CHN_LATW0.LOAD_W ≤ c.get SCN_TSET1.LAT_LEN - 1)
    && decide (c.get CHN_LATW0.XFER_W ≤ xfer - 1)
    && decide (c.get CHN_LATW0.TEST_W ≤ xfer - 1)
    && decide (c.get CHN_LATW0.LOAD_W ≠ 0 ∧ c.get CHN_LATW0.XFER_W ≠ 0 ∧ c.get CHN_LATW0.TEST_W ≠ 0
      ∧ c.get CHN_LATW0.COPY_OPEN_W ≠ 0 ∧ c.get CHN_LATW1.COPY_SHORT_W ≠ 0)
    && (List.range 4).all (fun w => c.bit (CHN_CFGw.CMD_W w))
    && noRepeats c.issuedWidths
    && decide (32 ≤ c.get CHN_RB.RB_DIV)
    && decide ((c.rbNeed : Int) ≤ ((c.rows : Int) - 1) * c.tRow + c.wdStart)

/-! Facets (R271 to R273). -/

def Chip.facetEn (c : Chip) (f : Nat) : Bool := (c.get COL_CTRL.FACET_EN).testBit f

/-- The bits of `SF_MASK` below S. -/
def Chip.facetMask (c : Chip) (f : Nat) : Nat := c.get (COL_FACETf_MASK.SF_MASK f) % 2 ^ c.subframes

/-- The facet that owns sub-frame `k` (R271). -/
def Chip.owner (c : Chip) (k : Nat) : Option Nat :=
  (List.range 4).find? (fun f => c.facetEn f && (c.facetMask f).testBit k)

/-- N_f (R269). -/
def Chip.facetCount (c : Chip) (f : Nat) : Nat := popCount (c.facetMask f) 32

/-- R271: whether the masks are valid under S. -/
def Chip.masksOk (c : Chip) : Bool :=
  let en := (List.range 4).filter c.facetEn
  en.all (fun f => decide (c.facetMask f ≠ 0)
      && decide (c.get (COL_FACETf_WIN.WIN_MASK f) &&& c.facetMask f = c.get (COL_FACETf_WIN.WIN_MASK f))
      && en.all (fun g => f == g || decide (c.facetMask f &&& c.facetMask g = 0)))

/-- Whether a sub-frame below S is unowned, `RB_READY` (R316). -/
def Chip.rbReady (c : Chip) : Bool := (List.range c.subframes).any (fun k => (c.owner k).isNone)

/-- m of R269, before `DITHER_EN`. -/
def Chip.ditherM (c : Chip) (f : Nat) : Nat := min (Nat.log2 (c.facetCount f)) (18 - c.planes)

/-! Contexts. -/

def Chip.ctxEn (c : Chip) (x : Nat) : Bool := c.bit (STC_CTRL.EN x)
def allCtx : List Nat := List.range 512

/-- Whether a context is neither fenced nor quiesced (R452, R455). -/
def Chip.ctxLive (c : Chip) (x : Nat) : Bool :=
  !c.bit ((ERR_FENCE_CTX.CTX_FENCED (x / 32)).bit (x % 32)) && !c.bit ((ERR_GATE_CTX.CTX_GATED (x / 32)).bit (x % 32))

/-- `TYPE` codes of contexts. -/
def ctxSt2110 : Nat := 0
def ctxLuevevan : Nat := 1
def ctxSacn : Nat := 2
def ctxDmx : Nat := 3

def Chip.ctxType (c : Chip) (x : Nat) : Nat := c.get (STC_CTRL.TYPE x)

/-- Whether a context is a stream: ST 2110 or Luevevan. -/
def Chip.ctxStream (c : Chip) (x : Nat) : Bool := decide (c.ctxType x ≤ 1)

/-- Whether a context writes pixels (R169). -/
def Chip.ctxPixels (c : Chip) (x : Nat) : Bool := c.ctxStream x || !c.bit (STC_CTRL.TARGET x)

def Chip.ctxMaps (c : Chip) (x : Nat) : Bool := !c.ctxPixels x

def Chip.ctxScaled (c : Chip) (x : Nat) : Bool := c.ctxPixels x && c.bit (STC_CTRL.SCALE x)

/-- The destination rectangle: column, row, width, height (R178 to R180). -/
def Chip.ctxDst (c : Chip) (x : Nat) : Nat × Nat × Nat × Nat :=
  let own := c.bit (STC_CTRL.SCALE x) || !c.ctxStream x
  (c.get (STC_DST_ORG.DST_X x), c.get (STC_DST_ORG.DST_Y x),
    if own then c.get (STC_DST_SIZE.DST_W x) else c.get (STC_WIN_SIZE.WIN_W x),
    if own then c.get (STC_DST_SIZE.DST_H x) else c.get (STC_WIN_SIZE.WIN_H x))

/-- Units of the merge window (R176). -/
def Chip.mergeUnits (c : Chip) (x : Nat) : Nat :=
  if c.ctxStream x then min 16 (max 1 (c.get (STC_CTRL.MERGE_WIN x))) else 0

/-- `RATE_DIV`, 0 acting as 1. -/
def Chip.rateDiv (c : Chip) (x : Nat) : Nat := max 1 (c.get (STC_FORMAT.RATE_DIV x))

/-- An address table entry as a 128-bit number. -/
def Chip.tableAddr (c : Chip) (i : Nat) : Nat := c.get128 (fun w => STC_ADDRi.ADDR i w)

/-- The standard universe group (R152). -/
def universeGroup (u : Nat) : Nat := mapped4 (0xEFFF0000 + u % 2 ^ 16)

/-- The destination address of a context on a port, `none` for the port's own unicast address (R151, R152). -/
def Chip.ctxGroup (c : Chip) (x p : Nat) : Option Nat :=
  let g := c.get (STC_ADDR_P.GROUP_IDX x p)
  if g ≠ 0 then some (c.tableAddr g)
  else if c.ctxType x = ctxSacn then some (universeGroup (c.get (STC_MATCH.STREAM_ID x)))
  else none

/-- The source of a context on a port, `none` for any (R151). -/
def Chip.ctxSource (c : Chip) (x p : Nat) : Option Nat :=
  let g := c.get (STC_ADDR_P.SOURCE_IDX x p)
  if g = 0 then none else some (c.tableAddr g)

def Chip.ctxOnPort (c : Chip) (x p : Nat) : Bool := (c.get (STC_CTRL.PATHS x)).testBit p

/-- R151, R154: whether two contexts share a key on a port, a source of 0 matching any. -/
def Chip.shareKey (c : Chip) (x y p : Nat) : Bool :=
  c.ctxOnPort x p && c.ctxOnPort y p && c.ctxType x == c.ctxType y && c.ctxType x != ctxDmx
    && c.ctxGroup x p == c.ctxGroup y p
    && (c.ctxSource x p == c.ctxSource y p || (c.ctxSource x p).isNone || (c.ctxSource y p).isNone)
    && c.get (STC_MATCH.UDP_PORT x) == c.get (STC_MATCH.UDP_PORT y)
    && c.get (STC_MATCH.STREAM_ID x) == c.get (STC_MATCH.STREAM_ID y)

def overlap (a b : Nat × Nat × Nat × Nat) : Bool :=
  decide (a.1 < b.1 + b.2.2.1 ∧ b.1 < a.1 + a.2.2.1 ∧ a.2.1 < b.2.1 + b.2.2.2 ∧ b.2.1 < a.2.1 + a.2.2.2)

/-- The ratio condition of R180. -/
def ratioOk (dst win : Nat) : Bool := decide (win ≤ 4 * dst ∧ dst ≤ 4 * win ∧ 1 ≤ win)

/-- R154, R179, R180, R260: whether an enabled context is valid by itself. -/
def Chip.ctxOk (c : Chip) (x : Nat) : Bool :=
  let d := c.ctxDst x
  (c.ctxType x != ctxSt2110 || decide (c.get (STC_FORMAT.SAMPLING x) < 6))
    && decide (c.get (STC_FORMAT.TRANSFER x) < 4)
    && decide (c.get (STC_FORMAT.RATE_DIV x) < 5)
    && (c.get (STC_FORMAT.CHANNELS x) == c.get SCN_GEOM.TILE_RGBW)
    && (!c.ctxPixels x || decide (d.1 + d.2.2.1 ≤ c.get SCN_GEOM.TILE_W ∧ d.2.1 + d.2.2.2 ≤ c.get SCN_GEOM.TILE_H))
    && (!c.ctxScaled x || (ratioOk d.2.2.1 (c.get (STC_WIN_SIZE.WIN_W x))
      && ratioOk d.2.2.2 (c.get (STC_WIN_SIZE.WIN_H x))))
    && (c.ctxStream x || !c.ctxPixels x ||
      (let n := c.get (STC_WIN_SIZE.WIN_W x)
       let per := c.channels * (if c.bit (STC_FORMAT.SLOT16 x) then 2 else 1)
       decide (n = c.get (STC_DST_SIZE.DST_W x) * c.get (STC_DST_SIZE.DST_H x))
         && decide (1 ≤ c.get (STC_WIN_ORG.WIN_X x) ∧ c.get (STC_WIN_ORG.WIN_X x) + n * per - 1 ≤ 512)))

/-- Whether every pair of a list satisfies `p`. -/
def allPairs (p : Nat → Nat → Bool) : List Nat → Bool
  | [] => true
  | a :: l => l.all (p a) && allPairs p l

/-- R154, R260: whether the enabled contexts are valid. -/
def Chip.contextsOk (c : Chip) : Bool :=
  let en := allCtx.filter c.ctxEn
  en.all c.ctxOk
    && allPairs (fun x y => !c.shareKey x y 0 && !c.shareKey x y 1
      && !(c.ctxPixels x && c.ctxPixels y && c.get (STC_CTRL.FEED x) == c.get (STC_CTRL.FEED y)
        && overlap (c.ctxDst x) (c.ctxDst y))) en
    && decide ((en.map c.mergeUnits).sum ≤ 2048)

/-- The enabled contexts that write feed `f`. -/
def Chip.feedCtx (c : Chip) (f : Nat) : List Nat :=
  allCtx.filter (fun x => c.ctxEn x && c.ctxPixels x && c.get (STC_CTRL.FEED x) == f)

/-- r_f of R201. -/
def Chip.feedRate (c : Chip) (f : Nat) : Nat :=
  match (c.feedCtx f).filter c.ctxStream with
  | [] => 1
  | x :: _ => c.rateDiv x

/-! Strips (R183, R220). -/

/-- `STRIP_LINES` of a feed in rows. -/
def Chip.stripLines (c : Chip) (f : Nat) : Nat :=
  match c.get (STC_FEEDf_CFG.STRIP_LINES f) with
  | 0 => 8
  | 2 => 32
  | _ => 16

/-- The first column and the width of a half. -/
def Chip.halfCols (c : Chip) (h : Nat) : Nat × Nat :=
  let m := c.get SCN_MERIDIAN.MERIDIAN
  if h = 0 then (0, m) else (m, c.get SCN_GEOM.TILE_W - m)

/-- The strips of one half of a feed: none where the half has no column. -/
def Chip.halfStrips (c : Chip) (f h : Nat) : Nat :=
  if (c.halfCols h).2 = 0 then 0 else (c.get SCN_GEOM.TILE_H + c.stripLines f - 1) / c.stripLines f

/-- G_f of R229. -/
def Chip.stripCount (c : Chip) (f : Nat) : Nat := c.halfStrips f 0 + c.halfStrips f 1

/-- The rectangle of a strip: half A's strips first (R246). -/
def Chip.stripRect (c : Chip) (f s : Nat) : Nat × Nat × Nat × Nat :=
  let na := c.halfStrips f 0
  let h := if s < na then 0 else 1
  let i := if s < na then s else s - na
  let cols := c.halfCols h
  let y := i * c.stripLines f
  (cols.1, y, cols.2, min (c.stripLines f) (c.get SCN_GEOM.TILE_H - y))

/-- The half of a strip. -/
def Chip.stripHalf (c : Chip) (f s : Nat) : Nat := if s < c.halfStrips f 0 then 0 else 1

/-- The pixels of a rectangle in raster order. -/
def rectPixels (r : Nat × Nat × Nat × Nat) : List Nat :=
  (List.range r.2.2.2).flatMap (fun dy => (List.range r.2.2.1).map (fun dx => pixKey (r.1 + dx) (r.2.1 + dy)))

/-- Whether column `x` and row `y` lie in a rectangle. -/
def inArea (r : Nat × Nat × Nat × Nat) (x y : Nat) : Bool :=
  decide (r.1 ≤ x ∧ x < r.1 + r.2.2.1 ∧ r.2.1 ≤ y ∧ y < r.2.1 + r.2.2.2)

/-- Whether the pixel of key `k` lies in a rectangle. -/
def inRect (r : Nat × Nat × Nat × Nat) (k : Nat) : Bool := inArea r (keyCol k) (keyRow k)

/-- R220: whether every enabled feed's strips fit. -/
def Chip.stripsOk (c : Chip) : Bool :=
  (List.range 4).all (fun f => !c.facetEn f ||
    (decide (c.stripLines f * max (c.halfCols 0).2 (c.halfCols 1).2 ≤ 8192) && decide (c.stripCount f ≤ 256)))

/-! The memory plan (R197 to R201). -/

def granules (bytes : Nat) : Nat := (bytes + 4095) / 4096

/-- E_f of R199. -/
def Chip.scaleBytes (c : Chip) (f : Nat) : Nat :=
  (((c.feedCtx f).filter c.ctxScaled).map (fun x =>
    c.get (STC_WIN_SIZE.WIN_W x) * c.get (STC_WIN_SIZE.WIN_H x) * c.channels * 2)).sum

def Chip.calGran (_c : Chip) (pm : Nat) : Nat := granules (16 * pm)
def Chip.stgGran (c : Chip) (pm : Nat) : Nat := granules ((pm * c.channels * c.planes + 7) / 8)

/-- The granules of one slot of a feed; a feed whose facet is disabled takes none. -/
def Chip.slotGran (c : Chip) (pm f : Nat) : Nat :=
  if c.facetEn f then granules (pm * c.channels * 2 + (c.scaleBytes f + 3) / 4) else 0

def Chip.slots (c : Chip) (f : Nat) : Nat := c.get (FST_FEEDf_CFG.SLOTS f)
def Chip.stills (c : Chip) (f : Nat) : Nat := c.get (FST_FEEDf_CFG.STILLS f)
def Chip.delay (c : Chip) (f : Nat) : Nat := c.get (FST_FEEDf_CFG.DELAY f)
def Chip.lead (c : Chip) (f : Nat) : Nat := c.get (FST_FEEDf_CFG.LEAD f)

/-- The terms of the planner rule (R199): P_max, C, B, and E_f, S_f and V_f of every feed whose facet is enabled. -/
def Chip.planTerms (c : Chip) (pm : Nat) : List Nat :=
  [pm, c.channels, c.planes] ++
    (List.range 4).flatMap (fun f => if c.facetEn f then [c.scaleBytes f, c.slots f, c.stills f] else [0, 0, 0])

/-- The granules of a feed. -/
def Chip.feedGran (c : Chip) (pm f : Nat) : Nat := c.slotGran pm f * (c.slots f + c.stills f)

/-- The granules in use per region. -/
def Chip.planUsed (c : Chip) (pm : Nat) : Nat :=
  c.calGran pm + 2 * c.stgGran pm + ((List.range 4).map (c.feedGran pm)).sum

/-- The offset of ring slot 0 of a feed (R197). -/
def Chip.slot0Ofs (c : Chip) (pm f : Nat) : Nat :=
  c.calGran pm + 2 * c.stgGran pm + ((List.range f).map (c.feedGran pm)).sum

/-- S_min of R201. -/
def Chip.slotsMin (c : Chip) (f : Nat) : Nat := (c.delay f + c.lead f + c.feedRate f - 1) / c.feedRate f + 1

/-- R201 and the ranges of R216. -/
def Chip.feedOk (c : Chip) (f : Nat) : Bool :=
  decide (1 ≤ c.delay f ∧ c.delay f ≤ 8) && decide (c.lead f ≤ 2) && decide (c.slots f ≠ 1)
    && (!c.bit (FST_FEEDf_CFG.FALLBACK f) || decide (c.get (FST_FEEDf_CFG.FB_STILL f) < c.stills f))
    && (let src := c.get (FST_FEEDf_SHOW.SHOW_SRC f)
        if src < 4 then decide (src < 2) else decide (src - 4 < c.stills f))
    && (!c.facetEn f || decide (c.slotsMin f ≤ c.slots f))
    && ((c.feedCtx f).filter c.ctxStream).all (fun x => c.rateDiv x == c.feedRate f)

/-- The planner rule of R199. -/
def Chip.planOk (c : Chip) (pm : Nat) : Bool := decide (c.planUsed pm ≤ 1216)

/-- R197, R216: the layout registers. -/
def Chip.showLayout (c : Chip) (pm : Nat) : Chip :=
  let c' := (((((c.put FST_PLAN.USED (c.planUsed pm)).put FST_PLAN.FREE (1216 - c.planUsed pm)).put
    FST_LAYOUT_CAL.CAL_OFS 0).put FST_LAYOUT_CAL.CAL_GRAN (c.calGran pm)).put
    FST_LAYOUT_STG.STG_OFS (c.calGran pm)).put FST_LAYOUT_STG.STG_GRAN (c.stgGran pm)
  let c' := c'.put FST_REGION.P_MAX pm
  (List.range 4).foldl (fun d f =>
    if c.facetEn f then
      (d.put (FST_FEEDf_LAYOUT.SLOT0_OFS f) (c.slot0Ofs pm f)).put (FST_FEEDf_LAYOUT.SLOT_GRAN f) (c.slotGran pm f)
    else (d.put (FST_FEEDf_LAYOUT.SLOT0_OFS f) 0).put (FST_FEEDf_LAYOUT.SLOT_GRAN f) 0) c'

/-! The item rule and the load (R229, R241, R244). -/

/-- The contexts that feed the bridge. -/
def Chip.mapCtx (c : Chip) : List Nat := allCtx.filter (fun x => c.ctxEn x && c.ctxMaps x)

/-- I of R229. -/
def Chip.itemDemand (c : Chip) : Nat :=
  let en := (List.range 4).filter c.facetEn
  (en.map (fun f => c.slotsMin f * c.stripCount f * (if (c.feedCtx f).any c.ctxScaled then 2 else 1))).sum
    + 4 * (en.map c.stripCount).foldl max 0 + 4 + c.mapCtx.length

/-- The sub-frames per frame that need items under shed operation (R242): those whose staging buffer does not already
hold the same facet. -/
def Chip.shedSubs (c : Chip) : Nat :=
  ((List.range c.subframes).foldl (fun (st : Nat × Option Nat × Option Nat) k =>
    match c.owner k with
    | none => st
    | some f =>
      if k % 2 = 0 then if st.2.1 = some f then st else (st.1 + 1, some f, st.2.2)
      else if st.2.2 = some f then st else (st.1 + 1, st.2.1, some f)) (0, none, none)).1

/-- The frame rate F. -/
def Chip.frameRate (c : Chip) : Rat := (c.period.2 : Rat) / (c.period.1 : Rat)

/-- The instants per second at which a DMX port sends (R397). -/
def Chip.sendRate (c : Chip) (p : Nat) : Rat :=
  if c.bit (BRG_PORTp_CFG.TX_SYNC p) then c.frameRate / (max 1 (c.get (BRG_PORTp_TIME.TX_EVERY p)) : Nat)
  else (1000000 : Rat) / (max 1 (c.get (BRG_PORTp_PERIOD.TX_PERIOD_US p)) : Nat)

/-- c_m of R241: the channels per second that the rules of context `x` give to the ports (log entry 22). -/
def Chip.mapRate (c : Chip) (x : Nat) : Rat :=
  ((List.range 1024).map (fun i =>
    if c.bit (BRG_RULEi_W0.EN i) && c.get (BRG_RULEi_W0.SRC_CTX i) == x then
      ((c.get (BRG_RULEi_W0.COUNT i) + 1 : Nat) : Rat) * c.sendRate (c.get (BRG_RULEi_W1.DST_PORT i)) else 0)).sum

/-- The pixels of the fenced regions, whose work is gone (R195, R245). -/
def Chip.lostPixels (c : Chip) : List Nat :=
  ((List.range 4).filter (fun q => c.bit (ERR_FENCE_BLOCK.REGION_FENCED.bit q))).flatMap c.regionPixels

/-- The pixels of a context's destination that no fenced region holds. -/
def Chip.dstArea (c : Chip) (x : Nat) : Nat :=
  let d := c.ctxDst x
  d.2.2.1 * d.2.2.2 - (c.lostPixels.filter (inRect d)).length

/-- The pixels that a feed's contexts cover, and those of its scaled contexts. -/
def Chip.coverArea (c : Chip) (f : Nat) : Nat := ((c.feedCtx f).map c.dstArea).sum

def Chip.scaledArea (c : Chip) (f : Nat) : Nat := (((c.feedCtx f).filter c.ctxScaled).map c.dstArea).sum

/-- U of R241, with the sub-frame term taken for `subs` sub-frames per frame, over `n` live cores. -/
def Chip.load (c : Chip) (n subs : Nat) : Rat :=
  let fr := c.frameRate
  let pt : Rat := c.pLive
  let feeds := (((List.range 4).filter c.facetEn).map (fun f =>
    fr / (c.feedRate f : Rat) * ((c.coverArea f : Rat) / 8 + (c.scaledArea f : Rat) / 12))).sum
  let det := if c.bit CHN_CTRL.DET_EN && c.rbReady then
      fr / (max 1 (c.get CHN_CTRL.DET_EVERY) : Nat) * pt / 32 else 0
  let maps := (c.mapCtx.map c.mapRate).sum / 16
  (feeds + fr * (subs : Rat) * pt * (1 / 32 + 1 / 24) + det + maps) / 1000000 / (max 1 n : Nat)

/-- A load in units of 0.1 %, to the nearest, saturating at 2,047. -/
def loadField (u : Rat) : Nat := min 2047 (u * 1000 + 1 / 2).floor.toNat

/-- R241, R242: the load registers, and `ITEM_DEMAND`. -/
def Chip.showLoad (c : Chip) (n : Nat) : Chip :=
  ((c.put SCH_LOAD.LOAD_EST (loadField (c.load n c.subframes))).put SCH_LOAD.LOAD_SHED_EST
    (loadField (c.load n c.shedSubs))).put SCH_ITEMS.ITEM_DEMAND c.itemDemand

/-- R244: whether the load is within the live cores. -/
def Chip.loadOk (c : Chip) (n : Nat) : Bool :=
  if c.get SCH_CTRL.SHED_MODE = 1 then decide (c.load n c.subframes ≤ 1) else decide (c.load n c.shedSubs ≤ 1)

/-- The `SHED_AT` threshold. -/
def Chip.shedAt (c : Chip) : Rat := (min 100 (max 50 (c.get SCH_CTRL.SHED_AT)) : Nat) / 100

end Sys2Proof.Machine
end

