-- ==== Sys2Proof/Machine/Colour.lean ====
section
/-!
DEFINITION. Colour processing (R253 to R276): the arithmetic of CORRECT and DITHER, the gamut matrices, zone
temperatures, bin gain sets and derating.
-/

namespace Sys2Proof.Machine

open Sys2Proof

/-! Steps 1 to 4 (R254 to R258). -/

/-- Step 1 for R, G, B, W or Y (R254). -/
def normLuma (full : Bool) (v : Nat) : Rat :=
  if full then (v : Rat) / 65535 else clampQ 0 1 (((v : Rat) - 4096) / 56064)

/-- Step 1 for Cb or Cr. -/
def normChroma (full : Bool) (v : Nat) : Rat :=
  if full then ((v : Rat) - 32768) / 65535 else clampQ (-1 / 2) (1 / 2) (((v : Rat) - 32768) / 57344)

/-- The intermediate range of R253. -/
def sat4 (x : Rat) : Rat := clampQ (-4) 4 x

/-- Step 2 (R255): the non-constant-luminance matrix with the weights of red and blue. -/
def fromYCbCr (kr kb : Rat) (y cb cr : Rat) : List Rat :=
  let r := y + 2 * (1 - kr) * cr
  let b := y + 2 * (1 - kb) * cb
  [r, (y - kr * r - kb * b) / (1 - kr - kb), b]

/-- The ST 2084 EOTF in cd/m² (R256). -/
def pqEotf (v : Rat) : Rat :=
  let e := powQ (clampQ 0 1 v) (32 / 2523)
  let n := max 0 (e - 3424 / 4096)
  10000 * powQ (n / (2413 / 128 - 2392 / 128 * e)) (16384 / 2610)

/-- The BT.2100 HLG inverse OETF (R256). -/
def hlgInverse (v : Rat) : Rat :=
  let v := clampQ 0 1 v
  if v ≤ 1 / 2 then v * v / 3
  else (expQ ((v - 55991073 / 100000000) / (17883277 / 100000000)) + 28466892 / 100000000) / 12

/-- The system gamma of R256. -/
def hlgGamma (peak : Nat) : Rat := clampQ 1 (3 / 2) (6 / 5 + 42 / 100 * log10Q ((peak : Rat) / 1000))

/-- Step 3 (R256). -/
def toLinear (transfer pqPeak hlgPeak : Nat) (v : List Rat) : List Rat :=
  match transfer with
  | 1 => v.map (fun x => powQ x (12 / 5))
  | 2 => v.map (fun x => pqEotf x / (pqPeak : Rat))
  | 3 =>
    let e := v.map hlgInverse
    let ys := 2627 / 10000 * e.getD 0 0 + 6780 / 10000 * e.getD 1 0 + 593 / 10000 * e.getD 2 0
    let k := powQ ys (hlgGamma hlgPeak - 1)
    e.map (fun x => x * k)
  | _ => v

/-- A 3 × 3 matrix in rows, applied to a vector. -/
def mat3 (m : List Rat) (v : List Rat) : List Rat :=
  (List.range 3).map (fun i =>
    m.getD (3 * i) 0 * v.getD 0 0 + m.getD (3 * i + 1) 0 * v.getD 1 0 + m.getD (3 * i + 2) 0 * v.getD 2 0)

def mul3 (a b : List Rat) : List Rat :=
  (List.range 9).map (fun n =>
    let i := n / 3
    let j := n % 3
    a.getD (3 * i) 0 * b.getD j 0 + a.getD (3 * i + 1) 0 * b.getD (3 + j) 0 + a.getD (3 * i + 2) 0 * b.getD (6 + j) 0)

/-- The inverse of a 3 × 3 matrix, `none` where it has none. -/
def inv3 (m : List Rat) : Option (List Rat) :=
  let g := fun i => m.getD i 0
  let c0 := g 4 * g 8 - g 5 * g 7
  let c1 := g 5 * g 6 - g 3 * g 8
  let c2 := g 3 * g 7 - g 4 * g 6
  let d := g 0 * c0 + g 1 * c1 + g 2 * c2
  if d = 0 then none
  else some ([c0, g 2 * g 7 - g 1 * g 8, g 1 * g 5 - g 2 * g 4,
    c1, g 0 * g 8 - g 2 * g 6, g 2 * g 3 - g 0 * g 5,
    c2, g 1 * g 6 - g 0 * g 7, g 0 * g 4 - g 1 * g 3].map (· / d))

/-- The XYZ of a chromaticity at luminance 1. -/
def xyzOf (x y : Rat) : Option (List Rat) := if y = 0 then none else some [x / y, 1, (1 - x - y) / y]

/-- The RGB-to-XYZ matrix of primaries and a white (R257): (x, y) of red, green, blue and white. -/
def rgbToXyz (p : List (Rat × Rat)) : Option (List Rat) :=
  let g := fun i => p.getD i (0, 0)
  match xyzOf (g 0).1 (g 0).2, xyzOf (g 1).1 (g 1).2, xyzOf (g 2).1 (g 2).2, xyzOf (g 3).1 (g 3).2 with
  | some r, some gr, some b, some w =>
    let m := [r.getD 0 0, gr.getD 0 0, b.getD 0 0, r.getD 1 0, gr.getD 1 0, b.getD 1 0, r.getD 2 0, gr.getD 2 0,
      b.getD 2 0]
    match inv3 m with
    | some mi =>
      let s := mat3 mi w
      some ((List.range 9).map (fun n => m.getD n 0 * s.getD (n % 3) 0))
    | none => none
  | _, _, _, _ => none

/-- The Bradford cone matrix. -/
def bradford : List Rat :=
  [8951 / 10000, 2664 / 10000, -1614 / 10000, -7502 / 10000, 17135 / 10000, 367 / 10000, 389 / 10000, -685 / 10000,
    10296 / 10000]

def d65 : Rat × Rat := (3127 / 10000, 3290 / 10000)

/-- The primaries and the D65 white of a source: 0 BT.709, 1 BT.2020, 2 DCI-P3. -/
def sourcePrimaries : Nat → List (Rat × Rat)
  | 0 => [(64 / 100, 33 / 100), (30 / 100, 60 / 100), (15 / 100, 6 / 100), d65]
  | 1 => [(708 / 1000, 292 / 1000), (170 / 1000, 797 / 1000), (131 / 1000, 46 / 1000), d65]
  | _ => [(680 / 1000, 320 / 1000), (265 / 1000, 690 / 1000), (150 / 1000, 60 / 1000), d65]

/-- The adaptation A of R257 from D65 to a white. -/
def adaptation (w : Rat × Rat) : Option (List Rat) :=
  match xyzOf d65.1 d65.2, xyzOf w.1 w.2, inv3 bradford with
  | some s, some t, some bi =>
    let cs := mat3 bradford s
    let ct := mat3 bradford t
    let diag := [ct.getD 0 0 / cs.getD 0 0, 0, 0, 0, ct.getD 1 0 / cs.getD 1 0, 0, 0, 0, ct.getD 2 0 / cs.getD 2 0]
    some (mul3 bi (mul3 diag bradford))
  | _, _, _ => none

/-- Whether the target white is D65 in units of 2^-16. -/
def Chip.whiteD65 (c : Chip) : Bool := c.get (COL_TARGET.X 3) == 0x500D && c.get (COL_TARGET.Y 3) == 0x5439

/-- The calibration target (R257); a white written with the code of D65 is D65 itself, so that a source white maps to
the target white. -/
def Chip.target (c : Chip) : List (Rat × Rat) :=
  (List.range 4).map (fun k =>
    if k = 3 ∧ c.whiteD65 = true then d65
    else ((c.get (COL_TARGET.X k) : Rat) / 65536, (c.get (COL_TARGET.Y k) : Rat) / 65536))

/-- G_s as signed Q2.14 codes, `none` where the target gives no matrix or a coefficient lies outside the range
(R258). -/
def Chip.gamutCodes (c : Chip) (s : Nat) : Option (List Int) :=
  let a := if c.whiteD65 then some [1, 0, 0, 0, 1, 0, 0, 0, 1] else adaptation (c.target.getD 3 (0, 0))
  match rgbToXyz c.target, a, rgbToXyz (sourcePrimaries s) with
  | some nt, some a, some ns =>
    match inv3 nt with
    | some nti =>
      let codes := (mul3 nti (mul3 a ns)).map (fun x => roundQ (x * 16384))
      if codes.all (fun k => decide (-32768 ≤ k ∧ k ≤ 32767)) then some codes else none
    | none => none
  | _, _, _ => none

/-- R258: whether the target gives every gamut matrix. -/
def Chip.targetOk (c : Chip) : Bool := (List.range 3).all (fun s => (c.gamutCodes s).isSome)

/-- The field of coefficient `n` of gamut matrix `s` (R275). -/
def gamutFld (s n : Nat) : Fld := ⟨0x70080 + 0x20 * s + 4 * (n / 2), 16 * (n % 2), 16⟩

/-- R257: firmware places the gamut coefficients. -/
def Chip.placeGamut (c : Chip) : Chip :=
  (List.range 3).foldl (fun d s =>
    match c.gamutCodes s with
    | some l => (List.range 9).foldl (fun d n => d.putS (gamutFld s n) (l.getD n 0)) d
    | none => d) c

/-- Step 4. -/
def Chip.gamut (c : Chip) (colorimetry : Nat) (v : List Rat) : List Rat :=
  if 3 ≤ colorimetry then v
  else mat3 ((List.range 9).map (fun n => (c.getS (gamutFld colorimetry n) : Rat) / 16384)) v

/-! Steps 5 to 7 (R259, R265). -/

/-- A signed 12-bit code as a number. -/
def q110 (k : Nat) : Rat := if k < 2048 then (k : Rat) / 1024 else ((k : Rat) - 4096) / 1024

/-- Step 5 under a record (R259). -/
def Chip.matrixStep (c : Chip) (record : Nat) (v : List Rat) : List Rat :=
  if c.bit COL_CTRL.MATRIX_EN then
    let m := (List.range 9).map (fun n => q110 (record / 2 ^ (12 * n) % 4096))
    mat3 m v ++ (v.drop 3).map (fun w => q110 (record / 2 ^ 108 % 4096) * w)
  else v

def recordBin (record : Nat) : Nat := record / 2 ^ 120 % 128
def recordDead (record : Nat) : Bool := record.testBit 127

/-- The zone of a pixel (R262). -/
def Chip.zoneOf (c : Chip) (x y : Nat) : Nat :=
  4 * (4 * y / max 1 (c.get SCN_GEOM.TILE_H)) + 4 * x / max 1 (c.get SCN_GEOM.TILE_W)

/-- The gain of a set for a zone, bin and channel, 0x8000 where none is listed. -/
def gainOf (set : SMap Nat) (zone bin ch : Nat) : Nat := smGet (fun _ => 0x8000) set ((zone * 128 + bin) * 4 + ch)

/-- Step 7 (R253): the exact result rounded, with the error that the rule allows. -/
def storeCode (x : Rat) (err : Nat) : Nat :=
  let v := roundQ (clampQ 0 1 x * 65535) + ((err % 5 : Nat) : Int) - 2
  (max 0 (min 65535 v)).toNat

/-- Steps 1 to 4 under the settings of a context (R253 to R258). -/
def Chip.steps14 (c : Chip) (x : CtxCfg) (v : List Nat) : List Rat :=
  let full := x.fullRange || x.type == ctxLuevevan
  let ycc := x.type == ctxSt2110 && decide (4 ≤ x.sampling)
  let rgb := if ycc then
      let y := normLuma full (v.getD 0 0)
      let cb := normChroma full (v.getD 1 0)
      let cr := normChroma full (v.getD 2 0)
      if x.colorimetry = 1 then fromYCbCr (2627 / 10000) (593 / 10000) y cb cr
      else fromYCbCr (2126 / 10000) (722 / 10000) y cb cr
    else v.map (normLuma full)
  let peak := fun f => max 1 (c.get f)
  let lin := (toLinear x.transfer (peak COL_TF.PQ_PEAK) (peak COL_TF.HLG_PEAK) (rgb.map sat4)).map sat4
  (c.gamut x.colorimetry (lin.take 3) ++ lin.drop 3).map sat4

/-- CORRECT on one pixel (R253): `cfg` is the covering context, `none` in a still slot. -/
def Chip.correctPixel (c : Chip) (cfg : Option CtxCfg) (record : Nat) (set : SMap Nat) (key draw : Nat)
    (v : List Nat) : List Nat :=
  if recordDead record then v.map (fun _ => 0)
  else
    let a := match cfg with
      | some x => c.steps14 x v
      | none => v.map (normLuma true)
    let b := (c.matrixStep record a).map sat4
    let z := c.zoneOf (keyCol key) (keyRow key)
    (List.range v.length).map (fun ch =>
      storeCode (sat4 (b.getD ch 0 * (gainOf set z (recordBin record) ch : Rat) / 32768))
        (Config.correctError draw (4 * key + ch)))

/-! Steps 8 and 9 (R266, R269). -/

/-- The combined scale code of a facet (R266). -/
def Chip.scaleCode (c : Chip) (f : Nat) : Nat :=
  min 0x8000 (c.get COL_BRIGHT.BRIGHT) * min 0x8000 (c.get (COL_FACETf_CFG.FACET_GAIN f)) / 2 ^ 15
    * c.get COL_STATUS.DERATE / 2 ^ 15

/-- The low `m` bits of `u` reversed. -/
def bitrev : Nat → Nat → Nat
  | 0, _ => 0
  | m + 1, u => (u % 2) * 2 ^ m + bitrev m (u / 2)

/-- The matrix B4 of R269, row by row. -/
def b4 : List Nat := [0, 8, 2, 10, 12, 4, 14, 6, 3, 11, 1, 9, 15, 7, 13, 5]

/-- DITHER on one channel of the pixel `key` (R266, R269): the stored value, the scale code, j and m, and B. -/
def ditherCode (x scale j m planes key : Nat) (dither : Bool) : Nat :=
  let v18 := x * scale * 4 / 2 ^ 15
  let s := 18 - planes
  let t := if dither && m != 0 then
      let u := (j + b4.getD (4 * (keyRow key % 4) + keyCol key % 4) 0) % 2 ^ m
      bitrev m u * 2 ^ (s - m)
    else 2 ^ (s - 1)
  min ((v18 + t) / 2 ^ s) (2 ^ planes - 1)

/-! Zones, gains and derating (R262 to R268). -/

/-- A 16-bit code as a signed number. -/
def signed16 (n : Nat) : Int := if n < 32768 then n else (n : Int) - 65536

/-- `ZONE_SRC` of a zone. -/
def Chip.zoneSrc (c : Chip) (z : Nat) : Nat := c.get ⟨0x700F0 + 4 * (z / 8), 4 * (z % 8), 4⟩

/-- The temperature of a zone (R262, R263). -/
def Chip.zoneTemp (c : Chip) (z : Nat) : Int :=
  let src := c.zoneSrc z
  if 12 ≤ src then c.getS COL_TEMP_CFG.FIXED_TEMP
  else match c.colour.srcs.getD src none with
    | some t => t
    | none => c.getS COL_TEMP_CFG.TEMP_FAIL

/-- A temperature point. -/
def Chip.tempPoint (c : Chip) (p : Nat) : Int := signed16 (c.get ⟨0x700E0 + 4 * (p / 2), 16 * (p % 2), 16⟩)

/-- R264: whether the temperature points rise strictly. -/
def Chip.pointsOk (c : Chip) : Bool := (List.range 7).all (fun p => decide (c.tempPoint p < c.tempPoint (p + 1)))

/-- A gain of the bin table. -/
def Chip.binGain (c : Chip) (b p ch : Nat) : Nat := c.get ⟨0x72000 + 0x40 * b + 8 * p + 4 * (ch / 2), 16 * (ch % 2), 16⟩

/-- The interpolated gain of R264. -/
def Chip.interpGain (c : Chip) (t : Int) (b ch : Nat) : Nat :=
  if t ≤ c.tempPoint 0 then c.binGain b 0 ch
  else if c.tempPoint 7 ≤ t then c.binGain b 7 ch
  else match (List.range 7).find? (fun p => decide (c.tempPoint p ≤ t ∧ t < c.tempPoint (p + 1))) with
    | none => c.binGain b 7 ch
    | some p =>
      let g0 : Rat := c.binGain b p ch
      let g1 : Rat := c.binGain b (p + 1) ch
      (roundQ (g0 + (g1 - g0) * ((t - c.tempPoint p : Int) : Rat) / ((c.tempPoint (p + 1) - c.tempPoint p : Int) : Rat))).toNat

/-- A gain moved from `old` toward `new` by at most `slew` codes. -/
def slewTo (slew old new : Nat) : Nat := if old ≤ new then min new (old + slew) else max new (old - slew)

/-- R264: the gain set for the zone temperatures. -/
def Chip.newGains (c : Chip) : SMap Nat :=
  if !c.bit COL_CTRL.BIN_EN then []
  else
    let slew := max 1 (c.get COL_DERATE_CTL.GAIN_SLEW)
    let prev := match c.colour.sets with
      | [] => none
      | s :: _ => if c.colour.tableNew || !c.colour.binOn then none else some s.2
    (List.range 16).foldl (fun m z =>
      let t := c.zoneTemp z
      (List.range 512).foldl (fun m i =>
        let g := c.interpGain t (i / 4) (i % 4)
        let g := match prev with
          | none => g
          | some s => slewTo slew (gainOf s z (i / 4) (i % 4)) g
        smSet (fun _ => 0x8000) m (z * 512 + i) g) m) []

/-- The number of the gain set in force (R265). -/
def Chip.gainSet (c : Chip) : Nat :=
  match c.colour.sets with
  | [] => 0
  | s :: _ => s.1

/-- The gain set of a number; gains of 1.0 where it is no longer held. -/
def Chip.gainsOf (c : Chip) (n : Nat) : SMap Nat :=
  match c.colour.sets.find? (fun s => s.1 == n) with
  | some s => s.2
  | none => []

/-- The `COLOUR` event of a latch (R276). -/
def Chip.raiseColour (c : Chip) (f : Fld) (cause zone : Nat) : Chip :=
  c.raise f (fun c => c.event 0x0005 4 cause zone 0 0 (c.get COL_STATUS.DERATE))

/-- The hottest zone, the lowest of several. -/
def Chip.hotZone (c : Chip) : Nat :=
  (List.range 16).foldl (fun b z => if c.zoneTemp b < c.zoneTemp z then z else b) 0

/-- `DERATE_MIN` as a code. -/
def Chip.derateMin (c : Chip) : Nat :=
  (roundQ (((min 100 (max 10 (c.get COL_DERATE.DERATE_MIN)) : Nat) : Rat) * 32768 / 100)).toNat

/-- The target of R268 as a code. -/
def Chip.derateTarget (c : Chip) : Nat :=
  let excess : Int := max 0 (c.zoneTemp c.hotZone - c.getS COL_DERATE.DERATE_START)
  let t : Rat := 1 - (c.get COL_DERATE.DERATE_SLOPE : Rat) / 1000 * (excess : Rat) / 16
  max c.derateMin (roundQ (clampQ 0 1 t * 32768)).toNat

/-- R268: derating at a freeze point. -/
def Chip.derate (c : Chip) : Chip :=
  let hot := c.hotZone
  let c := c.put COL_STATUS.HOT_ZONE hot
  if !c.bit COL_DERATE_CTL.DERATE_EN then c.put COL_STATUS.DERATE 0x8000
  else
    let old := c.get COL_STATUS.DERATE
    let new := slewTo (max 1 (c.get COL_DERATE_CTL.DERATE_STEP)) old c.derateTarget
    let c := c.put COL_STATUS.DERATE new
    let c := if old = 0x8000 ∧ new < 0x8000 then c.raiseColour COL_EVENT.DERATE_ON 2 hot else c
    if old ≠ new ∧ new = c.derateMin then c.raiseColour COL_EVENT.DERATE_FLOOR 3 hot else c

/-- R262 to R268: what the colour unit does at a freeze point. -/
def Chip.colourFreeze (c : Chip) : Chip :=
  let g := c.newGains
  let c := (List.range 16).foldl (fun d z =>
    d.put ⟨0x70110 + 4 * (z / 2), 16 * (z % 2), 16⟩ (satSigned 16 (c.zoneTemp z))) c
  let c := c.setColour { c.colour with
    sets := ((c.colour.nextSet, g) :: c.colour.sets).take 12, nextSet := c.colour.nextSet + 1, tableNew := false,
    binOn := c.bit COL_CTRL.BIN_EN }
  c.derate

/-- R263: a valid reading of a zone source. -/
def Chip.sourceRead (c : Chip) (src : Nat) (t : Int) : Chip :=
  c.setColour { c.colour with srcs := c.colour.srcs.set src (some t) }

/-- R263: 10 s pass for a zone without a valid reading of its source. -/
def Chip.zoneStale (c : Chip) (z : Nat) : Chip :=
  let src := c.zoneSrc z
  if z < 16 ∧ src < 12 then
    (c.setColour { c.colour with srcs := c.colour.srcs.set src none }).raiseColour (COL_EVENT.ZONE_STALE.bit z) 1 z
  else c

/-- R269, R270: the status of the facets for the masks in force. -/
def Chip.showFacets (c : Chip) : Chip :=
  (List.range 4).foldl (fun d f =>
    let n := if c.facetEn f then c.facetCount f else 0
    let m := if c.bit COL_CTRL.DITHER_EN && n != 0 then c.ditherM f else 0
    let depth := if n = 0 then 0 else if c.bit SCH_STATUS.SHED_ACTIVE then c.planes else c.planes + m
    ((d.put (COL_FACETf_STATUS.N_F f) n).put (COL_FACETf_STATUS.DITHER_M f) m).put (COL_FACETf_STATUS.DEPTH f) depth) c

end Sys2Proof.Machine
end

