-- ==== Sys2Proof/Machine/Sched.lean ====
section
/-!
DEFINITION. The work scheduler (R219 to R252): making, readying, granting, retiring and cancelling work items, and the
decision trace.
-/

namespace Sys2Proof.Machine

open Sys2Proof

def schCnt (o : Nat) : Nat := 0x100600 + o

/-- The `TYPE` code of a work type (R221). -/
def typeCode : WorkType → Nat
  | .cropScale => 0 | .correct => 1 | .dither => 2 | .transpose => 3 | .detect => 4 | .map => 5

/-- The `PRIO_` field of a work type (R230). -/
def prioFld : WorkType → Fld
  | .cropScale => SCH_PRIO.PRIO_CROP | .correct => SCH_PRIO.PRIO_CORRECT | .dither => SCH_PRIO.PRIO_DITHER
  | .transpose => SCH_PRIO.PRIO_TRANSPOSE | .detect => SCH_PRIO.PRIO_DETECT | .map => SCH_PRIO.PRIO_MAP

/-! Live cores (R452, R455). -/

def bit32 (n : Nat) (f : Nat → Fld) : Fld := (f (n / 32)).bit (n % 32)

/-- Whether core `k` is not fenced (`SCH_CORE_LIVE`). -/
def Chip.coreUnfenced (c : Chip) (k : Nat) : Bool := c.bit (bit32 k SCH_CORE_LIVE.CORE_LIVE)

/-- Whether core `k` is neither fenced nor quiesced, by itself, its cluster or its region. -/
def Chip.coreLive (c : Chip) (k : Nat) : Bool :=
  c.coreUnfenced k && !c.bit (bit32 k ERR_GATE_CORE.CORE_GATED)
    && !c.bit (ERR_GATE_BLOCK.BLOCK_GATED.bit (k / 4)) && !c.bit (ERR_GATE_BLOCK.BLOCK_GATED.bit (24 + k / 16))

/-- The number of live cores, n of R241. -/
def Chip.coresLive (c : Chip) : Nat := ((List.range 64).filter c.coreLive).length

/-- R243: whether U lies above `SHED_AT`. -/
def Chip.overloaded (c : Chip) : Bool := decide (c.shedAt < c.load c.coresLive c.subframes)

/-! The trace (R246 to R249). -/

/-- The `SCHED` event of a flag of `SCH_EVENT` (R251). -/
def Chip.raiseSched (c : Chip) (f : Fld) (cause : Nat) : Chip :=
  c.raise f (fun c => c.event 0x0004 2 cause 0 0 0 (c.get SCH_LOAD.LOAD_EST))

/-- One trace entry as its four words (R246), before `SAME` and the time. -/
structure TraceInfo where
  code : Nat
  item : Nat
  core : Nat
  prio : Nat
  type : Nat
  feed : Nat
  frame : Int
  sub : Nat
  strip : Nat
  reason : Nat
  causeItem : Nat

/-- R246 to R248: a decision is recorded if the filter selects it and the trace takes entries. -/
def Chip.trace (c : Chip) (i : TraceInfo) : Chip :=
  if !c.bit SCH_TRACE_CTRL.TR_EN || !(c.get SCH_TRACE_CTRL.FILTER).testBit i.code
      || c.bit SCH_TRACE_STATUS.TR_FROZEN then c
  else
    let full := decide (c.sched.trace.length ≥ 4096)
    if full && c.bit SCH_TRACE_CTRL.TR_STOP then c
    else
      let same := c.sched.traceC == some c.time.c.toNat
      let w0 := i.code % 16 + (i.item % 4096) * 2 ^ 4 + (i.core % 64) * 2 ^ 16 + (i.prio % 8) * 2 ^ 22
        + (i.type % 8) * 2 ^ 25 + (i.feed % 4) * 2 ^ 28 + (if same then 2 ^ 30 else 0) + 2 ^ 31
      let w1 := (c.now / nsU % 2 ^ 32).toNat
      let w2 := (i.frame % 2 ^ 16).toNat + (i.sub % 32) * 2 ^ 16 + (i.strip % 256) * 2 ^ 24
      let w3 := i.reason % 16 + (i.causeItem % 4096) * 2 ^ 4
      let c := if full then c.latch SCH_TRACE_STATUS.TR_WRAPPED else c
      let kept := if full then c.sched.trace.drop 1 else c.sched.trace
      let tr := kept ++ [[w0, w1, w2, w3]]
      let left := match c.sched.traceLeft with
        | some n => some (n - 1)
        | none => if i.code = 6 ∧ c.bit SCH_TRACE_CTRL.FREEZE_ON_MISS = true then some 64 else none
      let c := c.setSched { c.sched with
        trace := tr, traceC := some c.time.c.toNat, traceLeft := left, traceNew := if same then c.sched.traceNew + 1 else 1 }
      let c := c.put SCH_TRACE_STATUS.TR_COUNT tr.length
      if left = some 0 then (c.latch SCH_TRACE_STATUS.TR_FROZEN).raiseSched SCH_EVENT.TRACE_FROZEN 5 else c

/-- A trace entry about an item. -/
def Chip.traceItem (c : Chip) (code : Nat) (i : Item) (core reason causeItem : Nat) : Chip :=
  c.trace ⟨code, i.slot, core, i.prio, typeCode i.type, i.feed, i.frame, i.sub, i.strip, reason, causeItem⟩

/-- The trace entries made at the present instant, which a pop does not see (R249). -/
def Chip.traceFresh (c : Chip) : Nat := if c.sched.traceC = some c.time.c.toNat then c.sched.traceNew else 0

/-- R249: the oldest trace entry is removed; a trace that held none before this instant gives none. -/
def Chip.popTrace (c : Chip) : Chip × Option (List Nat) :=
  match c.sched.trace with
  | [] => (c, none)
  | e :: tr =>
    if c.sched.trace.length ≤ c.traceFresh then (c, none)
    else (((c.setSched { c.sched with trace := tr } : Chip).put SCH_TRACE_STATUS.TR_COUNT tr.length), some e)

/-- R249: `TR_CLEAR` empties the trace. -/
def Chip.clearTrace (c : Chip) : Chip :=
  ((((c.setSched { c.sched with trace := [], traceC := none, traceLeft := none, traceNew := 0 } : Chip).put
    SCH_TRACE_STATUS.TR_COUNT 0).put SCH_TRACE_STATUS.TR_WRAPPED 0).put SCH_TRACE_STATUS.TR_FROZEN 0)

/-! Items. -/

def Chip.setItems (c : Chip) (l : List Item) : Chip :=
  let c := (c.setSched { c.sched with items := l } : Chip).put SCH_STATUS.SLOTS_USED l.length
  c.put SCH_ITEMS.ITEMS_PEAK (max (c.get SCH_ITEMS.ITEMS_PEAK) l.length)

def Chip.item (c : Chip) (slot : Nat) : Option Item := c.sched.items.find? (fun i => i.slot == slot)

/-- The chip with the item in slot `i.slot` replaced. -/
def Chip.setItem (c : Chip) (i : Item) : Chip :=
  c.setItems (c.sched.items.map (fun j => if j.slot = i.slot then i else j))

/-- The lowest free item slot (log entry 20). -/
def Chip.freeSlot (c : Chip) : Option Nat :=
  (List.range 4096).find? (fun n => !(c.sched.items.any (fun i => i.slot == n)))

/-- R230: an item whose counter is zero becomes ready at the level its type's `PRIO_` field then gives. -/
def Chip.ready (c : Chip) (i : Item) : Chip :=
  let i := { i with state := .ready, prio := c.get (prioFld i.type) }
  (c.setItem i).traceItem 2 i 0x3F 0 0xFFF

/-- R221, R227: an item is made, ready at once if its counter is zero. Without a free slot none is made (R229 keeps that
from happening). Answers the slot. -/
def Chip.makeItem (c : Chip) (i : Item) : Chip × Option Nat :=
  match c.freeSlot with
  | none => (c, none)
  | some n =>
    let i := { i with slot := n, state := .waiting, prio := c.get (prioFld i.type) }
    let c := (c.setItems (c.sched.items ++ [i])).traceItem 1 i 0x3F 0 0xFFF
    (if i.counter = 0 then c.ready i else c, some n)

/-- R226: one completion reaches the counter of each item that `p` selects. -/
def Chip.complete (c : Chip) (p : Item → Bool) (n : Nat) : Chip :=
  (c.sched.items.filter p).foldl (fun c i =>
    let i' := { i with counter := i.counter - n }
    let c := c.setItem i'
    if i.counter > 0 ∧ i'.counter = 0 ∧ i.state = .waiting then c.ready i' else c) c

/-- The bytes of the strip area of an item: the pixels of its strip × C × 2 (R220). -/
def Chip.areaBytes (c : Chip) (i : Item) : Nat :=
  let r := c.stripRect i.feed i.strip
  r.2.2.1 * r.2.2.2 * c.channels * 2

/-- The bytes of a cluster's buffer that the strip areas of its pairs hold: each until the TRANSPOSE item retires or either
item of the pair is cancelled (R228). -/
def Chip.areasUsed (c : Chip) (k : Nat) : Nat :=
  ((c.sched.items.filter (fun i => i.type == .transpose && i.cluster == some k && i.cancel.isNone)).map c.areaBytes).sum

/-- R220, R228: whether core `k` may take the item: a DITHER item needs a free strip area in the cluster's buffer of
128 KiB. -/
def Chip.mayTake (c : Chip) (i : Item) (k : Nat) : Bool :=
  match i.type with
  | .dither => decide (c.areasUsed (k / 4) + c.areaBytes i ≤ 131072)
  | .transpose => i.cluster == some (k / 4)
  | _ => true

/-- The deadline of an item (R224): a frame item takes the earliest of its dependents'. -/
def Chip.deadlineOf (c : Chip) (i : Item) : Int :=
  match i.type with
  | .cropScale | .correct =>
    match (c.sched.items.filter (fun j => j.waits.contains i.slot)).map (fun j => j.deadline) with
    | [] => i.deadline
    | d :: ds => ds.foldl min d
  | _ => i.deadline

/-- The order of R230 within the ready items. -/
def Chip.before (c : Chip) (i j : Item) : Bool :=
  let di := c.deadlineOf i
  let dj := c.deadlineOf j
  if i.prio ≠ j.prio then decide (i.prio < j.prio)
  else if di ≠ dj then decide (di < dj)
  else if i.frame ≠ j.frame then decide (i.frame < j.frame)
  else if i.sub ≠ j.sub then decide (i.sub < j.sub)
  else if i.strip ≠ j.strip then decide (i.strip < j.strip)
  else decide (i.slot < j.slot)

/-- Insertion of an item into a list kept in the order of R230. -/
def Chip.insertReady (c : Chip) (i : Item) : List Item → List Item
  | [] => [i]
  | j :: l => if c.before i j then i :: j :: l else j :: c.insertReady i l

/-- The ready items in the order of R230. -/
def Chip.readyList (c : Chip) : List Item :=
  (c.sched.items.filter (fun i => i.state == .ready)).foldr (fun i l => c.insertReady i l) []

/-- R228, R231: the item goes to the first core in the idle queue that may take it; an item that may go to none is
passed over. -/
def Chip.offer (c : Chip) (i : Item) : Chip :=
  match c.sched.idle.find? (c.mayTake i) with
  | none => c
  | some k =>
    let i := { i with state := .running k, grantC := c.time.c.toNat }
    let c := c.setSched { c.sched with idle := c.sched.idle.filter (fun x => x != k) }
    let c := c.setItem i
    let c := if i.type = .dither then
        c.setItems (c.sched.items.map (fun j =>
          if j.type = .transpose ∧ j.waits.contains i.slot = true then { j with cluster := some (k / 4) } else j))
      else c
    c.traceItem 3 i k 0 0xFFF

/-- R231: every ready item is offered in order to the idle cores. -/
def Chip.grantAll (c : Chip) : Chip :=
  c.readyList.foldl Chip.offer c

/-- R236, R237: an item is cancelled: it retires at once, or, if it runs, when its core is done. -/
def Chip.cancelItem (c : Chip) (i : Item) (reason causeItem : Nat) : Chip :=
  let c := if reason = 3 then c else c.bump (schCnt 0x08) 1
  let c := c.traceItem 5 i 0x3F reason causeItem
  match i.state with
  | .running _ => c.setItem { i with cancel := some reason }
  | _ => c.setItems (c.sched.items.filter (fun j => j.slot != i.slot))

/-- R236: the cancel of the items in `work` (slot, reason, cause) propagates to every item that waits on them. -/
def Chip.cancelLoop : Nat → Chip → List (Nat × Nat × Nat) → Chip
  | 0, c, _ => c
  | _, c, [] => c
  | fuel + 1, c, (slot, reason, cause) :: work =>
    match c.item slot with
    | none => cancelLoop fuel c work
    | some i =>
      if i.cancel.isSome then cancelLoop fuel c work
      else
        let c := c.cancelItem i reason cause
        let deps := (c.sched.items.filter (fun j => j.waits.contains slot && j.cancel.isNone)).map
          (fun j => (j.slot, 5, slot))
        cancelLoop fuel c (deps ++ work)

/-- R235: every item that `p` selects is cancelled for `reason`, and its dependents with it. -/
def Chip.cancelWhere (c : Chip) (p : Item → Bool) (reason : Nat) : Chip :=
  let l := (c.sched.items.filter p).map (fun i => (i.slot, reason, 0xFFF))
  c.cancelLoop (2 * c.sched.items.length + l.length + 1) l

/-- R235: all items are cancelled with reason Stop. -/
def Chip.cancelStop (c : Chip) : Chip := c.cancelWhere (fun _ => true) 2

/-- The items without `i`, and without `i` among what the others wait on. -/
def Chip.dropItem (c : Chip) (i : Item) : Chip :=
  c.setItems ((c.sched.items.filter (fun j => j.slot != i.slot)).map
    (fun j => { j with waits := j.waits.filter (fun w => w != i.slot) }))

/-- R226, R237, R239: a running item retires with `reason`. `DONE` and `POISONED` complete the items that wait on it;
its slot is free. -/
def Chip.retireItem (c : Chip) (i : Item) (core reason : Nat) : Chip :=
  let c := c.traceItem 4 i core reason 0xFFF
  let c := match reason with
    | 0 => c.bump (schCnt 0x00) 1
    | 6 => c.bump (schCnt 0x18) 1
    | 7 => c.bump (schCnt 0x20) 1
    | _ => c
  let c := c.setSched { c.sched with busy := c.sched.busy + (c.time.c.toNat - max i.grantC c.sched.busyFrom) }
  let c := if reason = 0 ∨ reason = 6 then c.complete (fun j => j.waits.contains i.slot) 1 else c
  c.dropItem i

/-- R304, R235: the outputs blank and every item is cancelled with reason Stop. -/
def Chip.loseDisplay (c : Chip) : Chip := c.blankOutputs.cancelStop

/-- R250: `BUSY_PEAK` and `ITEMS_PEAK` take their present values. -/
def Chip.peakClear (c : Chip) : Chip :=
  (c.put SCH_BUSY.BUSY_PEAK (c.get SCH_BUSY.BUSY_LAST)).put SCH_ITEMS.ITEMS_PEAK (c.get SCH_STATUS.SLOTS_USED)

end Sys2Proof.Machine
end

