-- ==== Sys2Proof/Machine/FrameStore.lean ====
section
/-!
DEFINITION. The frame store (R191 to R218): slot assignment, completeness, what a feed shows, the rewind mark, and the
items of a frame.
-/

namespace Sys2Proof.Machine

open Sys2Proof

def Chip.feed (c : Chip) (f : Nat) : Feed := c.feeds.toList.getD f Feed.start
def Chip.setFeed (c : Chip) (f : Nat) (x : Feed) : Chip := c.setFeeds (c.feeds.setIfInBounds f x)

def feedCnt (f o : Nat) : Nat := 0x100400 + 0x40 * f + o
def ctxCnt (x o : Nat) : Nat := 0x108000 + 0x80 * x + o

/-- The `PRESENT` event of a latch (R217); `frame` is the presentation boundary. -/
def Chip.raisePresent (c : Chip) (f : Nat) (fld : Fld) (cause : Nat) (frame : Int) : Chip :=
  c.raise fld (fun c => c.placeEvent 0x0003 2 cause f 0 0 (frame32 frame) 0)

/-! Contexts of a frame (R186). -/

/-- The settings in force of a context. -/
def Chip.ctxCfg (c : Chip) (x : Nat) : CtxCfg :=
  { id := x, type := c.ctxType x, sampling := c.get (STC_FORMAT.SAMPLING x), slot16 := c.bit (STC_FORMAT.SLOT16 x),
    transfer := c.get (STC_FORMAT.TRANSFER x), colorimetry := c.get (STC_FORMAT.COLORIMETRY x),
    fullRange := c.bit (STC_FORMAT.RANGE x), channels := if c.bit (STC_FORMAT.CHANNELS x) then 4 else 3,
    win := (c.get (STC_WIN_ORG.WIN_X x), c.get (STC_WIN_ORG.WIN_Y x), c.get (STC_WIN_SIZE.WIN_W x),
      c.get (STC_WIN_SIZE.WIN_H x)),
    dst := c.ctxDst x, scaled := c.ctxScaled x, lossHold := c.bit (STC_CTRL.LOSS_HOLD x) }

/-- Whether a context of a frame is a stream. -/
def CtxCfg.stream (x : CtxCfg) : Bool := decide (x.type ≤ 1)

/-- The contexts of a frame whose destination the slicer writes itself. -/
def FrameRec.direct (fr : FrameRec) : List CtxCfg := fr.ctxs.filter (fun x => !x.scaled)

/-- The scaled contexts of a frame whose destination meets strip `s`. -/
def Chip.scaledOn (c : Chip) (f : Nat) (fr : FrameRec) (s : Nat) : List CtxCfg :=
  fr.ctxs.filter (fun x => x.scaled && overlap x.dst (c.stripRect f s))

/-- Whether every pixel of strip `s` that the slicer writes has been written (R183). -/
def Chip.stripWritten (c : Chip) (f : Nat) (fr : FrameRec) (s : Nat) : Bool :=
  let d := fr.direct.filter (fun x => overlap x.dst (c.stripRect f s))
  d.isEmpty || (rectPixels (c.stripRect f s)).all (fun k =>
    d.all (fun x => !inRect x.dst k || fr.blanked.contains x.id || fr.got.contains k))

/-- Whether the window of a scaled context is whole in the scale area (R221). -/
def FrameRec.windowDone (fr : FrameRec) (x : CtxCfg) : Bool :=
  fr.blanked.contains x.id
    || (rectPixels (0, 0, x.win.2.2.1, x.win.2.2.2)).all (fun k => fr.winGot.contains (x.id, k))

/-- Whether a context's part of a frame is complete (R185). -/
def FrameRec.partDone (fr : FrameRec) (x : CtxCfg) : Bool :=
  if x.scaled then fr.windowDone x
  else fr.blanked.contains x.id || (rectPixels x.dst).all (fun k => fr.got.contains k)

/-- Whether `i` is a frame item of the frame presented at `n` of feed `f`; the CORRECT items of a still are none. -/
def isFrameItem (f : Nat) (n : Int) (i : Item) : Bool :=
  (i.type == .cropScale || i.type == .correct) && i.feed == f && i.frame == n && decide (i.buffer < 16)

/-- R183, R221, R226: the strip-complete and window-complete signals that a frame now gives, each once. Answers the chip
and the frame. -/
def Chip.signalFrame (c : Chip) (f : Nat) (fr : FrameRec) : Chip × FrameRec :=
  let n := fr.o + c.delay f
  let newS := (List.range (c.stripCount f)).filter (fun s => !fr.strips.contains s && c.stripWritten f fr s)
  let newW := fr.ctxs.filter (fun x => x.scaled && !fr.windows.contains x.id && fr.windowDone x)
  let fr' := { fr with strips := fr.strips ++ newS, windows := fr.windows ++ newW.map (·.id) }
  let c := newW.foldl (fun c x => c.complete
    (fun i => i.type == .cropScale && isFrameItem f n i && overlap x.dst (c.stripRect f i.strip)) 1) c
  let c := newS.foldl (fun c s => c.complete
    (fun i => i.type == .correct && isFrameItem f n i && i.strip == s) 1) c
  (c, fr')

/-- The chip with a frame of a feed replaced, after its signals. -/
def Chip.putFrame (c : Chip) (f : Nat) (fr : FrameRec) : Chip :=
  let (c, fr) := c.signalFrame f fr
  c.setFeed f { c.feed f with frames := (c.feed f).frames.map (fun x => if x.slot = fr.slot then fr else x) }

/-! Slots (R202, R203). -/

/-- An item with nothing known of it but its place. -/
def blankItem (type : WorkType) (f : Nat) (frame : Int) (sub strip buffer : Nat) (deadline : Int) : Item :=
  { slot := 0, type := type, feed := f, frame := frame, sub := sub, strip := strip, buffer := buffer, counter := 0,
    waits := [], state := .waiting, prio := 0, deadline := deadline, cluster := none, cancel := none, again := false,
    grantC := 0, scale := 0, dith := (0, 0), gset := 0 }

/-- R221: the frame items of one strip. -/
def Chip.frameItems (c : Chip) (f : Nat) (fr : FrameRec) (s : Nat) : Chip :=
  let n := fr.o + c.delay f
  let due := c.boundary n
  let scaled := (c.scaledOn f fr s).length
  if scaled = 0 then (c.makeItem { (blankItem .correct f n 0 s fr.slot due) with counter := 1 }).1
  else
    let (c, q) := c.makeItem { (blankItem .cropScale f n 0 s fr.slot due) with counter := scaled }
    (c.makeItem { (blankItem .correct f n 0 s fr.slot due) with counter := 2, waits := q.toList }).1

/-- What of a context's settings decides where and as what its pixels stand in a frame. -/
def CtxCfg.placed (x : CtxCfg) : CtxCfg :=
  { x with transfer := 0, colorimetry := 0, fullRange := false, lossHold := false }

/-- Whether the contexts `a` and `b` cover strip `s` alike. -/
def Chip.coversAlike (c : Chip) (f s : Nat) (a b : List CtxCfg) : Bool :=
  let on := fun (l : List CtxCfg) => (l.filter (fun x => overlap x.dst (c.stripRect f s))).map CtxCfg.placed
  on a == on b

/-- R178, R186: an assigned frame takes other settings of contexts. Pixels that are no longer covered, or that a context
wrote under other settings, are zero and not written. A strip whose coverage changes starts anew, with items of its own
(log entry 131). -/
def Chip.recover (c : Chip) (f : Nat) (fr : FrameRec) (ctxs : List CtxCfg) : Chip :=
  let kept := (ctxs.map CtxCfg.placed).filter (fr.ctxs.map CtxCfg.placed).contains
  let holds := fun (id : Nat) => kept.any (fun x => x.id == id)
  let inKept := fun (k : Nat) => kept.any (fun x => inRect x.dst k)
  let redo := (List.range (c.stripCount f)).filter (fun s => !c.coversAlike f s fr.ctxs ctxs)
  let fr' : FrameRec :=
    { fr with ctxs := ctxs, px := fr.px.filter (fun e => inKept (e.1 / 4)), got := fr.got.filter inKept,
              scale := fr.scale.filter (fun e => holds e.1), winGot := fr.winGot.filter (fun e => holds e.1),
              windows := fr.windows.filter holds, blanked := fr.blanked.filter holds,
              strips := fr.strips.filter (fun s => !redo.contains s) }
  let n := fr.o + c.delay f
  let c := c.cancelWhere (fun i => isFrameItem f n i && redo.contains i.strip) 1
  let c := redo.foldl (fun c s => c.frameItems f fr' s) c
  c.putFrame f fr'

/-- R235, R252: the frame items of a frame are abandoned; the frame counts if one of them is cancelled so. -/
def Chip.abandon (c : Chip) (f : Nat) (n : Int) : Chip :=
  if c.sched.items.any (fun i => isFrameItem f n i && i.cancel.isNone) then
    (c.cancelWhere (isFrameItem f n) 1).bump (schCnt 0x38) 1
  else c

/-- R186: the settings of the live contexts of feed `f` that apply to a frame with origin `o`. -/
def Chip.ctxsAt (c : Chip) (f : Nat) (o : Int) : List CtxCfg :=
  let v := c.viewAt o
  ((v.feedCtx f).filter v.ctxLive).map v.ctxCfg

/-- R202: the slot due is assigned to the frame with origin boundary `o`, and its items are made. -/
def Chip.assignSlot (c : Chip) (f : Nat) (o : Int) : Chip :=
  let d := c.feed f
  let fr : FrameRec :=
    { slot := d.next, o := o, ctxs := c.ctxsAt f o, px := [], scale := [], got := [],
      winGot := [], windows := [], strips := [], blanked := [], failed := false }
  let c := c.setFeed f { d with
    next := (d.next + 1) % max 1 (c.slots f), frames := d.frames.filter (fun x => x.slot != d.next) ++ [fr] }
  let c := c.put (FST_FEEDf_STATUS.WRITE_SLOT f) d.next
  let c := (List.range (c.stripCount f)).foldl (fun c s => c.frameItems f fr s) c
  c.putFrame f fr

/-- Whether frame boundary `n` is the origin of a feed frame (R160). -/
def Chip.feedFrame (c : Chip) (f : Nat) (n : Int) : Bool := n % (c.feedRate f : Int) == 0

/-- R202: the assignment due at frame boundary `n`. -/
def Chip.assignAt (c : Chip) (f : Nat) (n : Int) : Chip :=
  let o := n + c.lead f
  if (c.feed f).running && c.facetEn f && c.feedFrame f o && !(c.feed f).frames.any (fun x => x.o == o) then
    c.assignSlot f o
  else c

/-- R184: whether the freeze point of the frame before the one presented at `n` has passed. -/
def Chip.frozen (c : Chip) (n : Int) : Bool :=
  let m := c.frameNow
  decide (n ≤ m) || (decide (n = m + 1) && c.pastFreeze)

/-- R203: the slots whose last frame period has ended at boundary `n` are released, but for the mark's. -/
def Chip.releaseSlots (c : Chip) (f : Nat) (n : Int) : Chip :=
  let d := c.feed f
  let ended := fun (x : FrameRec) =>
    decide (x.o + c.delay f + c.feedRate f ≤ n) && (d.mark.map (·.1)) != some x.slot
  let c := (d.frames.filter ended).foldl (fun c x => c.abandon f (x.o + c.delay f)) c
  c.setFeed f { c.feed f with frames := (c.feed f).frames.filter (fun x => !ended x) }

/-- The status of the mark. -/
def Chip.showMark (c : Chip) (f : Nat) : Chip :=
  match (c.feed f).mark with
  | none => ((c.put (FST_FEEDf_STATUS.MARK_VALID f) 0).put (FST_FEEDf_STATUS.MARK_SLOT f) 0).put
      (FST_FEEDf_MARK_FRAME.MARK_FRAME f) 0
  | some (s, o) => ((c.put (FST_FEEDf_STATUS.MARK_VALID f) 1).put (FST_FEEDf_STATUS.MARK_SLOT f) s).put
      (FST_FEEDf_MARK_FRAME.MARK_FRAME f) (frame32 (o + c.delay f))

/-- `SHOWING` of a source shown. -/
def showCode : Show → Nat
  | .off => 0 | .live _ _ => 1 | .rewind _ _ => 2 | .fbBlack => 3 | .fbStill _ => 4 | .black => 5 | .still _ => 6

/-- The status of what is shown (R216). -/
def Chip.showStatus (c : Chip) (f : Nat) : Chip :=
  let n := match (c.feed f).cur with
    | .live _ o | .rewind _ o => frame32 (o + c.delay f)
    | .off => 0
    | _ => 0xFFFFFFFF
  (c.put (FST_FEEDf_STATUS.SHOWING f) (showCode (c.feed f).cur)).put (FST_FEEDf_SHOWN_FRAME.SHOWN_FRAME f) n

/-- The rewind mark of a feed, unless its frame has failed since (R240). -/
def Feed.goodMark (d : Feed) : Option (Nat × Int) :=
  d.mark.filter (fun m => !d.frames.any (fun x => x.slot == m.1 && x.failed))

/-- The fallback in force (R213). -/
def Chip.fallback (c : Chip) (f : Nat) : Show :=
  if c.bit (FST_FEEDf_CFG.FALLBACK f) then .fbStill (c.get (FST_FEEDf_CFG.FB_STILL f)) else .fbBlack

/-- R202, R213: the ring of a feed restarts at slot 0 with no mark. -/
def Chip.restartRing (c : Chip) (f : Nat) : Chip :=
  let c := (c.feed f).frames.foldl (fun c x => c.abandon f (x.o + c.delay f)) c
  (c.setFeed f { c.feed f with
    running := c.facetEn f, next := 0, frames := [], mark := none, ring := c.fallback f, cur := .off, decided := none }).showMark f |>.showStatus f

/-- The ring of a feed stops. -/
def Chip.stopRing (c : Chip) (f : Nat) : Chip :=
  ((c.setFeed f { Feed.start with stillNew := (c.feed f).stillNew }).showMark f).showStatus f

/-! The freeze point (R205 to R214). -/

/-- Whether a strip still waits for scaled pixels: its CROP/SCALE item has not retired (R221). The pixels of slot contexts
never hold a strip incomplete (R169): where one meets the strip, its streams' windows decide (log entry 130). -/
def Chip.scaleWaits (c : Chip) (f : Nat) (fr : FrameRec) (i : Item) : Bool :=
  let l := c.scaledOn f fr i.strip
  i.type == .cropScale && isFrameItem f (fr.o + c.delay f) i
    && (l.all CtxCfg.stream || l.any (fun x => x.stream && !fr.windowDone x))

/-- Whether a frame is complete at its freeze point (R183, R185). -/
def Chip.frameComplete (c : Chip) (f : Nat) (fr : FrameRec) : Bool :=
  (List.range (c.stripCount f)).all (fun s => fr.strips.contains s) && !fr.failed
    && !c.sched.items.any (c.scaleWaits f fr)

/-- The latest value of a slot of a context, slot 1 being the first, zero after a loss without `LOSS_HOLD` (R170). -/
def Chip.slotValue (c : Chip) (x : CtxCfg) (k : Nat) : Nat :=
  if c.get (STC_CSTAT.STATE x.id) = 3 ∧ x.lossHold = false then 0
  else (smGet (fun _ => Ctx.start) c.ctxs x.id).latest.getD (k - 1) 0

/-- The 16-bit value of channel `n` of an sACN or DMX context (R179, R181). -/
def Chip.slotChannel (c : Chip) (x : CtxCfg) (n : Nat) : Nat :=
  if x.slot16 then c.slotValue x (x.win.1 + 2 * n) * 256 + c.slotValue x (x.win.1 + 2 * n + 1)
  else c.slotValue x (x.win.1 + n) * 257

/-- The values of a slot context at the pixels of a rectangle, in raster order; beyond the `WIN_W` pixels that the context
names (R179) they are 0 (log entry 130). -/
def Chip.copySlots (c : Chip) (x : CtxCfg) (px : List Nat) (m : SMap Nat) : SMap Nat :=
  px.zipIdx.foldl (fun m (ki : Nat × Nat) => (List.range x.channels).foldl (fun m ch =>
    smSet (fun _ => 0) m (4 * ki.1 + ch)
      (if ki.2 < x.win.2.2.1 then c.slotChannel x (ki.2 * x.channels + ch) else 0)) m) m

/-- The pixels that the freeze point's copy writes for a slot context: its destination, or, scaled, its window in the scale
area (R169, R180). -/
def CtxCfg.copied (x : CtxCfg) : List Nat :=
  if x.scaled then rectPixels (0, 0, x.win.2.2.1, x.win.2.2.2) else rectPixels x.dst

/-- The pixels of a context's window in the scale area of a frame. -/
def FrameRec.scaleArea (fr : FrameRec) (id : Nat) : SMap Nat :=
  ((fr.scale.find? (fun e => e.1 == id)).map (·.2)).getD []

/-- The frame with the window of context `id` replaced in its scale area. -/
def FrameRec.putScale (fr : FrameRec) (id : Nat) (m : SMap Nat) : FrameRec :=
  { fr with scale := (id, m) :: fr.scale.filter (fun e => e.1 != id) }

/-- The frame with the pixels `px` of the window of context `id` delivered. -/
def FrameRec.gotWindow (fr : FrameRec) (id : Nat) (px : List Nat) : FrameRec :=
  { fr with winGot := (px.map (fun k => (id, k))).filter (fun k => !fr.winGot.contains k) ++ fr.winGot }

/-- The frame with the destination pixels `px` written. -/
def FrameRec.gotPixels (fr : FrameRec) (px : List Nat) : FrameRec :=
  { fr with got := px.filter (fun k => !fr.got.contains k) ++ fr.got }

/-- R169: the latest values of the sACN and DMX contexts of a frame are copied into its slot; the bytes count (R190). -/
def Chip.freezeCopy (c : Chip) (fr : FrameRec) : Chip × FrameRec :=
  (fr.ctxs.filter (fun x => !x.stream)).foldl (fun (cf : Chip × FrameRec) x =>
    let px := x.copied
    let c := cf.1.bump (ctxCnt x.id 0x68) (2 * x.channels * px.length)
    let fr := cf.2
    if x.scaled then (c, (fr.putScale x.id (c.copySlots x px (fr.scaleArea x.id))).gotWindow x.id px)
    else (c, ({ fr with px := c.copySlots x px fr.px }).gotPixels px)) (c, fr)

/-- R185, R187: the parts of a judged frame are counted. -/
def Chip.countParts (c : Chip) (f : Nat) (fr : FrameRec) : Chip :=
  fr.ctxs.foldl (fun c x =>
    if fr.partDone x then
      let c := (c.bump (ctxCnt x.id 0x48) 1).put (STC_LAST_FRAME.LAST_FRAME x.id) (frame32 (fr.o + c.delay f))
      if c.get (STC_CSTAT.STATE x.id) = 1 then c.put (STC_CSTAT.STATE x.id) 2 else c
    else c.bump (ctxCnt x.id 0x50) 1) c

/-- What a feed shows under a value of `SHOW_SRC`, given what its ring shows (R209). -/
def effective (src : Nat) (ring : Show) : Show :=
  if src = 0 then ring else if src = 1 then .black else .still (src - 4)

/-- R210, R211, R213: the ring's next source for the new feed frame with origin `o`, and the chip with the mark, the
latches, the counters and the abandoned items. `shown` tells whether the ring is shown (R209); `fb` is the fallback. -/
def Chip.judge (c : Chip) (f : Nat) (o : Int) (shown : Bool) (fb : Show) : Chip × Show :=
  let n := o + c.delay f
  let d := c.feed f
  match d.frames.find? (fun x => x.o == o) with
  | some fr =>
    let c := c.countParts f fr
    if c.frameComplete f fr then
      let c := (c.setFeed f { c.feed f with mark := some (fr.slot, o) }).showMark f
      (if shown then c.bump (feedCnt f 0x00) 1 else c, .live fr.slot o)
    else
      let c := c.abandon f n
      let c := c.setFeed f { c.feed f with frames := (c.feed f).frames.filter (fun x => x.slot != fr.slot) }
      match d.goodMark with
      | some (s, mo) => (c, .rewind s mo)
      | none => (c, fb)
  | none =>
    let c := (c.ctxsAt f o).foldl (fun c x => c.bump (ctxCnt x.id 0x50) 1) c
    match d.goodMark with
    | some (s, mo) => (c, .rewind s mo)
    | none => (c, fb)

/-- Whether the engines show the frame that begins at boundary `n`: they are not blank, and no timing set or
`GRID_OFFSET` blanks it (R303, R305, R106). -/
def Chip.showsFrom (c : Chip) (n : Int) : Bool :=
  (match c.scan.display with
   | .showing => true
   | .blankUntil b => decide (b ≤ n)
   | _ => false) && !c.pend.any (fun p => p.tset && decide (p.boundary ≤ n))
    && (c.viewAt n).gridOffset == c.gridOffset

/-- R212: whether the assignment due at boundary `n` takes the mark's slot while it would be shown. -/
def Chip.markOvertaken (c : Chip) (f : Nat) (n : Int) (ring : Show) : Bool :=
  let d := c.feed f
  c.feedFrame f (n + c.lead f) && (match d.mark, ring with
    | some (s, _), .rewind _ _ => s == d.next
    | some (s, mo), .live s' _ => s == d.next && s == s' && decide (mo + c.delay f + c.feedRate f > n)
    | _, _ => false)

/-- R211, R213, R217: the latches and counters of what has been decided. -/
def Chip.countShown (c : Chip) (f : Nat) (n : Int) (newFrame : Bool) (ring : Show) : Chip :=
  match ring with
  | .rewind _ _ =>
    if newFrame then (c.raisePresent f (FST_FEEDf_EVENT.REWIND_USED f) 1 n).bump (feedCnt f 0x08) 1 else c
  | .fbBlack | .fbStill _ =>
    if newFrame then (c.raisePresent f (FST_FEEDf_EVENT.FALLBACK_SHOWN f) 3 n).bump (feedCnt f 0x10) 1 else c
  | _ => c

/-- R222: the CORRECT items of a still slot that is shown for the first time since its load. -/
def Chip.correctStill (c : Chip) (f : Nat) (n : Int) (v : Nat) : Chip :=
  if (c.feed f).stillNew.contains v then
    let c := c.setFeed f { c.feed f with stillNew := (c.feed f).stillNew.filter (fun w => w != v) }
    (List.range (c.stripCount f)).foldl (fun c s =>
      (c.makeItem (blankItem .correct f n 0 s (16 + v) (c.boundary n))).1) c
  else c

/-- R205: the freeze point of a feed before boundary `n`, under the `SHOW_SRC` and the fallback `fb` that apply from `n`
(R206, R214). -/
def Chip.freezeFeed (c : Chip) (f : Nat) (n : Int) (src : Nat) (fb : Show) : Chip :=
  let d := c.feed f
  if !(d.running && c.facetEn f) then c
  else
    let o := n - c.delay f
    let isNew := c.feedFrame f o
    let seen := src == 0 && c.showsFrom n
    let c := match (if isNew then d.frames.find? (fun x => x.o == o) else none) with
      | some fr => (c.freezeCopy fr).1.putFrame f (c.freezeCopy fr).2
      | none => c
    let (c, ring) := if isNew then c.judge f o seen fb else (c, (c.feed f).ring)
    let overtaken := c.markOvertaken f n ring
    let c := if overtaken then
        let c := (c.setFeed f { c.feed f with mark := none }).showMark f
        (c.raisePresent f (FST_FEEDf_EVENT.REWIND_LOST f) 2 (n + c.lead f + c.delay f)).bump (feedCnt f 0x18) 1
      else c
    let ring := if overtaken then fb else ring
    let c := if seen then c.countShown f n (isNew || overtaken || d.cur == .off) ring else c
    let eff := effective src ring
    let c := match eff with
      | .still v | .fbStill v => c.correctStill f n v
      | _ => c
    c.setFeed f { c.feed f with decided := some (ring, eff) }

/-- What is shown from boundary `n` on (R204): the decision taken at the freeze point. A source that a failed item has
spoilt since gives way to the mark or the fallback (R240). -/
def Chip.presentFeed (c : Chip) (f : Nat) : Chip :=
  let d := c.feed f
  match d.decided with
  | none => c
  | some (ring, eff) => (c.setFeed f { d with ring := ring, cur := eff, decided := none }).showStatus f

/-- R240: a frame shown has failed: from this boundary the mark is shown, or the fallback. -/
def Chip.dropFailed (c : Chip) (f : Nat) (n : Int) : Chip :=
  let d := c.feed f
  match d.cur with
  | .live s _ | .rewind s _ =>
    if d.frames.any (fun x => x.slot == s && x.failed) then
      let c := if d.mark.map (·.1) = some s then (c.setFeed f { c.feed f with mark := none }).showMark f else c
      let src := match (c.feed f).mark with
        | some (s', o') => Show.rewind s' o'
        | none => c.fallback f
      (((c.setFeed f { c.feed f with ring := src, cur := src }).abandon f n).countShown f n true src).showStatus f
    else c
  | _ => c

/-! Relayout (R200). -/

/-- The address of the first allocatable byte of region `q` (R569). -/
def allocBase (q : Nat) : Nat := 0x01140000 + q * 0x00600000

/-- The slots and the stills of feed `f` under the layout in force. -/
def Chip.heldSlots (c : Chip) (f : Nat) : Nat := c.layout.getD (2 * f) 0
def Chip.heldStills (c : Chip) (f : Nat) : Nat := c.layout.getD (2 * f + 1) 0

/-- The granule at which still `v` of feed `f` starts in every region, under the layout in force. -/
def Chip.stillGran (c : Chip) (f v : Nat) : Nat :=
  c.get (FST_FEEDf_LAYOUT.SLOT0_OFS f) + (c.heldSlots f + v) * c.get (FST_FEEDf_LAYOUT.SLOT_GRAN f)

/-- The offsets of the stills of the layout in force: (feed, still, granule). -/
def Chip.stillOffsets (c : Chip) : List (Nat × Nat × Nat) :=
  (List.range 4).flatMap (fun f => if c.get (FST_FEEDf_LAYOUT.SLOT_GRAN f) = 0 then [] else
    (List.range (c.heldStills f)).map (fun v => (f, v, c.stillGran f v)))

/-- The layout of the fields in force comes into force with its registers (R197). The slots and stills of every feed come
first in `layout`, then the terms of the planner rule. -/
def Chip.takeLayout (c : Chip) : Chip :=
  let pm := c.pMax
  (c.showLayout pm).setLayout ((List.range 4).flatMap (fun f => [c.slots f, c.stills f]) ++ c.planTerms pm)

/-- R200: whether the fields in force change a term of the planner rule, which lays out the memory again. -/
def Chip.layoutDue (c : Chip) : Bool := c.layout.drop 8 != c.planTerms c.pMax

/-- An effect on the SRAM window is owed at the end of the step. -/
def Chip.sramOp (c : Chip) (o : SramOp) : Chip := c.setSramOps (c.sramOps ++ [o])

/-- R200: the memory is laid out again for the fields in force: the ring slots are zeroed, the marks invalidated, all
items of the feeds and all sub-frame items cancelled with reason Relayout (R235). A still at a new offset and calibration beyond the former share hold free values. -/
def Chip.relayout (c : Chip) : Chip :=
  let old := c.stillOffsets
  let cal := c.get FST_LAYOUT_CAL.CAL_GRAN
  let c := c.takeLayout.setLayoutOld false
  let c := c.cancelWhere (fun i => i.type != .map) 8
  let moved := c.stillOffsets.filter (fun x => !old.contains x)
  let grown := c.get FST_LAYOUT_CAL.CAL_GRAN - cal
  let c := if grown = 0 then c
    else
      let (c, d) := c.draw
      (List.range 4).foldl (fun c q =>
        let a := allocBase q + cal * 4096
        c.sramOp (.store a ((List.range (grown * 4096)).map (fun i => Config.sramByte d (a + i))))) c
  let c := moved.foldl (fun c x =>
    let (c, d) := c.draw
    let len := c.get (FST_FEEDf_LAYOUT.SLOT_GRAN x.1) * 4096
    (List.range 4).foldl (fun c q =>
      let a := allocBase q + x.2.2 * 4096
      c.sramOp (.store a ((List.range len).map (fun i => Config.sramByte d (a + i))))) c) c
  (List.range 4).foldl (fun c f => if (c.feed f).running then c.restartRing f else c) c

end Sys2Proof.Machine
end

