-- ==== Sys2Proof/Machine/Sources.lean ====
section
/-!
DEFINITION. The references of the timebase PLL (R37, R40, R53 to R58): which are candidates, which is in use, and taking
another.
-/

namespace Sys2Proof.Machine

open Sys2Proof

/-- The code of a source in `ACTIVE_SRC` (R72). -/
def srcCode : ClkSrc → Nat
  | .xtal => 1 | .p0 => 2 | .p1 => 3

/-- The recovered clock of a port. -/
def portSrc (p : PortIx) : ClkSrc := if p = 0 then .p0 else .p1

/-- The qualification bit of a source. -/
def qualFld : ClkSrc → Fld
  | .xtal => CLK_STATUS.XTAL_QUAL | .p0 => CLK_STATUS.P0_QUAL | .p1 => CLK_STATUS.P1_QUAL

def Chip.qualified (c : Chip) (s : ClkSrc) : Bool := c.bit (qualFld s)

/-- The reference in use (R37), none in holdover. -/
def Chip.activeSrc (c : Chip) : Option ClkSrc :=
  match c.get CLK_STATUS.ACTIVE_SRC with
  | 1 => some .xtal | 2 => some .p0 | 3 => some .p1 | _ => none

/-- R40: the upstream port. -/
def Chip.upstream (c : Chip) : PortIx :=
  match c.time.slave with
  | some (p, _) => p
  | none => if c.bit CLK_CTRL.UPSTREAM then 1 else 0

/-- R53, R54: the candidates of the present mode, the most preferred first. -/
def Chip.candidates (c : Chip) : List ClkSrc :=
  match c.get CLK_CTRL.SRC_MODE with
  | 0 => [portSrc c.upstream, .xtal]
  | 1 => [.xtal]
  | 2 => [.p0, .xtal]
  | _ => [.p1, .xtal]

/-- The best qualified candidate. -/
def Chip.bestSrc (c : Chip) : Option ClkSrc := c.candidates.find? c.qualified

/-- R37, R55, R58: the PLL takes the source `s`. A source other than the last one held is a switch; the first source
after reset release and a return to the same source are not. The PLL slews or locks until `PLL_LOCK`; the first source
after reset release is no switch, and `HOLDOVER` then stays 0 (R72). -/
def Chip.selectSrc (c : Chip) (s : ClkSrc) : Chip :=
  let c1 := match c.clk.lastSrc with
    | some p =>
      if p = s then c
      else
        (c.latch CLK_EVENT.SRC_SWITCH).put CLK_EVENT.SWITCH_COUNT (min (c.get CLK_EVENT.SWITCH_COUNT + 1) 0xFFFF)
    | none => c
  let c2 := (((c1.put CLK_STATUS.ACTIVE_SRC (srcCode s)).putB CLK_STATUS.HOLDOVER c.clk.lastSrc.isSome).putB
    CLK_STATUS.PLL_LOCK false).putB CLK_STATUS.WAIT_XTAL false
  let first := c2.candidates.head? == some s
  c2.setClk { c2.clk with
    lastSrc := some s, modeFresh := c2.clk.modeFresh && !first, forcedLost := c2.clk.forcedLost && !first }

end Sys2Proof.Machine
end

