-- ==== Sys2Proof/Machine/TimeUnit.lean ====
section
/-!
DEFINITION. The time unit (R73 to R116): the local clock, the servo, the frame grid's input FSYNC_IN, captures,
triggers, and the PTP engine's data sets. These are the effects; the commands are in TimeCmds.lean.
-/

namespace Sys2Proof.Machine

open Sys2Proof

def timCnt (o : Nat) : Nat := 0x100500 + o

/-- The magnitude of a signed number. -/
def mag (x : Int) : Int := if x < 0 then -x else x

def clampInt (lo hi x : Int) : Int := max lo (min hi x)

/-- ±500 ppm and 100 ppm in steps of 2^-48 (R74, R99). -/
def rateMax : Int := 140737488355
def slewMax : Int := 28147497671

/-! The clock (R74, R75). -/

/-- R75: B is set to T and C_b to C before a new rate applies, held within ±500 ppm. -/
def Chip.setRate (c : Chip) (rInt slew : Int) (ticks : Nat) : Chip :=
  let rInt := clampInt (-rateMax) rateMax rInt
  let r := clampInt (-rateMax) rateMax (rInt + slew)
  c.setTime { c.time with base := c.now, cb := c.time.c.toNat, rInt := rInt, rate := r, slewTill := c.time.c.toNat + ticks }

/-- The r in force, in units of 10^-12. -/
def Chip.rateNow (c : Chip) : Int :=
  (if c.time.c.toNat < c.time.slewTill then c.time.rate else c.time.rInt) * 1000000000000 / 2 ^ 48

/-! Triggers (R112 to R114). -/

/-- The mode of a trigger. -/
def Chip.trigMode (c : Chip) (n : Nat) : Nat := c.get (TIM_TRIGn_CTRL.MODE n)

def Chip.trig (c : Chip) (n : Nat) : Trig := c.time.trigs.getD n Trig.idle

def Chip.setTrig (c : Chip) (n : Nat) (t : Trig) : Chip := c.setTime { c.time with trigs := c.time.trigs.set n t }

/-- The period of a `PERIODIC` trigger in 2^-16 ns: whole µs, 0 acting as 1, and 2^-16 µs (R116). -/
def Chip.trigPeriod (c : Chip) (n : Nat) : Int :=
  let w := c.get (TIM_TRIGn_PERIOD.PERIOD n)
  (max 1 (w / 2 ^ 16) : Nat) * usU + ((w % 2 ^ 16 : Nat) : Int) * 1000

/-- The first period boundary strictly after `t` of a trigger armed with `start` (R112). -/
def nextPeriod (start period t : Int) : Int :=
  if t < start then start else start + ((t - start) / period + 1) * period

/-- The later of `t` and the latest target that has fired. -/
def Trig.after (x : Trig) (t : Int) : Int :=
  match x.fired with
  | some g => max g t
  | none => t

/-- R112: the level that TRIGn drives: its asserted level is `POL`, its idle level the opposite. -/
def Chip.trigLevel (c : Chip) (n : Nat) : Bool := (c.trig n).asserted == c.bit (TIM_TRIGn_CTRL.POL n)

/-- R112, R113, R114: trigger `n` fires for its target `g`: its output is asserted for `WIDTH` ticks, 0 acting as 1, or, while
time is invalid, holds its idle level and an `ONCE` target is dropped. An `ONCE` trigger returns to `OFF`; for a dropped
target the manual does not say so (DESIGN CHOICE, log entry 117). A `PERIODIC` one takes its next target. -/
def Chip.fireTrig (c : Chip) (n : Nat) (g : Int) : Chip :=
  let t := c.trig n
  let t := { t with fired := some (t.after g) }
  let next := if c.trigMode n = 2 then some (nextPeriod t.start (c.trigPeriod n) (t.after c.now)) else none
  let t := { t with target := next }
  let till := c.time.c.toNat + max 1 (c.get (TIM_TRIGn_CTRL.WIDTH n))
  if c.timeValid then
    let c := c.setTrig n { t with asserted := true, till := if t.asserted then max t.till till else till }
    if c.trigMode n = 1 then c.put (TIM_TRIGn_CTRL.MODE n) 0 else c
  else
    let c := c.setTrig n t
    if c.trigMode n = 1 then (c.put (TIM_TRIGn_CTRL.MODE n) 0).latch (TIM_EVENT.TRIGn_MISSED.bit n) else c

/-- R78, R79, R112: trigger `n` is armed with its `TIME` when its mode is `ONCE` or `PERIODIC`. A target from 2^31 ns
behind to now fires at once and latches `TRIGn_LATE`. -/
def Chip.armTrig (c : Chip) (n : Nat) : Chip :=
  if c.trigMode n = 1 ∨ c.trigMode n = 2 then
    let nowNs := c.now / nsU
    let d := ((c.get (TIM_TRIGn_TIME.TIME n) : Int) - nowNs) % 2 ^ 32
    let d := if d < 2 ^ 31 then d else d - 2 ^ 32
    let target := (nowNs + d) * nsU
    let c := c.setTrig n { c.trig n with target := some target, start := target, fired := none }
    if target ≤ c.now then (c.latch (TIM_EVENT.TRIGn_LATE.bit n)).fireTrig n target else c
  else c

/-- R112, R114: the output is asserted until the last pulse that has started ends. -/
def Chip.trigPulseEnd (c : Chip) (n : Nat) : Chip :=
  let t := c.trig n
  if t.asserted && decide (t.till ≤ c.time.c.toNat) then c.setTrig n { t with asserted := false } else c

/-- R113: every trigger output at its idle level. -/
def Chip.idleTrigs (c : Chip) : Chip :=
  c.setTime { c.time with trigs := c.time.trigs.map (fun t => { t with asserted := false }) }

/-- R114: what a step does to trigger `n`: a step forward past an armed target fires it and latches `TRIGn_STEPPED`; a
`PERIODIC` trigger recomputes its next target, the first period boundary after the stepped time that has not fired.
`old` is the time before the step. -/
def Chip.stepTrig (old : Int) (c : Chip) (n : Nat) : Chip :=
  match (c.trig n).target with
  | none => c
  | some g =>
    if old < g ∧ g ≤ c.now then (c.fireTrig n g).latch (TIM_EVENT.TRIGn_STEPPED.bit n)
    else if c.trigMode n = 2 then
      let t := c.trig n
      c.setTrig n { t with target := some (nextPeriod t.start (c.trigPeriod n) (t.after c.now)) }
    else c

/-! Validity (R98, R100). -/

/-- Whether the servo state lets time be valid (R98). -/
def Chip.servoAllows (c : Chip) : Bool :=
  match c.time.servo with
  | .freerun => c.get TIM_CTRL.PTP_ROLE == 2
  | .acquire => false
  | .locked => true
  | .holdover => !c.time.holdInvalid
  | .fsync => true

/-- Whether the state displays: Running, or Fenced entered from Running (R34). -/
def Chip.displays (c : Chip) : Bool := c.st == .running || (c.st == .fenced && c.fromRunning)

/-- R100, R303, R304: `TIME_VALID` follows the servo and `WAIT_XTAL`. When time becomes invalid the outputs blank; when
it becomes valid display waits for a lock frame. -/
def Chip.revalidate (c : Chip) : Chip :=
  let v := c.servoAllows && !c.bit CLK_STATUS.WAIT_XTAL
  if v = c.timeValid then c
  else if v then
    let c := c.putB TIM_STATUS.TIME_VALID true
    if c.displays then c.setDisplay .waitLock else c
  else
    let c := ((c.putB TIM_STATUS.TIME_VALID false).loseDisplay).idleTrigs
    c.setTime { c.time with lastFrame := none, freezeDone := false }

/-- R57, R59: with no reference in use, a qualified candidate is taken at once: a new upstream port may name one. -/
def Chip.takeReference (c : Chip) : Chip :=
  if c.activeSrc.isNone then
    match c.bestSrc with
    | some b => (c.selectSrc b).revalidate
    | none => c
  else c

def servoCode : Servo → Nat
  | .freerun => 0 | .acquire => 1 | .locked => 2 | .holdover => 3 | .fsync => 4

/-- The milliseconds since entry into `HOLDOVER` (`HOLD_TIME`). -/
def Chip.holdMs (c : Chip) : Nat :=
  match c.time.holdStart with
  | some h => min ((c.time.c.toNat - h) / 800000) (2 ^ 32 - 1)
  | none => 0

/-- The servo enters the state `s` (R98). Leaving `HOLDOVER` leaves `HOLD_TIME` at the time spent there. -/
def Chip.setServo (c : Chip) (s : Servo) : Chip :=
  let c := if c.time.servo = .holdover ∧ s ≠ .holdover then
      let c := c.put TIM_HOLD_TIME.HOLD_TIME c.holdMs
      c.setTime { c.time with holdStart := none, holdInvalid := false }
    else c
  ((c.setTime { c.time with servo := s, lockCount := 0, bigCount := 0 }).put TIM_STATUS.SERVO_STATE
    (servoCode s)).revalidate

/-- R101: entry into `HOLDOVER`: r is frozen at the mean of the last 64 accepted updates. -/
def Chip.enterHoldover (c : Chip) : Chip :=
  let r := match c.time.rates with
    | [] => c.time.rInt
    | l => l.sum / (l.length : Int)
  let c := (c.setRate r 0 0).latch TIM_EVENT.HOLD_ENTER
  let c := c.setTime { c.time with holdStart := some c.time.c.toNat, holdInvalid := false }
  c.setServo .holdover

/-- R103: the tick of a loss is kept: a Sync of the same tick is discarded. -/
def Chip.markLost (c : Chip) : Chip := c.setTime { c.time with upstreamLostAt := some c.time.c.toNat }

/-- R98, R103: the upstream reference is lost: a locked servo enters `HOLDOVER`. -/
def Chip.upstreamLost (c : Chip) : Chip := if c.time.servo = .locked then c.enterHoldover.markLost else c.markLost

/-- R99, R97, R114: a step adds `e` to B and clears the accepted samples. -/
def Chip.stepTime (c : Chip) (e : Int) : Chip :=
  let old := c.now
  let c := c.setTime { c.time with base := c.now + e, cb := c.time.c.toNat, accepted := [], lastFrame := none,
                                   freezeDone := false }
  [0, 1, 2, 3].foldl (Chip.stepTrig old) (c.latch TIM_EVENT.STEP)

/-! The servo (R97 to R99). -/

/-- Insertion into a rising list. -/
def insertInt (x : Int) : List Int → List Int
  | [] => [x]
  | y :: l => if x ≤ y then x :: y :: l else y :: insertInt x l

/-- The median of a list; the mean of the two middle ones for an even count. -/
def median (l : List Int) : Int :=
  let s := l.foldr insertInt []
  let n := s.length
  if n % 2 = 1 then s.getD (n / 2) 0 else (s.getD (n / 2 - 1) 0 + s.getD (n / 2) 0) / 2

def Chip.stepThresh (c : Chip) : Int := (max 1 (c.get TIM_SERVO.STEP_THRESH) : Nat) * usU

/-- R97: whether a sample is rejected as an outlier. -/
def Chip.isOutlier (c : Chip) (e : Int) : Bool :=
  c.get TIM_SERVO.OUTLIER != 0 && decide (c.time.accepted.length ≥ 8)
    && decide (mag (e - median c.time.accepted) > (c.get TIM_SERVO.OUTLIER : Int) * 100 * nsU)

/-- `e` divided by 2^`k` and by the update interval, as a rate in steps of 2^-48. The interval is `tn`/`td` seconds. -/
def rateOf (e : Int) (k tn td : Nat) : Int := e * 2 ^ 32 * (td : Int) / (1000000000 * 2 ^ k * (tn : Int))

/-- R97, R99: an accepted sample: the integral part and the slew, which `LOCKED` bounds to 100 ppm. -/
def Chip.applySample (c : Chip) (e : Int) (tn td : Nat) : Chip :=
  let rInt := clampInt (-rateMax) rateMax (c.time.rInt + rateOf e (c.get TIM_SERVO.KI_SHIFT) tn td)
  let s := rateOf e (c.get TIM_SERVO.KP_SHIFT) tn td
  let s := if c.time.servo = .locked then clampInt (-slewMax) slewMax s else s
  let c := c.setRate rInt s (tn * 800000000 / td)
  let c := c.setTime { c.time with accepted := (e :: c.time.accepted).take 8,
                                   rates := (rInt :: c.time.rates).take 64 }
  c.putS TIM_OFFSET.OFFSET (e * 1000 / 65536)

/-- R97: a small error is rejected as an outlier and counted, or applied. -/
def Chip.judgeSample (c : Chip) (e : Int) (tn td : Nat) : Chip :=
  if c.isOutlier e then c.bump (timCnt 0x00) 1 else c.applySample e tn td

/-- R98, R99: one update of the servo in `ACQUIRE`. -/
def Chip.acquireSample (c : Chip) (e : Int) (tn td : Nat) : Chip :=
  if mag e > c.stepThresh then
    let c := c.stepTime e
    c.setTime { c.time with lockCount := 0 }
  else
    let c := c.judgeSample e tn td
    if mag e * 10 < (max 1 (c.get TIM_SERVO.LOCK_THRESH) : Nat) * 65536 then
      if c.time.lockCount + 1 ≥ 16 then c.setServo .locked
      else c.setTime { c.time with lockCount := c.time.lockCount + 1 }
    else c.setTime { c.time with lockCount := 0 }

/-- R99: an update in `LOCKED` or `FSYNC`: the third consecutive large error is stepped. R99 says so of `LOCKED`; in `FSYNC`
the model counts and steps alike and stays in `FSYNC` (DESIGN CHOICE, log entry 114). -/
def Chip.trackSample (c : Chip) (e : Int) (tn td : Nat) : Chip :=
  if mag e > c.stepThresh then
    if c.time.bigCount + 1 ≥ 3 then
      let c := if c.time.servo = .locked then c.setServo .acquire else c
      let c := c.stepTime e
      c.setTime { c.time with bigCount := 0 }
    else c.setTime { c.time with bigCount := c.time.bigCount + 1 }
  else (c.setTime { c.time with bigCount := 0 }).judgeSample e tn td

/-- R98: one update of the servo with the error `e`, the interval being `tn`/`td` seconds. -/
def Chip.servoUpdate (c : Chip) (e : Int) (tn td : Nat) : Chip :=
  match c.time.servo with
  | .freerun => (c.setServo .acquire).acquireSample e tn td
  | .acquire => c.acquireSample e tn td
  | .locked | .fsync => c.trackSample e tn td
  | .holdover =>
    if mag e ≤ c.stepThresh then (c.setServo .locked).judgeSample e tn td
    else (c.setServo .acquire).acquireSample e tn td

/-- 2^`k` seconds as a fraction. -/
def pow2Sec (k : Int) : Nat × Nat := if 0 ≤ k then (2 ^ k.toNat, 1) else (1, 2 ^ (-k).toNat)

/-! Delays (R85, R94). -/

/-- meanLinkDelay of a port in 2^-16 ns, from `LINKDLY` in 0.1 ns. -/
def Chip.linkDelay (c : Chip) (p : PortIx) : Int := (c.get (TIM_Pp_LINKDLY.LINKDLY p) : Int) * 65536 / 10

/-- R94: the asymmetry A of a port in 2^-16 ns. -/
def Chip.asymmetry (c : Chip) (p : PortIx) : Int :=
  let a := c.getS (TIM_Pp_ALPHA.ALPHA p)
  c.getS (TIM_Pp_ASYM.ASYM p) * 65536 / 1000 + c.linkDelay p * a / (2000000000 + a)

/-- Whether the phase-tracked profile measures delay peer to peer (R80). -/
def Chip.peerDelay (c : Chip) : Bool := c.bit TIM_CTRL.PROFILE

/-- R97: the error e of a Sync: the negative of offsetFromMaster. -/
def Chip.syncError (c : Chip) (m : SyncMsg) : Int :=
  let delay := if c.peerDelay then c.linkDelay m.port else c.time.meanPath
  m.origin + m.correction + delay + c.asymmetry m.port - c.time.now m.frac10

/-- R92, R93: in the phase-tracked profile the PTP offset fixes the whole ticks of the error and the phase detector,
in 0.1 ps, its fraction, once calibrated and while the chain is unbroken. -/
def Chip.phaseError (c : Chip) (e : Int) (phase : Int) : Int :=
  if c.bit TIM_CTRL.PROFILE && c.bit TIM_STATUS.PHASE_VALID && !c.time.phaseBroken then
    let f := phase * 65536 / 10000
    f + nearest (e - f) 81920 * 81920
  else e
where
  /-- The whole number nearest to `a / b`. -/
  nearest (a : Int) (b : Nat) : Int := (2 * a + b) / (2 * b)

/-! Timestamp export and records (R91, R111, R116). -/

/-- The four words of a time record, with its `AUX` and `SEQ`. -/
def recWords (t : TimeRec) (aux seq : Nat) : List Nat :=
  [t.sec / 2 ^ 32 % 2 ^ 16 + (aux % 256) * 2 ^ 16 + (if t.invalid then 2 ^ 30 else 0) + 2 ^ 31,
   t.sec % 2 ^ 32, t.ns, t.frac + (seq % 2 ^ 16) * 2 ^ 16]

/-- A list of words put at consecutive addresses from `a`. -/
def Chip.putWords (c : Chip) (a : Nat) : List Nat → Chip
  | [] => c
  | w :: ws => (c.setReg a (wordOf w)).putWords (a + 4) ws

/-- R91: with `TS_EXPORT` at 1 an event timestamp enters the export queue of 64 entries, or the full queue latches
`TSQ_OVERRUN`. -/
def Chip.exportTs (c : Chip) (t : Int) (msgType : Nat) (p : PortIx) (transmit : Bool) (seq : Nat) : Chip :=
  if c.bit TIM_CTRL.TS_EXPORT then
    if c.time.tsq.length ≥ 64 then c.latch TIM_EVENT.TSQ_OVERRUN
    else
      let e : TsqEntry := ⟨timeRecOf t (!c.timeValid), msgType, p.val, transmit, seq⟩
      c.setTime { c.time with tsq := c.time.tsq ++ [e] }
  else c

/-- R70: word 0 of `TIM_NOW` is read: one snapshot for all four words. -/
def Chip.snapNow (c : Chip) : Chip := c.putWords 0x20030 (recWords c.nowRec 0 0)

/-- R91: word 0 of `TIM_TSQ` is read: the head entry is popped; an empty queue gives `PRESENT` 0. -/
def Chip.popTsq (c : Chip) : Chip :=
  match c.time.tsq with
  | [] => c.setReg 0x20120 0#32
  | e :: q =>
    let aux := e.msgType % 16 + 16 * e.port + (if e.transmit then 32 else 0)
    (c.setTime { c.time with tsq := q }).putWords 0x20120 (recWords e.time aux e.seq)

/-- An instant of C in 0.05 ns: `frac10` tenths of a nanosecond after the last tick (R76). -/
def Time.at05 (t : Time) (frac10 : Nat) : Nat := 25 * t.c.toNat + 2 * frac10

/-- R111: the edge held on CAPn is no edge of a short pulse: if it is enabled it is queued, dropped when it is closer than
50 ns to the previous capture, or ignored by a full queue of 16. -/
def Chip.takeCap (c : Chip) (n : Nat) : Chip :=
  match c.time.capHeld.getD n none with
  | none => c
  | some h =>
    let c := c.setTime { c.time with capHeld := c.time.capHeld.set n none }
    if !h.enabled then c
    else
      let close := match c.time.lastCap.getD n none with
        | some l => decide (h.at05 < l + 1000)
        | none => false
      if close then c.bump (timCnt (0x20 + 8 * n)) 1
      else
        let q := c.time.caps.getD n []
        if q.length ≥ 16 then c.latch (TIM_EVENT.CAPn_OVERRUN.bit n)
        else c.setTime { c.time with caps := c.time.caps.set n (q ++ [h.time]),
                                     lastCap := c.time.lastCap.set n (some h.at05) }

/-- R111: whether the edge held on CAPn is 5 ns old. -/
def Chip.capDue (c : Chip) (n : Nat) : Bool :=
  match c.time.capHeld.getD n none with
  | some h => decide (h.at05 + 100 ≤ c.time.at05 0)
  | none => false

/-- R111: the edges held for 5 ns are taken. -/
def Chip.takeCaps (c : Chip) : Chip := [0, 1, 2, 3].foldl (fun c n => if c.capDue n then c.takeCap n else c) c

/-- R111: word 0 of `TIM_CAPn` is read. -/
def Chip.popCap (c : Chip) (n : Nat) : Chip :=
  match c.time.caps.getD n [] with
  | [] => c.setReg (0x200A0 + 0x10 * n) 0#32
  | e :: q => (c.setTime { c.time with caps := c.time.caps.set n q }).putWords (0x200A0 + 0x10 * n) (recWords e 0 0)

/-- R111: an edge on CAPn. Within 5 ns of an edge of the other direction it ends a pulse that is ignored; otherwise it is held
until 5 ns have passed, with its time. -/
def Chip.capEdge (c : Chip) (n : Nat) (rising : Bool) (frac10 : Nat) : Chip :=
  let at05 := c.time.at05 frac10
  let short := match c.time.capHeld.getD n none with
    | some h => h.rising != rising && decide (at05 < h.at05 + 100)
    | none => false
  if short then c.setTime { c.time with capHeld := c.time.capHeld.set n none }
  else
    let en := c.get ⟨0x20090, 8 * n, 2⟩
    let c := c.takeCap n
    c.setTime { c.time with capHeld := c.time.capHeld.set n (some
      { at05 := at05, rising := rising, time := timeRecOf (c.time.now frac10) (!c.timeValid),
        enabled := if rising then en.testBit 0 else en.testBit 1 }) }

/-- R116: a write of 1 to `SET_GO`: B is loaded from `TIM_SET`, which is a step, or `SET_REFUSED` latches. -/
def Chip.setGo (c : Chip) : Chip :=
  if c.get TIM_CTRL.PTP_ROLE = 2 ∨ c.get TIM_CTRL.TIME_SRC ≠ 0 then
    let sec : Nat := c.get ⟨0x20040, 0, 16⟩ * 2 ^ 32 + c.get (wordAt 0x20044)
    let t : Int := ((sec : Int) * 1000000000 + (c.get (wordAt 0x20048) : Int)) * 65536
      + (c.get ⟨0x2004C, 0, 16⟩ : Int)
    c.stepTime (t - c.now)
  else c.latch TIM_EVENT.SET_REFUSED

/-! PTP data sets (R80 to R83). -/

/-- The device's MAC address of port `p` (R140). -/
def Chip.macOf (c : Chip) (p : PortIx) : Nat := c.get ID_MAC_HI.MAC_BASE_HI * 2 ^ 32 + c.get ID_MAC_LO.MAC_BASE_LO + p.val

/-- The clock identity: the base MAC address with 0xFFFE between its halves (log entry 9). -/
def Chip.clockId (c : Chip) : Nat :=
  let m := c.macOf 0
  (m / 2 ^ 24) * 2 ^ 40 + 0xFFFE * 2 ^ 24 + m % 2 ^ 24

/-- The order of the best master clock algorithm on two data sets written as lists: the lower one is better. -/
def lexLt : List Nat → List Nat → Bool
  | [], _ => false
  | _, [] => false
  | x :: xs, y :: ys => if x = y then lexLt xs ys else decide (x < y)

def annKey (a : PtpAnnounce) : List Nat :=
  [a.priority1, a.clockClass, a.accuracy, a.variance, a.priority2, a.gmId, a.stepsRemoved, a.sender, a.port.val]

def Chip.ownKey (c : Chip) : List Nat :=
  [c.get TIM_PTP_CFG.PRIORITY1, c.get TIM_PTP_QUALITY.CLOCK_CLASS, c.get TIM_PTP_QUALITY.ACCURACY,
   c.get TIM_PTP_QUALITY.VARIANCE, c.get TIM_PTP_CFG.PRIORITY2, c.clockId, 0, 0, 0]

/-- The best entry of the foreign master table. -/
def bestForeign : List Foreign → Option PtpAnnounce
  | [] => none
  | f :: fs =>
    match bestForeign fs with
    | none => some f.ann
    | some b => if lexLt (annKey f.ann) (annKey b) then some f.ann else some b

/-- R82, R83: the best master clock algorithm chooses the slave port and the grandmaster. -/
def Chip.chooseMaster (c : Chip) : Chip :=
  let role := c.get TIM_CTRL.PTP_ROLE
  let best := if role = 2 then none
    else match bestForeign c.time.foreign with
      | none => none
      | some b => if role = 1 ∧ lexLt (annKey b) c.ownKey = false then none else some b
  let gm := match best with
    | some b => b.gmId
    | none => if role = 1 ∨ role = 2 then c.clockId else 0
  let old := c.get (TIM_GM_ID.GM_ID 0) * 2 ^ 32 + c.get (TIM_GM_ID.GM_ID 1)
  let c := if gm = old then c
    else ((c.put (TIM_GM_ID.GM_ID 0) (gm / 2 ^ 32)).put (TIM_GM_ID.GM_ID 1) gm).latch TIM_EVENT.GM_CHANGE
  match best with
  | some b =>
    let c := c.setTime { c.time with slave := some (b.port, b.sender) }
    ((c.putB TIM_STATUS.SLAVE_PORT (b.port == 1)).putB TIM_STATUS.TRACEABLE
      (b.traceable && c.get TIM_CTRL.TIME_SRC == 0)).takeReference
  | none =>
    let c := ((c.setTime { c.time with slave := none }).putB TIM_STATUS.TRACEABLE false).takeReference
    if c.time.servo = .acquire then c.setServo .freerun else c

/-- R83: an Announce of the active domain enters the table of 16 entries per port, or refreshes its entry. -/
def Chip.ptpAnnounce (c : Chip) (a : PtpAnnounce) : Chip :=
  if a.domain ≠ c.get TIM_CTRL.DOMAIN then c
  else
    let others := c.time.foreign.filter (fun f => !(f.port == a.port && f.ann.sender == a.sender))
    let known := decide (others.length < c.time.foreign.length)
    if !known && decide ((others.filter (fun f => f.port == a.port)).length ≥ 16) then c
    else ((c.setTime { c.time with foreign := others ++ [⟨a.port, a⟩] }).put TIM_STATUS.UTC_OFFSET a.utcOffset).chooseMaster

/-- R83: an entry ages out. -/
def Chip.foreignAgeout (c : Chip) (p : PortIx) (sender : Nat) : Chip :=
  let rest := c.time.foreign.filter (fun f => !(f.port == p && f.ann.sender == sender))
  (c.setTime { c.time with foreign := rest }).chooseMaster

/-- Whether the device acts as grandmaster: an island grandmaster, or master-capable with no better master (R82). -/
def Chip.isMaster (c : Chip) : Bool :=
  c.get TIM_CTRL.PTP_ROLE == 2 || (c.get TIM_CTRL.PTP_ROLE == 1 && c.time.slave.isNone)

/-- The length of a PTP frame of `n` bytes of message on the transport in use (R81). -/
def Chip.ptpLen (c : Chip) (p : PortIx) (n : Nat) : Nat :=
  match c.get TIM_CTRL.TRANSPORT with
  | 0 => c.udpLen p (mapped4 0) n
  | 1 => c.udpLen p 0 n
  | _ => max 64 (14 + c.tagBytes p + n + 4)

/-- R81: where PTP frames of the transport in use go: event messages to UDP port 319, general ones to 320; peer delay messages
to groups of their own. -/
def Chip.ptpTo (c : Chip) (event peer : Bool) : PtpTo :=
  let port := if event then 319 else 320
  match c.get TIM_CTRL.TRANSPORT with
  | 0 => .udp (mapped4 (if peer then 0xE000006B else 0xE0000181)) port
  | 1 => .udp (if peer then 0xFF02 * 2 ^ 112 + 0x6B else 0xFF0E * 2 ^ 112 + 0x181) port
  | _ => .l2 (if peer then 0x0180C200000E else 0x011B19000000)

/-- The next sequenceId. -/
def Chip.nextPtpSeq (c : Chip) : Chip := c.setTime { c.time with txSeq := (c.time.txSeq + 1) % 2 ^ 16 }

/-- R82 to R84: a master sends a one-step Sync, with the phase-tracked bit in that profile. -/
def Chip.syncSend (c : Chip) (p : PortIx) (frac10 : Nat) : Chip :=
  if c.isMaster then
    let t := c.time.now frac10
    let c' := c.sendLocal p ⟨.ptpSync (c.ptpTo true false) c.time.txSeq t (c.bit TIM_CTRL.PROFILE), c.ptpLen p 44⟩
    (c'.exportTs t 0 p true c.time.txSeq).nextPtpSeq
  else c

/-- R80: an Announce at its interval. -/
def Chip.announceSend (c : Chip) (p : PortIx) : Chip :=
  if c.isMaster then (c.sendLocal p ⟨.ptpAnnounce (c.ptpTo false false) c.time.txSeq c.clockId 0, c.ptpLen p 64⟩).nextPtpSeq else c

/-- R80: a delay request on the port that needs one: the slave port end to end, every port peer to peer. -/
def Chip.delayReqSend (c : Chip) (p : PortIx) (frac10 : Nat) : Chip :=
  let t := c.time.now frac10
  if c.peerDelay then
    ((c.sendLocal p ⟨.ptpDelayReq (c.ptpTo true true) c.time.txSeq true, c.ptpLen p 54⟩).exportTs t 2 p true c.time.txSeq).nextPtpSeq
  else
    match c.time.slave with
    | some (q, _) =>
      if q = p then
        let c' := (c.sendLocal p ⟨.ptpDelayReq (c.ptpTo true false) c.time.txSeq false, c.ptpLen p 44⟩).exportTs t 1 p true c.time.txSeq
        (c'.setTime { c'.time with delayReq := some (t, c.time.txSeq) }).nextPtpSeq
      else c
    | none => c

/-- R97: the master's Delay_Resp completes the end-to-end measurement: the mean of the two directions, corrected. -/
def Chip.delayResp (c : Chip) (p : PortIx) (sender seq : Nat) (receipt correction : Int) : Chip :=
  match c.time.slave, c.time.delayReq, c.time.lastSync with
  | some (q, m), some (t3, s), some (t1, t2) =>
    if q = p ∧ m = sender ∧ s = seq ∧ !c.peerDelay then
      c.setTime { c.time with meanPath := ((t2 - t1) + (receipt - correction - t3)) / 2, delayReq := none }
    else c
  | _, _, _ => c

/-- R83, R91: a Delay_Req is answered by a master, up to 4,096 in each second and port; more are dropped and counted. The
seconds are those of C from reset release (DESIGN CHOICE, log entry 115). Every Delay_Req has an event timestamp. -/
def Chip.delayReqReceived (c : Chip) (p : PortIx) (requester seq frac10 : Nat) : Chip :=
  let t := c.time.now frac10
  let c := c.exportTs t 1 p false seq
  if c.isMaster then
    let sec := c.time.c.toNat / 800000000
    let (w, n) := c.time.dreqWindow.getD p.val (0, 0)
    let n := if w = sec then n else 0
    if n ≥ 4096 then c.bump (timCnt (0x08 + 8 * p.val)) 1
    else
      (c.setTime { c.time with dreqWindow := c.time.dreqWindow.set p.val (sec, n + 1) }).sendLocal p
        ⟨.ptpDelayResp (c.ptpTo false false) seq requester t, c.ptpLen p 54⟩
  else c

/-- R85, R91, R94: a peer delay exchange, whose Pdelay_Resp has an event timestamp, gives the port's meanLinkDelay, in `LINKDLY` in 0.1 ns. -/
def Chip.pdelay (c : Chip) (m : PdelayMsg) : Chip :=
  let d := ((m.t4 - m.t1) - (m.t3 - m.t2) - m.correction) / 2
  let v := (max 0 d).toNat * 10 / 65536
  let c := c.setTime { c.time with partnerBit := c.time.partnerBit.set m.port.val m.partnerBit }
  let c := c.exportTs m.t4 3 m.port false m.seq
  c.put (TIM_Pp_LINKDLY.LINKDLY m.port) (min v (2 ^ 32 - 1))

def Chip.setPhase (c : Chip) (p0 p1 : Int) : Chip :=
  (c.putS CAL_PHASE_OFS0.PHASE_OFS p0).putS CAL_PHASE_OFS1.PHASE_OFS p1

/-- R498: interpolated phase offsets come into force at a servo update. -/
def Chip.takePhase (c : Chip) : Chip :=
  match c.calib.phaseTo with
  | some (a, b) => (c.setPhase a b).setCalib { c.calib with phaseTo := none }
  | none => c

/-- The offset of port `p`'s phase detector that calibration found (R489). -/
def Chip.phaseOffset (c : Chip) (p : PortIx) : Int :=
  if p.val = 0 then c.getS CAL_PHASE_OFS0.PHASE_OFS else c.getS CAL_PHASE_OFS1.PHASE_OFS

/-- R492: whether the calibration item `PHASE_OFS` is under way. -/
def Chip.phaseItem (c : Chip) : Bool :=
  match c.calib.run with
  | some r => r.items.head? == some 1
  | none => false

/-- R492: whether a Sync falls into the 4 ms of its port. With both links up the spec does not say which port is measured
first, and a free value decides. -/
def Chip.dropsSync (c : Chip) (tracked : Bool) : Chip × Bool :=
  if tracked && c.phaseItem then
    if c.linkUp 0 && c.linkUp 1 then
      let (c, d) := c.draw
      (c, decide (Config.choice d % 2 = 0))
    else (c, true)
  else (c, false)

/-- R84, R91, R97, R98, R103: a Sync of the selected master on the slave port runs one update of the servo; one in the tick
of a loss of the upstream reference is discarded. `PHASE` shows the detector's reading less the calibrated offset (R93).
Every Sync has an event timestamp. -/
def Chip.syncReceived (c : Chip) (m : SyncMsg) : Chip :=
  let c := c.exportTs (c.time.now m.frac10) 0 m.port false m.seq
  if c.get TIM_CTRL.TIME_SRC = 0 ∧ c.time.slave = some (m.port, m.master) then
    if c.time.upstreamLostAt = some c.time.c.toNat then c else
    let (c, drop) := c.dropsSync (c.bit TIM_CTRL.PROFILE && c.bit TIM_STATUS.PHASE_VALID && m.phaseBit)
    let c := if drop then c else c.takePhase
    let phase := m.phase - c.phaseOffset m.port
    let c := c.put (TIM_Pp_PHASE.PHASE m.port) (satSigned 32 phase)
    let broken := c.bit TIM_CTRL.PROFILE && !m.phaseBit
    let c := if broken then c.latch TIM_EVENT.PHASE_CHAIN_BROKEN else c
    let e := c.syncError m
    let c := c.setTime { c.time with phaseBroken := broken,
                                     lastSync := some (m.origin + m.correction, c.time.now m.frac10) }
    let (tn, td) := pow2Sec m.logInterval
    if drop then c else c.servoUpdate (c.phaseError e phase) tn td
  else c

/-- R98, R103: three Sync intervals have passed without a Sync, or the upstream reference is lost. The table of R98 gives
`ACQUIRE` no exit for it; the model goes to `FREERUN`, as with no master (DESIGN CHOICE, log entry 113). -/
def Chip.syncLost (c : Chip) : Chip :=
  match c.time.servo with
  | .locked => c.enterHoldover.markLost
  | .acquire => (c.setServo .freerun).markLost
  | _ => c.markLost

/-- R101: whether `HOLD_TIME` has reached `HOLD_MAX` seconds, 0 acting as 1. -/
def Chip.holdOver (c : Chip) : Bool :=
  c.time.servo == .holdover && decide (1000 * max 1 (c.get TIM_HOLD.HOLD_MAX) ≤ c.holdMs)

/-- R101: `HOLD_TIME` reaches `HOLD_MAX`. -/
def Chip.holdExpired (c : Chip) : Chip :=
  if c.holdOver then
    if c.bit TIM_HOLD.HOLD_ACTION then (c.setTime { c.time with holdInvalid := true }).revalidate
    else c.latch TIM_EVENT.HOLD_EXPIRED
  else c

/-! FSYNC_IN (R107 to R110). -/

/-- R108: the pulse expected at boundary `n` is rejected. The expected pulses since the last accepted one are then missing
or rejected in a row; the `FS_MISS`-th moves the servo to `HOLDOVER`. A rejected pulse stands for the pulse expected at
the boundary nearest to it (DESIGN CHOICE, log entry 116). -/
def Chip.fsyncMiss (c : Chip) (n every : Int) : Chip :=
  let k := match c.time.fsBase with
    | some b => ((n - b) / every).toNat
    | none => c.time.fsMissed + 1
  let c := c.setTime { c.time with fsMissed := k }
  if k ≥ max 1 (c.get TIM_FSYNC.FS_MISS) then c.enterHoldover else c

/-- R107, R108, R110: an edge on FSYNC_IN. -/
def Chip.fsyncEdge (c : Chip) (rising : Bool) (frac10 : Nat) : Chip :=
  if rising = c.bit TIM_FSYNC.FS_EDGE then c
  else
    let t := c.time.now frac10 + c.getS TIM_FSYNC_DELAY.FS_DELAY * nsU
    let p := c.period
    let n0 := gridN p c.gridOffset t
    let lo := gridT p c.gridOffset n0
    let hi := gridT p c.gridOffset (n0 + 1)
    let n := if t - lo ≤ hi - t then n0 else n0 + 1
    let off := t - gridT p c.gridOffset n
    let c := c.putS TIM_FSYNC_ERROR.FS_ERROR (off * 10 / 65536)
    if c.get TIM_CTRL.TIME_SRC ≠ 1 then c
    else if c.time.servo ≠ .fsync then
      let c := c.stepTime (-off)
      let c := c.setTime { c.time with fsMissed := 0, fsBase := some n }
      (c.putB TIM_STATUS.TRACEABLE false).setServo .fsync
    else
      let every := c.get TIM_FSYNC.FS_FRAMES + 1
      let due := match c.time.fsBase with
        | some b => decide (b < n) && (n - b) % (every : Int) == 0
        | none => true
      if due && decide (mag off ≤ (c.get TIM_FSYNC.FS_WINDOW : Int) * nsU) then
        let c := c.setTime { c.time with fsMissed := 0, fsBase := some n }
        c.takePhase.servoUpdate (-off) (every * p.1) p.2
      else
        let c := c.bump (timCnt 0x18) 1
        if due then c.fsyncMiss n every else c

/-- R108: `FS_MISS` consecutive expected pulses are missing. -/
def Chip.fsyncMissLimit (c : Chip) : Chip := if c.time.servo = .fsync then c.enterHoldover else c

end Sys2Proof.Machine
end

