-- ==== Sys2Proof/Machine/Clocks.lean ====
section
/-!
DEFINITION. Clock sources, their qualification and loss, the selection of the reference, and the trim of the control
oscillator (R37 to R72). These are the effects; the commands that have them are in ClockCmds.lean.
-/

namespace Sys2Proof.Machine

open Sys2Proof

/-- The PLL runs with no reference: its frequency control word is frozen (R39). -/
def Chip.pllHoldover (c : Chip) : Chip :=
  ((c.put CLK_STATUS.ACTIVE_SRC 0).putB CLK_STATUS.HOLDOVER true).putB CLK_STATUS.PLL_LOCK false

/-- R61, R440: no source is left: `CLOCK_LOST` is logged and the device resets with cause `CLK_NONE`. -/
def Chip.clockLost (c : Chip) : Chip := c.fatal 0x0404 0xF002 0 causeClkNone

/-- Whether no source is qualified, none is starting and no `WAIT_XTAL` runs (R61). -/
def Chip.sourceless (c : Chip) : Bool :=
  !c.qualified .xtal && !c.qualified .p0 && !c.qualified .p1 && !c.bit CLK_STATUS.XTAL_WINDOW
    && !c.bit CLK_STATUS.WAIT_XTAL

/-- R59: a `WAIT_XTAL` begins. Outputs blank, time becomes invalid, the PLL holds over. -/
def Chip.beginWaitXtal (c : Chip) : Chip :=
  (((c.pllHoldover.putB CLK_STATUS.WAIT_XTAL true).latch CLK_EVENT.WAIT_XTAL_SEEN).loseDisplay).revalidate

/-- R54, R55, R59, R61: what follows when the source `s`, already marked as not qualified, is lost. With no candidate
qualified, the crystal not starting and a source that is no candidate qualified, no rule applies: the PLL holds over, and
nothing blanks (DESIGN CHOICE, log entry 119). -/
def Chip.afterLoss (c : Chip) (s : ClkSrc) : Chip :=
  let forced := c.get CLK_CTRL.SRC_MODE ≥ 2 && c.candidates.head? == some s
  let c := if forced then c.setClk { c.clk with forcedLost := true } else c
  if c.activeSrc = some s then
    match c.bestSrc with
    | some b => c.selectSrc b
    | none =>
      if c.bit CLK_STATUS.XTAL_WINDOW then c.beginWaitXtal
      else if c.sourceless then c.clockLost
      else c.pllHoldover
  else if c.sourceless then c.clockLost
  else c

/-- R54, R59, R62: what follows when the source `s` has become qualified. -/
def Chip.afterQual (c : Chip) (s : ClkSrc) : Chip :=
  let cand := c.candidates.contains s
  if c.bit CLK_STATUS.WAIT_XTAL then
    if cand then (c.selectSrc s).revalidate else c
  else
    match c.activeSrc with
    | none => if cand then c.selectSrc s else c
    | some a =>
      if c.clk.modeFresh && cand && (c.candidates.head? == some s || !c.candidates.contains a) then c.selectSrc s
      else c

/-- R46, R72: the crystal is not qualified; `FOFS` of both ports reads 0x8000_0000. -/
def Chip.xtalUnqualified (c : Chip) : Chip :=
  ((c.putB CLK_STATUS.XTAL_QUAL false).put (CLK_Pp_FOFS.FOFS 0) 0x80000000).put (CLK_Pp_FOFS.FOFS 1) 0x80000000

/-- R48: the crystal start window opens. `auto` tells an automatic restart (R50). -/
def Chip.openWindow (c : Chip) (auto : Bool) : Chip :=
  let c := (c.xtalUnqualified).putB CLK_STATUS.XTAL_WINDOW true
  c.setClk { c.clk with xtalLost := false, restartWindow := auto }

/-- R43, R50, R59: the crystal stall monitor trips; the crystal, lost or not, is restarted once. No monitor judges a crystal
that is starting (R48). -/
def Chip.xtalStall (c : Chip) : Chip :=
  if c.bit CLK_STATUS.XTAL_WINDOW then c
  else
    let c := c.latch CLK_EVENT.XTAL_STALL
    let c := if c.clk.autoRestartUsed then
        c.xtalUnqualified.setClk { c.clk with xtalLost := true }
      else c.openWindow true
    c.afterLoss .xtal

/-- R43: the crystal lies outside ±2 % of the trimmed control oscillator. -/
def Chip.xtalGrossFreq (c : Chip) : Chip :=
  if c.qualified .xtal && c.bit CLK_STATUS.COSC_TRIMMED then
    (c.xtalUnqualified.setClk { c.clk with xtalLost := true }).afterLoss .xtal
  else c

/-- R45, R55, R98: the recovered clock of port `p` is disqualified. The loss of the upstream reference moves a locked servo to
`HOLDOVER`. A clock that is not qualified is no reference, and nothing is lost with it. -/
def Chip.recoveredGone (c : Chip) (p : PortIx) : Chip :=
  if c.qualified (portSrc p) then
    let up := c.upstream = p
    let c := (c.putB (qualFld (portSrc p)) false).afterLoss (portSrc p)
    if up ∧ c.st ≠ .reset then c.upstreamLost else c
  else c

/-- R43: a recovered-loss monitor trips. -/
def Chip.recoveredLoss (c : Chip) (p : PortIx) : Chip :=
  (c.latch (if p = 0 then CLK_EVENT.P0_LOSS else CLK_EVENT.P1_LOSS)).recoveredGone p

/-- R43, R45: a recovered clock is beyond `FREQ_LIMIT` of the crystal; R46: only while the crystal is qualified. -/
def Chip.recoveredFreq (c : Chip) (p : PortIx) : Chip :=
  if c.qualified .xtal then
    (c.latch (if p = 0 then CLK_EVENT.P0_FREQ else CLK_EVENT.P1_FREQ)).recoveredGone p
  else c

/-- The start of a trim (R66), unless `TRIM_REF` selects no reference, which holds the last trim (R64). -/
def Chip.startTrim (c : Chip) : Chip :=
  let t : Trim := ⟨.coarse, 0, 10 ^ 9, none, c.get CLK_COSC_TRIM.COARSE, c.get CLK_COSC_TRIM.FINE⟩
  if c.get CLK_COSC_TRIM.TRIM_REF = 3 then c else c.setClk { c.clk with trim := some t }

/-- R44, R67: the crystal has completed 65,536 good cycles in its start window. While the boot ROM runs, the trim
against the crystal starts. R44 does not say whether a crystal lost outside a start window can qualify again without a
restart; the model takes a qualification only while `XTAL_WINDOW` is 1 (DESIGN CHOICE, log entry 120). -/
def Chip.xtalQualified (c : Chip) : Chip :=
  if c.bit CLK_STATUS.XTAL_WINDOW then
    let c := (c.putB CLK_STATUS.XTAL_QUAL true).putB CLK_STATUS.XTAL_WINDOW false
    let c := c.setClk { c.clk with xtalLost := false, autoRestartUsed := false, restartWindow := false }
    let c := c.afterQual .xtal
    if c.st = .boot ∧ c.power.imageRunning = false then c.startTrim else c
  else c

/-- R44, R52: a recovered clock has been free of trips for `QUAL_TIME`; it completes its qualification only while the
crystal is qualified, and only once the ports are up. -/
def Chip.recoveredQualified (c : Chip) (p : PortIx) : Chip :=
  if c.qualified .xtal && c.power.portsUp && !c.qualified (portSrc p) then
    (c.putB (qualFld (portSrc p)) true).afterQual (portSrc p)
  else c

/-- R49, R52, R60, R61: the start window closes without qualification. A `WAIT_XTAL` defers the judgement. -/
def Chip.xtalQualFail (c : Chip) : Chip :=
  if c.bit CLK_STATUS.XTAL_WINDOW && !c.bit CLK_STATUS.WAIT_XTAL then
    let c := (c.putB CLK_STATUS.XTAL_WINDOW false).latch CLK_EVENT.XTAL_QUAL_FAIL
    let c := c.setClk { c.clk with xtalLost := true, autoRestartUsed := c.clk.restartWindow }
    if c.sourceless then c.clockLost else c
  else c

/-- R59: neither source has qualified 20 ms after the trip. -/
def Chip.waitXtalDeadline (c : Chip) : Chip := if c.bit CLK_STATUS.WAIT_XTAL then c.clockLost else c

/-- R62: the PLL has locked to the source in use, and its slew has ended. -/
def Chip.pllLocked (c : Chip) : Chip :=
  if c.activeSrc.isSome then (c.putB CLK_STATUS.PLL_LOCK true).putB CLK_STATUS.HOLDOVER false else c

/-- Whether the source `s` ranks before `a` among the candidates. -/
def prefers (cand : List ClkSrc) (s a : ClkSrc) : Bool :=
  decide (cand.findIdx (· == s) < cand.findIdx (· == a))

/-- R54, R56, R57: a more preferred candidate has stayed qualified for `REVERT_HOLD`. In a forced mode the return does
not depend on `REVERTIVE`. A reference that a new upstream port has made no candidate ranks last, the crystal before it
(DESIGN CHOICE, log entry 121). -/
def Chip.revert (c : Chip) : Chip :=
  match c.activeSrc, c.bestSrc with
  | some a, some b =>
    if prefers c.candidates b a &&
        (if c.get CLK_CTRL.SRC_MODE = 0 then c.bit CLK_CTRL.REVERTIVE else true)
    then c.selectSrc b else c
  | _, _ => c

/-- R54: `SRC_MODE` has been written with a new value. -/
def Chip.srcModeChanged (c : Chip) : Chip :=
  let c := c.setClk { c.clk with forcedLost := false, modeFresh := true }
  match c.bestSrc with
  | none => c
  | some b =>
    let keep := match c.activeSrc with
      | some a => a == b || (c.candidates.contains a && c.candidates.head? != some b)
      | none => false
    if keep then
      c.setClk { c.clk with modeFresh := c.activeSrc != c.candidates.head? }
    else
      let wait := c.bit CLK_STATUS.WAIT_XTAL
      let c := c.selectSrc b
      if wait then c.revalidate else c

/-- R63: a write of 1 to `XTAL_RESTART`. Restarting the crystal while it is the reference and a recovered clock is qualified is
taken as a loss of the crystal: the best candidate is selected, or a `WAIT_XTAL` begins (DESIGN CHOICE, log entry 122). -/
def Chip.xtalRestart (c : Chip) : Chip :=
  if c.bit CLK_STATUS.WAIT_XTAL
      || (c.activeSrc == some .xtal && !c.qualified .p0 && !c.qualified .p1) then c.ans .busy []
  else
    let c := c.openWindow false
    let c := c.setClk { c.clk with autoRestartUsed := false }
    if c.activeSrc = some .xtal then (c.afterLoss .xtal).ok else c.ok

/-- R47, R72: the gate of a port's frequency measurement ends, with the offset found in ppb. -/
def Chip.fofsUpdate (c : Chip) (p : PortIx) (ppb : Int) : Chip :=
  if c.qualified .xtal && c.linkUp p then c.putS (CLK_Pp_FOFS.FOFS p) ppb
  else c.put (CLK_Pp_FOFS.FOFS p) 0x80000000

/-- R66: a write of 1 to `TRIM_NOW`. -/
def Chip.trimNow (c : Chip) : Chip :=
  if c.clk.trim.isSome then c.ans .busy [] else c.startTrim.ok

/-- R64: the measured frequency in Hz of `n` control-oscillator cycles over a gate, rounded down. -/
def Chip.trimFreq (c : Chip) (n : Nat) : Nat :=
  if c.get CLK_COSC_TRIM.TRIM_REF = 0 then n * 25000000 / 262144
  else n * c.period.2 / (16 * c.period.1)

/-- The whole number nearest to `a / b`, halves away from zero. -/
def nearest (a : Int) (b : Nat) : Int :=
  if a < 0 then -(((-a) * 2 + b) / (2 * b)) else (a * 2 + b) / (2 * b)

/-- R66: the end of a trim. A result outside ±0.5 % latches `COSC_TRIM_FAIL` and keeps the best code measured. Where every
fine gate was above 200 MHz, `FINE` is 0, which no gate has measured, and the smallest error measured stands for its error
(DESIGN CHOICE, log entry 123). -/
def Chip.endTrim (c : Chip) (t : Trim) : Chip :=
  let err := t.keptErr.getD t.bestErr
  let c := c.setClk { c.clk with trim := none, trimOk := decide (err ≤ 1000000) }
  if err ≤ 1000000 then c.putB CLK_STATUS.COSC_TRIMMED true
  else
    (((c.put CLK_COSC_TRIM.COARSE t.bestCoarse).put CLK_COSC_TRIM.FINE t.bestFine).latch
      CLK_EVENT.COSC_TRIM_FAIL).putB CLK_STATUS.COSC_TRIMMED (decide (t.bestErr ≤ 1000000))

/-- R64 to R68: a gate ends having counted `n` cycles, or, with `refLost`, is discarded; with `TRIM_REF` at 0b11 nothing is
measured. The manual does not say what follows a discarded gate; the trim goes on in the same phase with the same code, and
the gate does not count (DESIGN CHOICE, log entry 124). -/
def Chip.trimGate (c : Chip) (refLost : Bool) (n : Nat) : Chip :=
  match c.clk.trim with
  | none => c
  | some t =>
    if refLost || c.get CLK_COSC_TRIM.TRIM_REF == 3 || (c.get CLK_COSC_TRIM.TRIM_REF == 2 && !c.timeValid) then c
    else
      let f := c.trimFreq n
      let err := if f ≥ 200000000 then f - 200000000 else 200000000 - f
      let coarse := c.get CLK_COSC_TRIM.COARSE
      let fine := c.get CLK_COSC_TRIM.FINE
      let c := { (c.put CLK_COSC_MEAS.FREQ_KHZ (f / 1000)) with
        clk := { c.clk with measuredAt := some c.time.c.toNat } }
      let t := if err < t.bestErr then { t with bestErr := err, bestCoarse := coarse, bestFine := fine } else t
      let t := { t with gates := t.gates + 1 }
      match t.phase with
      | .coarse =>
        let inside := decide (err ≤ 3200000)
        let c := if inside then c
          else c.put CLK_COSC_TRIM.COARSE
            (max 0 (min 63 ((coarse : Int) - nearest ((f : Int) - 200000000) 3200000))).toNat
        if inside || decide (t.gates ≥ 6) then
          (c.put CLK_COSC_TRIM.FINE 0x80).setClk { c.clk with trim := some { t with phase := .fine 7 } }
        else c.setClk { c.clk with trim := some t }
      | .fine b =>
        let high := decide (f > 200000000)
        let t := if high then t else { t with keptErr := some err }
        let kept := if high then fine - 2 ^ b else fine
        match b with
        | 0 => (c.put CLK_COSC_TRIM.FINE kept).endTrim t
        | b + 1 =>
          (c.put CLK_COSC_TRIM.FINE (kept + 2 ^ b)).setClk
            { c.clk with trim := some { t with phase := .fine b } }

/-- R67: firmware re-trims every 10 s, or when the die temperature has moved by 10 °C. -/
def Chip.autoRetrim (c : Chip) : Chip :=
  if c.bit CLK_COSC_TRIM.AUTO && c.power.imageRunning && c.clk.trim.isNone then c.startTrim else c

end Sys2Proof.Machine
end

