-- ==== Sys2Proof/Machine/Ports.lean ====
section
/-!
DEFINITION. Network ports and MAC (R117 to R148): links, the cage, forwarding between the ports, the receive rings and
their watermark, local transmission, addressing, and the wake detector. Classification follows in Ingest.lean.
-/

namespace Sys2Proof.Machine

open Sys2Proof

/-! Fences and gates of ports (R452, R455). -/

/-- Whether the port is neither fenced nor quiesced. -/
def Chip.portLive (c : Chip) (p : PortIx) : Bool :=
  !c.bit (ERR_FENCE_BLOCK.PORT_FENCED.bit p.val) && !c.bit (ERR_GATE_BLOCK.BLOCK_GATED.bit (18 + p.val))

/-! Links (R117 to R122). -/

/-- R126: whether forwarding from the port is cut-through. -/
def Chip.cutThrough (c : Chip) (p : PortIx) : Bool :=
  let a := c.get (PRTn_STATUS.SPEED_ACT p)
  a == c.get (PRTn_STATUS.SPEED_ACT (otherPort p)) && (a == 2 || a == 3)
    && c.bit (PRTn_CTRL.CUT_THROUGH p)

/-- `CUT_ACTIVE` of both ports. -/
def Chip.showCut (c : Chip) : Chip :=
  (c.putB (PRTn_STATUS.CUT_ACTIVE 0) (c.cutThrough 0)).putB (PRTn_STATUS.CUT_ACTIVE 1) (c.cutThrough 1)

/-- R118: the FEC mode in use for a `FEC` code at a speed. -/
def fecAct (fec speed : Nat) : Nat :=
  match speed, fec with
  | 3, 1 => 1 | 3, 2 => 2 | 2, 1 => 1 | 2, 2 => 1 | _, _ => 0

/-- R119: whether the port searches for a speed: `AUTO` without a module. -/
def Chip.searches (c : Chip) (p : PortIx) : Bool :=
  c.get (PRTn_CTRL.SPEED p) == 4 && c.bit (PRTn_STATUS.MOD_ABS p)

/-- The mode a port starts in (R117, R119): the one selected, the highest that a seated module supports, or the first of the
search. -/
def Chip.startMode (c : Chip) (p : PortIx) : Nat :=
  match c.get (PRTn_CTRL.SPEED p) with
  | 1 => 1 | 2 => 2 | 3 => 3
  | 4 => if c.searches p then 3 else (c.port p).moduleBest
  | _ => 0

/-- `SPEED_ACT` and `FEC_ACT` of a port (R118, R149): 0 while it searches. -/
def Chip.showSpeed (c : Chip) (p : PortIx) : Chip :=
  let m := if c.searches p && !c.linkUp p then 0 else (c.port p).mode
  ((c.put (PRTn_STATUS.SPEED_ACT p) m).put (PRTn_STATUS.FEC_ACT p) (fecAct (c.get (PRTn_CTRL.FEC p)) m)).showCut

/-- The port is started in the mode `m` (R515). -/
def Chip.startPort (c : Chip) (m : Nat) (p : PortIx) : Chip :=
  (c.setPort p { c.port p with up := decide (m ≠ 0), mode := m }).showSpeed p

/-- R121, R149: the levels that the status shows; a rising edge of Pn_TX_FAULT latches `TX_FAULT_SEEN`. -/
def Chip.seePins (c : Chip) (x : PortPins) : Chip :=
  let p := x.port
  let c := if x.txFault && !c.bit (PRTn_STATUS.TX_FAULT p) then c.latch (PRTn_EVENT.TX_FAULT_SEEN p) else c
  ((c.putB (PRTn_STATUS.LOS p) x.los).putB (PRTn_STATUS.TX_FAULT p) x.txFault).putB (PRTn_STATUS.BLOCK_LOCK p) x.blockLock

/-- R122: every condition of `LINK_UP` holds in the mode `speed` that the port runs. In Dormant the wake detector is armed
(R516). -/
def Chip.linkUpSeen (c : Chip) (p : PortIx) (speed : Nat) : Chip :=
  if (c.port p).up && (c.port p).mode == speed && c.portLive p && !c.linkUp p then
    let c := (c.putB (PRTn_STATUS.LINK_UP p) true).putB (PRTn_STATUS.BLOCK_LOCK p) true
    let c := (c.putB (PRTn_STATUS.AN_DONE p) (speed == 1 && c.bit (PRTn_CTRL.AN_EN p))).showSpeed p
    let c := if c.st = .dormant ∧ p = 0 then c.setPower { c.power with wakeArmed := true } else c
    (c.latch (PRTn_EVENT.LINK_UP_SEEN p)).showCut
  else c

/-- Whether the egress `p` transmits a forwarded frame. -/
def Chip.forwarding (c : Chip) (p : PortIx) : Bool :=
  match (c.port p).sending with
  | .forwarded _ => true
  | _ => false

/-- R131, R132: the egress `p` can send no more: waiting local frames are discarded and counted, forwarded frames that
wait for it, and one cut partway, count in `FWD_DROP` of their ingress. -/
def Chip.flushEgress (c : Chip) (p : PortIx) : Chip :=
  let q := otherPort p
  let c := c.bump (portCnt p 0x90) (c.port p).txq.length
  let c := c.bump (portCnt q 0x78) ((c.port q).fwd.length + (if c.forwarding p then 1 else 0))
  let c := c.setPort p { c.port p with txq := [], sending := .idle, burst := 0 }
  c.setPort q { c.port q with fwd := [] }

/-- R122, R131, R132: a condition of `LINK_UP` is lost. -/
def Chip.linkDown (c : Chip) (p : PortIx) : Chip :=
  if c.linkUp p then
    let c := ((c.putB (PRTn_STATUS.LINK_UP p) false).putB (PRTn_STATUS.AN_DONE p) false).showSpeed p
    let c := (c.put (CLK_Pp_FOFS.FOFS p) 0x80000000).raise (PRTn_EVENT.LINK_DOWN p) (fun c => c.message 0x04 (c.get GNG_CTRL.GANG_ADDR) p.val)
    (c.flushEgress p).showCut
  else c

/-- R119: with `SPEED` at `AUTO` and no module, 250 ms pass in one mode without a link and the port tries the next. -/
def Chip.speedSearch (c : Chip) (p : PortIx) : Chip :=
  if c.searches p && !c.linkUp p && (c.port p).up then
    let m := match (c.port p).mode with | 3 => 2 | 2 => 1 | _ => 3
    (c.setPort p { c.port p with mode := m }).showSpeed p
  else c

/-- Whether the ports have been started (R32, R515). -/
def Chip.portsStarted (c : Chip) : Bool := c.power.portsUp

/-- R119, R121: Pn_MOD_ABS changes. Firmware reads from a seated module the highest mode that it supports, `best`, and under
`AUTO` sets it. -/
def Chip.modChange (c : Chip) (p : PortIx) (absent : Bool) (best : Nat) : Chip :=
  let c := (c.putB (PRTn_STATUS.MOD_ABS p) absent).latch (PRTn_EVENT.MOD_CHANGE p)
  let c := c.setPort p { c.port p with moduleBest := if absent then 0 else best }
  if c.get (PRTn_CTRL.SPEED p) == 4 && c.portsStarted then c.startPort (c.startMode p) p else c

/-- R121: the level of Pn_TX_DIS: high from reset until the stored settings have been applied to the ports, in Dormant on P1,
while the port is fenced or quiesced (R452), and as `TX_DIS` otherwise. -/
def Chip.txDis (c : Chip) (p : PortIx) : Bool :=
  (if c.st = .dormant then p == 1 else !c.portsStarted) || !c.portLive p || c.bit (PRTn_CTRL.TX_DIS p)

/-! The receive ring (R134, R137 to R139). -/

/-- `MAX_LEN`, held within 1,518 to 9,600 (R134). -/
def Chip.maxLen (c : Chip) (p : PortIx) : Nat := min 9600 (max 1518 (c.get (PRTn_MAXLEN.MAX_LEN p)))

/-- Whether region `q` is neither fenced nor quiesced (R195, R455). -/
def Chip.regionUp (c : Chip) (q : Nat) : Bool :=
  !c.bit (ERR_FENCE_BLOCK.REGION_FENCED.bit q) && !c.bit (ERR_GATE_BLOCK.BLOCK_GATED.bit (24 + q))

/-- The regions that hold buffers of the rings. -/
def Chip.ringRegions (c : Chip) : List Nat := [0, 1, 2, 3].filter c.regionUp

/-- The buffers of a port's ring: 512 in each region that is neither fenced nor quiesced (R192, R195, R455). -/
def Chip.ringSize (c : Chip) : Nat := 512 * c.ringRegions.length

/-- The buffers of the port's ring in use in region `q`. -/
def Chip.usedIn (c : Chip) (p : PortIx) (q : Nat) : Nat := ((c.port p).held.map (fun h => h.regs.getD q 0)).sum

/-- The ring buffers in use; those of a lost region are none (R195). -/
def Chip.ringUsed (c : Chip) (p : PortIx) : Nat := (c.ringRegions.map (c.usedIn p)).sum

/-- R192: `n` buffers are taken one at a time from the regions `regions` in rotation, beginning with `next`; a region without a
free buffer is passed over. `got` holds the buffers taken in each region, `used` those in use before. Answers the buffers
taken and the region that comes next. -/
def takeRound (regions used : List Nat) : Nat → List Nat → Nat → List Nat × Nat
  | 0, got, next => (got, next)
  | n + 1, got, next =>
    match (List.range 4).find? (fun i =>
      let q := (next + i) % 4
      regions.contains q && decide (used.getD q 0 + got.getD q 0 < 512)) with
    | none => (got, next)
    | some i =>
      let q := (next + i) % 4
      takeRound regions used n (got.set q (got.getD q 0 + 1)) ((q + 1) % 4)

/-- R192: the buffers that a frame of `n` buffers takes, and the region that comes next. -/
def Chip.takeBuffers (c : Chip) (p : PortIx) (n : Nat) : List Nat × Nat :=
  takeRound c.ringRegions ((List.range 4).map (c.usedIn p)) n [0, 0, 0, 0] (c.port p).nextRegion

/-- The watermark in force: 0 acts as 1, and a value above 2,048 as 2,048 (R149). -/
def Chip.wmLevel (c : Chip) (p : PortIx) : Nat := min 2048 (max 1 (c.get (PRTn_RING_WM.WM_LEVEL p)))

/-- R139: `WM_HIT` latches, and its 0-to-1 transition places an `RX_WATERMARK` event. -/
def Chip.raiseWm (c : Chip) (p : PortIx) : Chip :=
  c.raise (PRTn_EVENT.WM_HIT p) (fun c => c.event 0x0001 3 1 p.val 0 0 (c.get (PRTn_RING_STAT.RING_PEAK p)))

/-- R138: the occupancy rises from `old` to `new`: the peak, and a crossing of `WM_LEVEL`. -/
def Chip.ringRise (c : Chip) (p : PortIx) (old new : Nat) : Chip :=
  let c := c.put (PRTn_RING_STAT.RING_PEAK p) (max (c.get (PRTn_RING_STAT.RING_PEAK p)) new)
  let w := c.wmLevel p
  if old < w ∧ w ≤ new then
    (c.put (PRTn_RING_CROSS.WM_CROSSINGS p) (min (c.get (PRTn_RING_CROSS.WM_CROSSINGS p) + 1) (2 ^ 32 - 1))).raiseWm p
  else c

/-- The chip with `RING_USED` telling the buffers in use. -/
def Chip.showRing (c : Chip) (p : PortIx) : Chip := c.put (PRTn_RING_STAT.RING_USED p) (c.ringUsed p)

/-- R137: the consumers of the frame at place `k` of the ring have released its buffers. A frame that a queued command keeps is
not released so (R344). -/
def Chip.releaseRing (c : Chip) (p : PortIx) (k : Nat) : Chip :=
  match (c.port p).held[k]? with
  | some h =>
    if h.kept then c else (c.setPort p { c.port p with held := (c.port p).held.eraseIdx k }).showRing p
  | none => c

/-- R194, R344: the oldest frame that may carry a control packet is kept for a command that has been queued. -/
def Chip.keepFrame (c : Chip) (p : PortIx) : Chip :=
  let l := (c.port p).held
  match l.findIdx? (fun h => h.control && !h.kept) with
  | some k => c.setPort p { c.port p with held := l.modify k (fun h => { h with kept := true }) }
  | none => c

/-- R344: the command of the oldest kept frame has run: its buffers return to the ring. -/
def Chip.freeKept (c : Chip) (p : PortIx) : Chip :=
  let l := (c.port p).held
  match l.findIdx? (fun h => h.kept) with
  | some k => (c.setPort p { c.port p with held := l.eraseIdx k }).showRing p
  | none => c

/-- R138: a write of 1 to `WM_HIT`. -/
def Chip.wmHitClear (c : Chip) (p : PortIx) : Chip :=
  ((c.put (PRTn_EVENT.WM_HIT p) 0).put (PRTn_RING_CROSS.WM_CROSSINGS p) 0).put (PRTn_RING_STAT.RING_PEAK p)
    (c.ringUsed p)

/-- The outcomes of a received frame's reception (R133, R137). -/
inductive RxOutcome
  | noBuf | trunc | linkCut | codeErr | runt | oversize | fcsErr | accepted
  deriving DecidableEq, Repr

/-- R133: the checks of a frame that keeps its ring buffers, in the order of the table. -/
def rxCheck (maxLen : Nat) (h : FrameHead) : RxOutcome :=
  if h.linkCut then .linkCut
  else if h.codeErr then .codeErr
  else if h.len ≤ 63 then .runt
  else if h.len > maxLen then .oversize
  else if !h.fcsOk then .fcsErr
  else .accepted

/-- R134, R137: the buffers a frame needs: oversize reception stops at `MAX_LEN`. -/
def rxBuffers (maxLen len : Nat) : Nat := (min len maxLen + 1023) / 1024

/-- R137, R133: the outcome of a frame for a ring with `free` buffers. -/
def rxOutcome (maxLen free : Nat) (h : FrameHead) : RxOutcome :=
  if free = 0 then .noBuf
  else if rxBuffers maxLen h.len > free then .trunc
  else rxCheck maxLen h

/-- The counter of an outcome (R144), as an offset in the port's block. -/
def rxCounter : RxOutcome → Nat
  | .noBuf => 0x38 | .trunc => 0x40 | .linkCut => 0x30 | .codeErr => 0x18 | .runt => 0x20 | .oversize => 0x28
  | .fcsErr => 0x10 | .accepted => 0x00

/-- R133, R137, R138, R144, R192: what reception does to the ring and its counters. The buffers of a dropped frame return.
`control` tells a frame that may carry a control packet. -/
def Chip.rxMac (c : Chip) (p : PortIx) (h : FrameHead) (control : Bool) : Chip × RxOutcome :=
  let c := if c.get (PRTn_STATUS.FEC_ACT p) = 0 then c
    else (c.bump (portCnt p 0x80) h.fecFixed).bump (portCnt p 0x88) h.fecBad
  let used := c.ringUsed p
  let need := rxBuffers (c.maxLen p) h.len
  let o := rxOutcome (c.maxLen p) (c.ringSize - used) h
  let c := c.bump (portCnt p (rxCounter o)) 1
  match o with
  | .noBuf => (c.raiseWm p, o)
  | .trunc => ((c.ringRise p used (max used c.ringSize)).raiseWm p, o)
  | .accepted =>
    let c := (c.bump (portCnt p 0x08) h.len).ringRise p used (used + need)
    let (regs, next) := c.takeBuffers p need
    ((c.setPort p { c.port p with held := (c.port p).held ++ [⟨regs, control, false⟩], nextRegion := next }).showRing p, o)
  | _ => (c.ringRise p used (used + need), o)

/-- The last frame taken into the ring is released at once: it is delivered nowhere. -/
def Chip.dropLast (c : Chip) (p : PortIx) : Chip :=
  (c.setPort p { c.port p with held := (c.port p).held.dropLast }).showRing p

/-! Delivery and forwarding (R123 to R132). -/

/-- How R123 treats a destination address. -/
inductive DstKind
  | own | unicast | broadcast | groupIn | groupOut | pdelay | macControl | reserved
  deriving DecidableEq, Repr

/-- The Ethernet group address that an IP group maps to (R142). -/
def groupMac (g : Nat) : Nat :=
  if isMapped4 g then 0x01005E000000 + g % 2 ^ 23 else 0x333300000000 + g % 2 ^ 32

/-- Whether the port's filter table has the Ethernet destination (R142). -/
def Chip.inTable (c : Chip) (p : PortIx) (dst : Nat) : Bool :=
  (c.port p).table.any (fun e => groupMac e.1 == dst || e.1 == dst)

/-- R123: the row of a destination. -/
def Chip.dstKind (c : Chip) (p : PortIx) (dst : Nat) : DstKind :=
  if dst = 0x0180C200000E then .pdelay
  else if dst = 0x0180C2000001 then .macControl
  else if 0x0180C2000000 ≤ dst ∧ dst ≤ 0x0180C200000F then .reserved
  else if dst = 2 ^ 48 - 1 then .broadcast
  else if (dst / 2 ^ 40) % 2 = 1 then (if c.inTable p dst then .groupIn else .groupOut)
  else if dst = c.macOf 0 ∨ dst = c.macOf 1 then .own
  else .unicast

/-- R123, R141: whether an accepted frame is delivered locally; PTP frames to the peer delay address go to the time
unit. -/
def Chip.delivers (c : Chip) (p : PortIx) (h : FrameHead) : Bool :=
  let vlan := match h.tags with
    | [] => !c.bit (PRTn_CTRL.VLAN_FILTER p) || c.get (PRTn_VLAN.VLAN_ID p) == 0
    | [t] => !c.bit (PRTn_CTRL.VLAN_FILTER p) || t.vid == c.get (PRTn_VLAN.VLAN_ID p)
    | _ => false
  vlan && (match c.dstKind p h.dst with
    | .own | .broadcast | .groupIn | .pdelay => true
    | _ => false)

/-- R85, R123: whether the destination is forwarded. -/
def Chip.forwards (c : Chip) (p : PortIx) (h : FrameHead) : Bool :=
  match c.dstKind p h.dst with
  | .own | .macControl | .reserved => false
  | .pdelay => c.get TIM_CTRL.TC_MODE == 1
  | _ => !(h.pdelay && c.get TIM_CTRL.TC_MODE != 1)

/-- Whether the state forwards (R18, R32). -/
def Chip.forwardingState (c : Chip) : Bool :=
  match c.st with
  | .stopped | .running | .updating | .fenced | .recovery | .boot => c.power.portsUp
  | _ => false

/-- `MAX_LEN` of forwarded frames: the smaller of the two. -/
def Chip.fwdMaxLen (c : Chip) : Nat := min (c.maxLen 0) (c.maxLen 1)

/-- The bytes that a port in mode `mode` transmits in `n` ticks (R117). -/
def sentBytes (mode n : Nat) : Nat :=
  match mode with
  | 3 => n * 125 / 32
  | 2 => n * 50 / 32
  | _ => n * 5 / 32

/-- R128: the bytes of the forwarding buffer of ingress `p` that are in use: those of the frames that wait, and those of the frame
on the egress that have not left yet. -/
def Chip.fwdUsed (c : Chip) (p : PortIx) : Nat :=
  let e := c.port (otherPort p)
  ((c.port p).fwd.map (fun f => f.len)).sum + (match e.sending with
    | .forwarded f => f.len - sentBytes e.mode (c.time.c.toNat - e.since)
    | _ => 0)

/-- R88: a correctionField that would overflow holds the greatest value. -/
def cfTop : Int := 2 ^ 63 - 1

/-- R84: whether a forwarded Sync keeps its phase-tracked bit: the upstream port is the active reference and is qualified, and its
peer delay partner answered with the bit set. -/
def Chip.chainKept (c : Chip) : Bool :=
  c.activeSrc == some (portSrc c.upstream) && c.qualified (portSrc c.upstream) && c.time.partnerBit.getD c.upstream.val false

/-- R85: what is added to the correctionField of an event message from port `p` after `d05` twentieths of a nanosecond of C in
the device: the residence time, and peer to peer the delay of the ingress link for a Sync. -/
def Chip.residence (c : Chip) (p : PortIx) (kind : PtpKind) (d05 : Nat) : Int :=
  (d05 : Int) * 32768 * (2 ^ 48 + c.time.rate) / (10 * 2 ^ 48)
    + (if c.get TIM_CTRL.TC_MODE = 2 ∧ kind = .sync then c.linkDelay p + c.asymmetry p else 0)

/-- R84, R85, R86, R88: a forwarded frame from port `p` as it leaves, `d05` twentieths of a nanosecond after it came. With
`TC_MODE` off it is unchanged. -/
def Chip.correctFrame (c : Chip) (p : PortIx) (f : FwdFrame) (d05 : Nat) : Chip × FwdFrame :=
  match f.ptp with
  | none => (c, f)
  | some m =>
    if c.get TIM_CTRL.TC_MODE ≠ 1 ∧ c.get TIM_CTRL.TC_MODE ≠ 2 then (c, f)
    else
      let v := m.correction + c.residence p m.kind d05
      let past := decide (m.correction = cfTop) || decide (cfTop < v)
      let bit := m.phaseBit && (m.kind != .sync || !c.bit TIM_CTRL.PROFILE || c.chainKept)
      let c := if past then c.bump (timCnt 0x40) 1 else c
      (c, { f with ptp := some { m with correction := if past then cfTop else v, phaseBit := bit } })

/-- The residence in 0.05 ns of a frame that starts now, `d` being a free value: the manual gives no fraction of a tick for the
egress, and for cut-through only the bound of R17 (log entry 127). -/
def Chip.resided (c : Chip) (p : PortIx) (f : FwdFrame) (cut : Bool) (d : Nat) : Nat :=
  let x := Config.choice d
  if cut then x % (if (c.port p).mode = 3 then 9001 else 18001)
  else 25 * (c.time.c.toNat - f.arrived) + 2 * (x % 13) - 2 * (f.ptp.map (fun m => m.frac10)).getD 0

/-- The egress of ingress `p` starts to transmit the forwarded frame `f`. -/
def Chip.sendForwarded (c : Chip) (p : PortIx) (f : FwdFrame) (cut : Bool) : Chip :=
  let q := otherPort p
  let (c, d) := c.draw
  let (c, f) := c.correctFrame p f (c.resided p f cut d)
  c.setPort q { c.port q with sending := .forwarded f, since := c.time.c.toNat }

/-- R130: whether a local frame waits at the egress `q` whose turn it is before the next forwarded frame. -/
def Chip.localFirst (c : Chip) (q : PortIx) : Bool :=
  !(c.port q).txq.isEmpty && decide ((c.port q).burst ≥ max 1 (c.get (PRTn_CTRL.FWD_BURST q)))

/-- R130: the forwarded frames in a row at the egress `q`, one more having gone while local frames wait. -/
def Chip.countBurst (c : Chip) (q : PortIx) : Chip :=
  c.setPort q { c.port q with burst := if (c.port q).txq.isEmpty then 0 else (c.port q).burst + 1 }

/-- R125, R126, R128, R129, R132: the frame's way through the forwarding buffer. A cut-through frame that finds its egress idle
and nothing ahead has started before its end; if it is bad it ends with its FCS inverted, at `MAX_LEN` when it is longer. A
bad frame that has not started is not forwarded. -/
def Chip.rxForward (c : Chip) (p : PortIx) (h : FrameHead) : Chip :=
  let q := otherPort p
  if !(c.forwardingState && c.bit (PRTn_CTRL.FWD_EN p) && c.forwards p h && c.portLive p) then c
  else if !(c.linkUp q && c.portLive q) then
    if rxCheck c.fwdMaxLen h == .accepted then c.bump (portCnt p 0x78) 1 else c
  else if c.fwdUsed p + c.fwdMaxLen > 32768 then
    (c.bump (portCnt p 0x78) 1).latch (PRTn_EVENT.FWD_FULL p)
  else
    let good := rxCheck c.fwdMaxLen h == .accepted
    let idle := (c.port q).sending == .idle && (c.port p).fwd.isEmpty && !c.localFirst q
    let starts := c.cutThrough p && idle && decide (64 ≤ h.len)
    let f : FwdFrame := ⟨min h.len c.fwdMaxLen, !good, h.ptp, c.time.c.toNat⟩
    if starts then ((if good then c else c.bump (portCnt p 0x70) 1).countBurst q).sendForwarded p f true
    else if good then c.setPort p { c.port p with fwd := (c.port p).fwd ++ [f] }
    else c

/-- The head of the forwarding buffer of ingress `p` starts on its egress. -/
def Chip.forwardHead (c : Chip) (p : PortIx) : Chip :=
  match (c.port p).fwd with
  | [] => c
  | f :: l => ((c.setPort p { c.port p with fwd := l }).countBurst (otherPort p)).sendForwarded p f false

/-- R127, R130: a waiting forwarded frame from port `p` starts on its idle egress, unless a local frame goes before it. -/
def Chip.fwdStart (c : Chip) (p : PortIx) : Chip :=
  let q := otherPort p
  if (c.port q).sending == .idle && c.linkUp q && !c.localFirst q then c.forwardHead p else c

/-- The frame that the egress `p` transmits has been sent whole; it is counted (R144), a stomped one not as forwarded whole. -/
def Chip.egressDone (c : Chip) (p : PortIx) : Chip :=
  let d := c.setPort p { c.port p with sending := .idle }
  match (c.port p).sending with
  | .idle => c
  | .localFrame f => (d.bump (portCnt p 0x58) 1).bump (portCnt p 0x60) f.len
  | .forwarded f => if f.stomped then d else d.bump (portCnt (otherPort p) 0x68) 1

/-- R130: the egress `p`, idle, chooses its next frame. -/
def Chip.egressChoose (c : Chip) (p : PortIx) : Chip :=
  let q := otherPort p
  let x := c.port p
  match (c.port q).fwd, x.txq with
  | [], [] => c.setPort p { x with burst := 0 }
  | [], f :: l => c.setPort p { x with sending := .localFrame f, since := c.time.c.toNat, txq := l, burst := 0 }
  | _ :: _, f :: l =>
    if c.localFirst p then
      c.setPort p { x with sending := .localFrame f, since := c.time.c.toNat, txq := l, burst := 0 }
    else c.forwardHead q
  | _ :: _, [] => c.forwardHead q

/-- R130: an egress port becomes idle and chooses. -/
def Chip.egressIdle (c : Chip) (p : PortIx) : Chip :=
  if c.linkUp p then (c.egressDone p).egressChoose p else c

/-! Addresses (R140). -/

/-- The IPv6 link-local address of a port: modified EUI-64 of its MAC address. -/
def Chip.linkLocal (c : Chip) (p : PortIx) : Nat :=
  let m := c.macOf p
  let hi := (m / 2 ^ 24) ^^^ 0x020000
  0xFE80 * 2 ^ 112 + hi * 2 ^ 40 + 0xFFFE * 2 ^ 24 + m % 2 ^ 24

/-- Whether `ip` is one of the port's own addresses; a zero address is none. -/
def Chip.ownsIp (c : Chip) (p : PortIx) (ip : Nat) : Bool :=
  let v4 := c.get (PRTn_IPV4.IPV4 p)
  let v6 := c.get128 (fun w => PRTn_IPV6.IPV6 p w)
  (v4 != 0 && ip == mapped4 v4) || (v6 != 0 && ip == v6) || ip == c.linkLocal p

/-- R140: an ARP request or neighbour solicitation for one of the port's addresses is answered. -/
def Chip.arpRequest (c : Chip) (p : PortIx) (ip asker : Nat) : Chip :=
  if c.power.imageRunning && c.st != .dormant && c.linkUp p && c.ownsIp p ip then
    c.sendLocal p ⟨.arpReply ip asker, if isMapped4 ip then 64 else 14 + c.tagBytes p + 40 + 32 + 4⟩
  else c

/-! Membership reports (R143). -/

/-- Whether a group of the table is an IP group; the PTP group of L2 is an Ethernet address, and nothing joins it (R143). -/
def isIpGroup (g : Nat) : Bool := isMapped4 g || decide (2 ^ 112 ≤ g)

/-- A report for one group. -/
def Chip.sendReport (c : Chip) (p : PortIx) (group source : Nat) (joining : Bool) : Chip :=
  c.sendLocal p ⟨.mcReport group source joining, if isMapped4 group then 64 else 14 + c.tagBytes p + 40 + 8 + 28 + 4⟩

/-- R143: `UNSOL_MS` after a state-change report it is sent again, `ROBUSTNESS` times in all. -/
def Chip.repeatReports (c : Chip) (p : PortIx) : Chip :=
  let l := (c.port p).reports
  let c := l.foldl (fun c r => c.sendReport p r.1 r.2.1 r.2.2.1) c
  c.setPort p { c.port p with
    reports := (l.filter (fun r => decide (r.2.2.2 > 1))).map (fun r => (r.1, r.2.1, r.2.2.1, r.2.2.2 - 1)) }

/-- R143: a query is answered for the groups of its family in the table. -/
def Chip.answerQuery (c : Chip) (p : PortIx) (q : McQuery) : Chip :=
  ((c.port p).table.filter (fun e => isIpGroup e.1 && isMapped4 e.1 != q.v6 && (q.group == 0 || e.1 == q.group))).foldl
    (fun c e => c.sendReport p e.1 e.2 true) c

/-- R142, R143: the table of a port becomes the first 1,024 of `want`, each group once; IP groups that enter or leave send
state-change reports. -/
def Chip.setTable (c : Chip) (p : PortIx) (want : List (Nat × Nat)) : Chip :=
  let want := want.foldl (fun l e => if l.any (fun x => x.1 == e.1) then l else l ++ [e]) []
  let new := want.take 1024
  let old := (c.port p).table
  let joined := new.filter (fun e => isIpGroup e.1 && !old.contains e)
  let left := old.filter (fun e => isIpGroup e.1 && !new.contains e)
  let times := c.get (PRTn_MCAST.ROBUSTNESS p)
  let c := c.setPort p { c.port p with table := new }
  let c := joined.foldl (fun c e => c.sendReport p e.1 e.2 true) c
  let c := left.foldl (fun c e => c.sendReport p e.1 e.2 false) c
  let again := joined.map (fun e => (e.1, e.2, true, times - 1)) ++ left.map (fun e => (e.1, e.2, false, times - 1))
  let c := c.setPort p { c.port p with
    reports := (c.port p).reports ++ again.filter (fun r => decide (r.2.2.2 > 0)) }
  let c := c.put (PRTn_MCAST.MC_USED p) new.length
  if want.length > 1024 then c.latch (PRTn_EVENT.MC_TABLE_FULL p) else c

/-! The wake detector (R145 to R148). -/

/-- One step of the reflected CRC-32 over a byte. -/
def crcByte (crc : Nat) (b : Nat) : Nat :=
  (List.range 8).foldl (fun r _ => if r % 2 = 1 then (r / 2) ^^^ 0xEDB88320 else r / 2) (crc ^^^ b)

/-- The IEEE 802.3 CRC-32 of a list of bytes (R147). -/
def crc32 (l : List Nat) : Nat := (l.foldl crcByte 0xFFFFFFFF) ^^^ 0xFFFFFFFF

/-- Whether pattern `m` of the always-on record selects byte `i`. -/
def Aon.maskBit (a : Aon) (m i : Nat) : Bool := (a.wakeMask.getD (4 * m + i / 32) 0).testBit (i % 32)

/-- R147: whether pattern `m` matches the frame. -/
def Aon.matches (a : Aon) (m : Nat) (frame : List Byte) : Bool :=
  let sel := (List.range 128).filter (a.maskBit m)
  a.wakeEn.testBit m && !sel.isEmpty && sel.all (fun i => decide (i + 4 < frame.length))
    && crc32 (sel.map (fun i => (frame.getD i 0#8).toNat)) == a.wakeCrc.getD m 0

/-- R148, R517: a frame of 64 to 1,522 bytes with a correct FCS arrives in Dormant with the detector armed. The lowest
matching pattern wakes the device: PWREN_MAIN goes high and the device proceeds as at power-up. -/
def Chip.wakeFrame (c : Chip) (frame : List Byte) (fcsOk : Bool) : Chip :=
  if c.st == .dormant && c.power.wakeArmed && c.linkUp 0 && fcsOk && decide (64 ≤ frame.length) && decide (frame.length ≤ 1522) then
    match (List.range 4).find? (fun m => c.aon.matches m frame) with
    | none => c
    | some m =>
      let errs := { Chip.powerOn.errs with nextSeq := c.errs.nextSeq }
      let power := { Chip.powerOn.power with groupAGood := true, pwrenMain := true }
      { Chip.powerOn with
        answer := c.answer, freeCtr := c.freeCtr, power := power, errs := errs,
        aon := { c.aon with fromDormant := true, wakeSrc := 1, wakePattern := m } }
  else c

end Sys2Proof.Machine
end

