-- ==== Sys2Proof/Machine/Ingest.lean ====
section
/-!
DEFINITION. Stream ingest (R150 to R190) and the re-sending of streams (R394, R395): classification, merging, slicing, the
states of contexts, sACN sources and synchronization, and the multicast filter tables.
-/

namespace Sys2Proof.Machine

open Sys2Proof

def Chip.ctx (c : Chip) (x : Nat) : Ctx := smGet (fun _ => Ctx.start) c.ctxs x
def Chip.setCtx (c : Chip) (x : Nat) (k : Ctx) : Chip := c.setCtxs (smSet (fun _ => Ctx.start) c.ctxs x k)
def Chip.ctxState (c : Chip) (x : Nat) : Nat := c.get (STC_CSTAT.STATE x)

/-- R188: the `STREAM` event of a latch. -/
def Chip.raiseStream (c : Chip) (x : Nat) (f : Fld) (cause value : Nat) : Chip :=
  c.raise f (fun c => c.event 0x0002 4 cause x 0 0 value)

/-- A format error of a packet (R153, R157, R163, R166). -/
def Chip.formatErr (c : Chip) (x : Nat) : Chip :=
  (c.bump (ctxCnt x 0x40) 1).raiseStream x (STC_CSTAT.FORMAT_SEEN x) 3 0

/-- The context returns to `ACQUIRING` with no merge state (R172, R186, R187). -/
def Chip.reacquire (c : Chip) (x : Nat) : Chip :=
  (c.setCtx x { c.ctx x with merge := none, lastPk := [] }).put (STC_CSTAT.STATE x) 1

/-- The context acts: it is enabled and neither fenced nor quiesced. -/
def Chip.ctxActs (c : Chip) (x : Nat) : Bool := c.ctxEn x && c.ctxLive x

/-- R150: the states in which contexts classify, merge and count. -/
def Chip.ingests (c : Chip) : Bool :=
  c.st == .stopped || c.st == .running || c.st == .updating || c.st == .fenced

/-- `PATHS` bit of a port's path: `P0_ACTIVE` or `P1_ACTIVE`. -/
def activeFld (x : Nat) (p : PortIx) : Fld := if p = 0 then STC_CSTAT.P0_ACTIVE x else STC_CSTAT.P1_ACTIVE x

/-- R151, R152: the context of a packet of type `ty` on port `p`; at most one matches (R154). -/
def Chip.classify (c : Chip) (p : PortIx) (ty : Nat) (ip : IpHdr) (id : Nat) : Option Nat :=
  if ip.frag || !c.ingests then none
  else allCtx.find? (fun x => c.ctxActs x && c.ctxType x == ty && c.ctxOnPort x p.val
    && c.get (STC_MATCH.UDP_PORT x) == ip.dport && c.get (STC_MATCH.STREAM_ID x) == id
    && (match c.ctxGroup x p.val with
      | some g => g == ip.dst
      | none => c.ownsIp p ip.dst)
    && (match c.ctxSource x p.val with
      | some s => s == ip.src
      | none => true))

/-! Merging (R171 to R175). -/

/-- The outcomes of the merger: accepted with the numbers lost, whether it was reordered and whether it resynchronised;
a duplicate; too old. -/
inductive MergeOutcome
  | accepted (lost : Nat) (reordered resync : Bool)
  | dup
  | old
  deriving DecidableEq, Repr

/-- A number modulo 2^`w` read as signed. -/
def signedMod (w : Nat) (v : Int) : Int := let m := v % (2 ^ w : Int); if m < (2 ^ (w - 1) : Int) then m else m - (2 ^ w : Int)

/-- R171, R172: one packet with sequence number `s` against a window of `w` numbers. -/
def merge32 (w : Nat) (m : Option Merge) (s : Nat) : Merge × MergeOutcome :=
  match m with
  | none => (⟨s, 1, 0⟩, .accepted 0 false false)
  | some m =>
    let d := signedMod 32 ((s : Int) - (m.high : Int))
    if d > 0 then
      let d := d.toNat
      let k := min d w
      let lost := (k - popCount (m.bitmap / 2 ^ (w - k)) k) + (d - w)
      (⟨s, (if d ≥ w then 1 else (m.bitmap * 2 ^ d + 1) % 2 ^ w), 0⟩, .accepted lost false false)
    else if d > -(w : Int) then
      let k := (-d).toNat
      if m.bitmap.testBit k then (m, .dup)
      else (⟨m.high, m.bitmap + 2 ^ k, 0⟩, .accepted 0 true false)
    else if m.tooOld + 1 ≥ 64 then (⟨s, 1, 0⟩, .accepted 0 false true)
    else (⟨m.high, m.bitmap, m.tooOld + 1⟩, .old)

/-- R172, R173: one E1.31 packet. -/
def merge8 (m : Option Merge) (s : Nat) : Merge × MergeOutcome :=
  match m with
  | none => (⟨s, 0, 0⟩, .accepted 0 false false)
  | some m =>
    let d := signedMod 8 ((s : Int) - (m.high : Int))
    if -20 < d ∧ d ≤ 0 then (m, .dup) else (⟨s, 0, 0⟩, .accepted 0 false false)

/-- R172, R187: a packet that reaches a context in `SOURCE_LOST` returns it to `ACQUIRING`. -/
def Chip.awaken (c : Chip) (x : Nat) : Chip := if c.ctxState x = 3 then c.reacquire x else c

/-- R171 to R173, R187, R188: the merger takes a packet of context `x`; whether it accepts. -/
def Chip.mergePacket (c : Chip) (x : Nat) (p : PortIx) (s : Nat) : Chip × Bool :=
  let c := c.awaken x
  let sacn := c.ctxType x == ctxSacn
  let (m, o) := if sacn then merge8 (c.ctx x).merge s else merge32 (1024 * c.mergeUnits x) (c.ctx x).merge s
  let c := (c.setCtx x { c.ctx x with merge := some m }).put (STC_HSEQ.HIGHEST_SEQ x) m.high
  match o with
  | .accepted lost reordered resync =>
    let c := (c.bump (ctxCnt x (if p = 0 then 0x00 else 0x08)) 1).putB (activeFld x p) true
    let c := if reordered then c.bump (ctxCnt x 0x18) 1 else c
    let c := if resync then (c.bump (ctxCnt x 0x58) 1).raiseStream x (STC_CSTAT.RESYNC_SEEN x) 2 0 else c
    let c := if lost = 0 then c
      else (c.bump (ctxCnt x 0x20) lost).raiseStream x (STC_CSTAT.LOSS_SEEN x) 4 0
    (if c.ctxStream x then c else c.put (STC_CSTAT.STATE x) 2, true)
  | .dup => ((c.bump (ctxCnt x 0x10) 1).putB (activeFld x p) true, false)
  | .old => (c.bump (ctxCnt x 0x28) 1, false)

/-- R175: the last packet of the frame with origin boundary `o` has arrived on port `p`. -/
def Chip.measureSkew (c : Chip) (x : Nat) (p : PortIx) (o : Int) : Chip :=
  let k := c.ctx x
  match k.lastPk.find? (fun e => e.1 == o && e.2.1 != p.val) with
  | some e =>
    let c := c.setCtx x { k with lastPk := k.lastPk.filter (fun e => e.1 != o) }
    let ns := (if p = 1 then c.now - e.2.2 else e.2.2 - c.now) / nsU
    let c := c.putS (STC_SKEW.SKEW x) ns
    if mag ns > (c.get STC_CFG.SKEW_MAX : Int) * 1000 then
      c.raiseStream x (STC_CSTAT.SKEW_EXCEEDED x) 1 (c.get (STC_SKEW.SKEW x))
    else c
  | none =>
    c.setCtx x { k with lastPk := (o, p.val, c.now) :: k.lastPk.filter (fun e => e.1 != o) }

/-! Frame assignment (R159, R160, R162). -/

/-- R160: the number of the feed-frame boundary nearest to `t`, the earlier of two equally near. -/
def Chip.nearestBoundary (c : Chip) (r : Nat) (t : Int) : Int :=
  let n := gridN c.period c.gridOffset t
  let lo := n / (r : Int) * (r : Int)
  let hi := lo + (r : Int)
  if t - c.boundary lo ≤ c.boundary hi - t then lo else hi

/-- R159: the time nearest to the present whose 90 kHz count equals the RTP timestamp. -/
def Chip.rtpTime (c : Chip) (ts : Nat) : Int :=
  let k := c.now * 90000 / secU
  (k + signedMod 32 ((ts : Int) - k)) * secU / 90000

/-- R162: the full time of an `ORIGIN_SEC` and `ORIGIN_NS`. -/
def Chip.originTime (c : Chip) (sec ns : Nat) : Int :=
  let now := c.now / secU
  (now + signedMod 16 ((sec : Int) - now)) * secU + (ns : Int) * nsU

/-- R160: the latch when the origin time of a packet lies far from its feed-frame boundary `o`. -/
def Chip.checkOrigin (c : Chip) (x : Nat) (t o : Int) : Chip :=
  let p := c.period
  if 4 * mag (t - c.boundary o) * (p.2 : Int) > (p.1 : Int) * secU then
    c.raiseStream x (STC_CSTAT.FORMAT_SEEN x) 3 0
  else c

/-! The settings of a packet's frame (R186). -/

/-- The intervals between the boundaries of a list. -/
def spans : Option Int → List Int → List (Option Int × Option Int)
  | lo, [] => [(lo, none)]
  | lo, b :: l => (lo, some b) :: spans (some b) l

/-- The boundaries at which the fields of contexts change: those past, whose frames may still be complete, and those of the
commits that wait, in rising order. -/
def Chip.ctxChanges (c : Chip) : List Int :=
  (c.was.map (·.1)).reverse ++ (c.pend.filter (fun p => !p.fWords.isEmpty)).map (·.boundary)

/-- The configuration of the frames from boundary `lo` up to boundary `hi`. -/
def Chip.viewIn (c : Chip) : Option Int × Option Int → Chip
  | (some b, _) => c.viewAt b
  | (none, some b) => c.viewAt (b - 1)
  | (none, none) => c

/-- R186: the context of a packet of type `ty` and the settings that apply to its frame, of origin time `t`: those under
which it is classified with an origin boundary in their interval, the earliest such. A packet that none claims so is
judged by the settings in force. Settings to come claim packets of a context that acts already (log entry 128). Answers
the settings, the context and the origin boundary. -/
def Chip.claim (c : Chip) (p : PortIx) (ty : Nat) (ip : IpHdr) (id : Nat) (t : Int) : Option (Chip × Nat × Int) :=
  let under := fun (v : Chip) => (v.classify p ty ip id).map (fun x => (v, x, c.nearestBoundary (v.rateDiv x) t))
  let found := (spans none c.ctxChanges).findSome? (fun s =>
    match under (c.viewIn s) with
    | none => none
    | some (v, x, o) =>
      let after := match s.1 with | none => true | some b => decide (b ≤ o) && (decide (b ≤ c.frameNow) || c.ctxActs x)
      let upTo := match s.2 with | none => true | some b => decide (o < b)
      if after && upTo then some (v, x, o) else none)
  match found with
  | some r => some r
  | none => under c

/-! Slicing (R178 to R184). -/

/-- A run of pixels in the stream's coordinates: row, first column, and the samples of each pixel as 16-bit values. -/
structure PixelRun where
  row : Nat
  col : Nat
  px : List (List Nat)
  deriving DecidableEq, Repr

/-- R156: bytes and pixels of a pgroup, and the sample depth. -/
def pgroupOf : Nat → Nat × Nat × Nat
  | 0 => (3, 1, 8) | 1 => (15, 4, 10) | 2 => (9, 2, 12) | 3 => (6, 1, 16) | 4 => (5, 2, 10) | _ => (6, 2, 12)

/-- R181: a sample of `n` bits widened to 16. -/
def widen (n v : Nat) : Nat := if n = 16 then v else if n = 8 then v * 257 else v * 2 ^ (16 - n) + v / 2 ^ (2 * n - 16)

/-- The samples of `n` bits in a list of bytes, the first in the most significant bits. -/
def samplesOf (n : Nat) (l : List Byte) : List Nat :=
  let v := natBE l
  let k := 8 * l.length / n
  (List.range k).map (fun i => v / 2 ^ (8 * l.length - n * (i + 1)) % 2 ^ n)

/-- A list cut in parts of `n`, from at most `fuel` of them. -/
def chunks {α : Type} (n : Nat) : Nat → List α → List (List α)
  | 0, _ => []
  | fuel + 1, l => if l.isEmpty then [] else l.take n :: chunks n fuel (l.drop n)

/-- The pixels of a pgroup (R156, R181, R182): R, G, B, or Y, Cb, Cr for every pixel. -/
def pgroupPixels (sampling : Nat) (l : List Byte) : List (List Nat) :=
  let n := (pgroupOf sampling).2.2
  let s := (samplesOf n l).map (widen n)
  if 4 ≤ sampling then
    match s with
    | [cb, y0, cr, y1] => [[y0, cb, cr], [y1, cb, cr]]
    | _ => []
  else chunks 3 4 s

/-- A sample row data header of ST 2110-20 (R157): the length in bytes, the field bit, the row, the continuation bit and
the offset in pixels. -/
structure RtpRow where
  len : Nat
  fieldBit : Bool
  line : Nat
  more : Bool
  offset : Nat
  deriving DecidableEq, Repr

/-- A row header of 6 bytes: length, F and row number, C and offset (log entry 129). -/
def rtpRow (l : List Byte) : RtpRow :=
  { len := fieldBE l 0 2, fieldBit := (fieldBE l 2 2).testBit 15, line := fieldBE l 2 2 % 2 ^ 15,
    more := (fieldBE l 4 2).testBit 15, offset := fieldBE l 4 2 % 2 ^ 15 }

/-- R157: the row headers that the continuation bits chain, `n` at most, and the bytes after them; none where the payload
ends within a header or a further one follows. -/
def rtpRows : Nat → List Byte → Option (List RtpRow × List Byte)
  | 0, _ => none
  | n + 1, l =>
    if l.length < 6 then none
    else
      let r := rtpRow l
      if r.more then (rtpRows n (l.drop 6)).map (fun e => (r :: e.1, e.2)) else some ([r], l.drop 6)

/-- The data of each row header, in order. -/
def rtpData : List RtpRow → List Byte → List (RtpRow × List Byte)
  | [], _ => []
  | r :: rs, l => (r, l.take r.len) :: rtpData rs (l.drop r.len)

/-- The runs of an ST 2110-20 packet. -/
def rtpRuns (sampling : Nat) (p : RtpPkt) : List PixelRun :=
  match rtpRows 4 p.body with
  | none => []
  | some (rows, l) =>
    (rtpData rows l).map (fun e => ⟨e.1.line, e.1.offset,
      (chunks (pgroupOf sampling).1 (e.2.length + 1) e.2).flatMap (pgroupPixels sampling)⟩)

/-- R157: whether a packet breaks the format rules. -/
def rtpBad (sampling : Nat) (p : RtpPkt) : Bool :=
  let (b, n, _) := pgroupOf sampling
  match rtpRows 4 p.body with
  | none => true
  | some (rows, l) =>
    (rows.map (·.len)).sum != l.length || rows.any (fun r => r.fieldBit || r.len % b != 0 || r.offset % n != 0)

/-- A Luevevan packet (R161). -/
structure LvPkt where
  rgbw : Bool
  last : Bool
  blank : Bool
  seq : Nat
  stream : Nat
  sec : Nat
  ns : Nat
  run : PixelRun
  deriving DecidableEq, Repr

/-- The header of a Luevevan packet whose payload has at least 24 bytes. -/
def parseLv (l : List Byte) : LvPkt :=
  let flags := fieldBE l 3 1
  let ch := if flags.testBit 0 then 4 else 3
  { rgbw := flags.testBit 0, last := flags.testBit 1, blank := flags.testBit 2, seq := fieldBE l 4 4,
    stream := fieldBE l 8 2, sec := fieldBE l 10 2, ns := fieldBE l 12 4,
    run := ⟨fieldBE l 16 2, fieldBE l 18 2, chunks ch (l.length + 1) (samplesOf 16 (l.drop 24))⟩ }

/-- R163: whether a Luevevan payload breaks the format rules of context `x`. -/
def Chip.lvBad (c : Chip) (x : Nat) (l : List Byte) : Bool :=
  let ch := if (fieldBE l 3 1).testBit 0 then 4 else 3
  decide (l.length < 24) || fieldBE l 0 2 != 0x4C56 || fieldBE l 2 1 != 1 || decide (fieldBE l 3 1 ≥ 8)
    || decide (fieldBE l 12 4 > 999999999) || l.length != 24 + fieldBE l 20 2 * ch * 2
    || (fieldBE l 3 1).testBit 0 != c.bit (STC_FORMAT.CHANNELS x)

/-- The pixels of runs that lie in a window: (column, row) within it, and the samples (R178). -/
def windowPixels (win : Nat × Nat × Nat × Nat) (runs : List PixelRun) : List (Nat × Nat × List Nat) :=
  runs.flatMap (fun r => (r.px.zipIdx.filter (fun (e : List Nat × Nat) => inArea win (r.col + e.2) r.row)).map
    (fun e => (r.col + e.2 - win.1, r.row - win.2.1, e.1)))

/-- Samples written at a pixel. -/
def writePixel (m : SMap Nat) (k ch : Nat) (v : List Nat) : SMap Nat :=
  (List.range ch).foldl (fun m i => smSet (fun _ => 0) m (4 * k + i) (v.getD i 0)) m

/-- R164, R178, R180: an accepted packet of context `cfg` is written into its frame; the bytes written. -/
def FrameRec.write (fr : FrameRec) (cfg : CtxCfg) (runs : List PixelRun) (blank : Bool) : FrameRec × Nat :=
  if fr.blanked.contains cfg.id then (fr, 0)
  else if blank then
    if cfg.scaled then
      ({ fr with blanked := cfg.id :: fr.blanked, scale := fr.scale.filter (fun e => e.1 != cfg.id) }, 0)
    else
      ({ fr with blanked := cfg.id :: fr.blanked, px := fr.px.filter (fun e => !inRect cfg.dst (e.1 / 4)) }, 0)
  else
    let px := windowPixels cfg.win runs
    let n := 2 * cfg.channels * px.length
    if cfg.scaled then
      let key := fun (e : Nat × Nat × List Nat) => pixKey e.1 e.2.1
      let m := px.foldl (fun m e => writePixel m (key e) cfg.channels e.2.2) (fr.scaleArea cfg.id)
      ((fr.putScale cfg.id m).gotWindow cfg.id (px.map key), n)
    else
      let key := fun (e : Nat × Nat × List Nat) => pixKey (cfg.dst.1 + e.1) (cfg.dst.2.1 + e.2.1)
      let m := px.foldl (fun m e => writePixel m (key e) cfg.channels e.2.2) fr.px
      (({ fr with px := m }).gotPixels (px.map key), n)

/-- R184: the slicer takes an accepted packet of context `x` for the frame with origin boundary `o` of feed `f`. `runsOf`
reads its pixels under the sampling that applies to the frame. -/
def Chip.slice (c : Chip) (x f : Nat) (o : Int) (runsOf : Nat → List PixelRun) (blank : Bool) : Chip :=
  if !c.displays then c
  else
    if c.frozen (o + c.delay f) then c.bump (ctxCnt x 0x30) 1
    else match (c.feed f).frames.find? (fun fr => fr.o == o) with
      | none => c.bump (ctxCnt x 0x38) 1
      | some fr =>
        match fr.ctxs.find? (fun k => k.id == x) with
        | none => c
        | some cfg =>
          let (fr, n) := fr.write cfg (runsOf cfg.sampling) blank
          (c.bump (ctxCnt x 0x68) n).putFrame f fr

/-! Re-sending (R394, R395). -/

/-- The header and pixels of a Luevevan packet sent. -/
def lvBytes (rgbw last : Bool) (seq stream sec ns line col : Nat) (px : List (List Nat)) : List Byte :=
  bytesBE 2 0x4C56 ++ [1#8, byteOf ((if rgbw then 1 else 0) + (if last then 2 else 0))] ++ bytesBE 4 seq
    ++ bytesBE 2 stream ++ bytesBE 2 sec ++ bytesBE 4 ns ++ bytesBE 2 line ++ bytesBE 2 col ++ bytesBE 2 px.length
    ++ bytesBE 2 0 ++ px.flatMap (fun p => p.flatMap (bytesBE 2))

/-- R394: the packet of one run that entry `k` cuts out and sends, unless it exceeds the rate of R395. `cfg` are the
settings of the frame. -/
def Chip.resendRun (c : Chip) (cfg : CtxCfg) (k : Nat) (o t : Int) (run : PixelRun) : Chip :=
  let rect := (c.get (GNG_RSk_W1.RS_X k), c.get (GNG_RSk_W1.RS_Y k), c.get (GNG_RSk_W2.RS_W k), c.get (GNG_RSk_W2.RS_H k))
  let px := windowPixels rect [run]
  match px with
  | [] => c
  | e :: _ =>
    let (c, d) := c.draw
    let out := px.map (fun e => (List.range cfg.channels).map (fun ch =>
      storeCode ((c.steps14 cfg e.2.2).getD ch 0) (Config.correctError d (4 * pixKey e.1 e.2.1 + ch))))
    let len := 24 + out.length * cfg.channels * 2
    let ms := c.time.c.toNat / 800000
    let used := if c.resendMs.1 = ms then c.resendMs.2 else 0
    if used + len > 1250000 then (c.raiseGang 6 (gangAddr c) (nodeId c)).bump 0x100A20 1
    else
      let r := c.resend.getD k ⟨0, 0, []⟩
      let got := (px.map (fun e => pixKey e.1 e.2.1)).filter (fun q => r.origin != o || !r.got.contains q)
        ++ (if r.origin = o then r.got else [])
      let last := decide (got.length = rect.2.2.1 * rect.2.2.2)
      let sec := (t / secU % 2 ^ 16).toNat
      let ns := (t % secU / nsU).toNat
      let body := lvBytes (cfg.channels == 4) last r.seq (c.get (GNG_RSk_W0.RS_STREAM k)) sec ns
        (rect.2.1 + e.2.1) (rect.1 + e.1) out
      let g := c.tableAddr (c.get (GNG_RSk_W3.RS_GROUP k))
      let c := c.setResend (c.resend.set k ⟨(r.seq + 1) % 2 ^ 32, o, got⟩)
      let c := c.setResendMs (ms, used + len)
      let one := fun (c : Chip) (p : PortIx) =>
        if (c.get (GNG_RSk_W0.RS_PATHS k)).testBit p.val then c.sendLocal p ⟨.luevevan g body, c.udpLen p g body.length⟩ else c
      one (one c 0) 1

/-- R394: what the re-send entries of an apex make of an accepted packet. -/
def Chip.resendPacket (c : Chip) (cfg : CtxCfg) (o t : Int) (runs : List PixelRun) : Chip :=
  if !c.bit GNG_STATUS.IS_APEX then c
  else (List.range 16).foldl (fun c k =>
    if c.bit (GNG_RSk_W0.RS_EN k) && c.get (GNG_RSk_W0.SRC_CTX k) == cfg.id then
      runs.foldl (fun c r => c.resendRun cfg k o t r) c
    else c) c

/-! The bridge's side of a context (R225, R399). -/

/-- Whether the bridge is neither fenced nor quiesced. -/
def Chip.bridgeLive (c : Chip) : Bool :=
  !c.bit ERR_FENCE_BLOCK.BRIDGE_FENCED && !c.bit (ERR_GATE_BLOCK.BLOCK_GATED.bit 20)

def Chip.dmxPort (c : Chip) (p : Nat) : DmxPort := c.dmx.toList.getD p DmxPort.start
def Chip.setDmxPort (c : Chip) (p : Nat) (d : DmxPort) : Chip := c.setDmx (c.dmx.setIfInBounds p d)

/-- R397: the next send instant of a port after the present. -/
def Chip.nextSend (c : Chip) (p : Nat) : Int :=
  if c.bit (BRG_PORTp_CFG.TX_SYNC p) && c.timeValid then
    let every : Int := (max 1 (c.get (BRG_PORTp_TIME.TX_EVERY p)) : Nat)
    let ofs := (c.get (BRG_PORTp_OFFSET.TX_OFFSET p) : Int) * usU
    let n := gridN c.period c.gridOffset (c.now - ofs)
    c.boundary ((n / every + 1) * every) + ofs
  else ((c.dmxPort p).lastSend.getD c.now) + (c.get (BRG_PORTp_PERIOD.TX_PERIOD_US p) : Int) * usU

/-- The ports that the enabled rules of context `x` write. -/
def Chip.rulePorts (c : Chip) (x : Nat) : List Nat :=
  (List.range 4).filter (fun p => (List.range 1024).any (fun i =>
    c.bit (BRG_RULEi_W0.EN i) && c.get (BRG_RULEi_W0.SRC_CTX i) == x && c.get (BRG_RULEi_W1.DST_PORT i) == p))

/-- R224: the deadline of a MAP item of context `x`. -/
def Chip.mapDue (c : Chip) (x : Nat) : Int :=
  match (c.rulePorts x).map c.nextSend with
  | [] => c.now
  | d :: ds => ds.foldl min d

/-- R221, R225: new values have arrived for context `x`; with `TARGET` 1 a MAP item is made and supersedes the one not
yet dispatched. While the bridge is fenced or quiesced it is cancelled at once (R452). -/
def Chip.newValues (c : Chip) (x : Nat) : Chip :=
  if !(c.ctxActs x && c.ctxMaps x) then c
  else
    let old := c.sched.items.filter (fun i => i.type == .map && i.strip == x
      && (match i.state with | .running _ => false | _ => true))
    let c := old.foldl (fun c i => c.cancelItem i 4 0xFFF) c
    let (c, s) := c.makeItem (blankItem .map (c.get (STC_CTRL.FEED x)) c.frameNow 0 x 0 (c.mapDue x))
    if c.bridgeLive then c
    else match s.bind c.item with
      | some i => c.cancelItem i 2 0xFFF
      | none => c

/-! sACN (R165 to R167). -/

/-- R165: the source to follow among those heard: the highest priority, the present one among equals, else the first
heard. -/
def chooseSource (l : List (Nat × Nat)) (cur : Option Nat) : Option Nat :=
  let top := (l.map (·.2)).foldl max 0
  let best := l.filter (fun s => s.2 == top)
  match cur with
  | some k => if best.any (fun s => s.1 == k) then some k else (best.head?).map (·.1)
  | none => (best.head?).map (·.1)

/-- R165: the followed source is chosen anew; a change of it is counted and latched. With no source left, the last one
followed is kept in mind. The source newly followed has had no packet accepted yet (R173). -/
def Chip.followSource (c : Chip) (x : Nat) : Chip :=
  let k := c.ctx x
  match chooseSource k.sources k.followed with
  | none => c
  | some s =>
    if k.followed = some s then c
    else
      let c := c.setCtx x { k with followed := some s, merge := none }
      if k.followed.isNone then c
      else (c.bump (ctxCnt x 0x60) 1).raiseStream x (STC_CSTAT.SOURCE_CHANGE_SEEN x) 5 0

/-- R165: a source leaves. -/
def Chip.sourceLeaves (c : Chip) (x cid : Nat) : Chip :=
  (c.setCtx x { c.ctx x with sources := (c.ctx x).sources.filter (fun s => s.1 != cid) }).followSource x

/-- New slot values over the earlier ones. -/
def overSlots (old new : List Nat) : List Nat := new.take 512 ++ old.drop (min 512 new.length)

/-- The latest values of a context are replaced. -/
def Chip.useSlots (c : Chip) (x : Nat) (v : List Nat) : Chip :=
  (c.setCtx x { c.ctx x with latest := overSlots (c.ctx x).latest v, waiting := none }).newValues x

/-! The filter tables (R142, R155). -/

/-- The groups of R142 that port `p` is to join, in the fixed order, each with its source or 0. -/
def Chip.wantGroups (c : Chip) (p : PortIx) : List (Nat × Nat) :=
  let ptp := match c.get TIM_CTRL.TRANSPORT with
    | 0 => [mapped4 0xE0000181] ++ (if c.peerDelay then [mapped4 0xE000006B] else [])
    | 1 => [0xFF0E * 2 ^ 112 + 0x181] ++ (if c.peerDelay then [0xFF02 * 2 ^ 112 + 0x6B] else [])
    | _ => [0x011B19000000] ++ (if c.peerDelay then [0x0180C200000E] else [])
  let own := ptp ++ [mapped4 0xEFC0BB01]
    ++ (if c.get GNG_ID.GANG_ID = 0 then [] else [c.get128 (fun w => GNG_GROUP.GNG_GROUP w)])
    ++ [c.get128 (fun w => RED_GROUP.RED_GROUP w)]
  let on := allCtx.filter (fun x => c.ctxEn x && c.ctxType x != ctxDmx && c.ctxOnPort x p.val)
  let groups := on.filterMap (fun x => (c.ctxGroup x p.val).map (fun g => (g, (c.ctxSource x p.val).getD 0)))
  let sync := dedupSorted (sortNat ((on.map (fun x => (c.ctx x).syncUniv)).filter (· != 0)))
  own.map (fun g => (g, 0)) ++ groups ++ sync.map (fun u => (universeGroup u, 0))

/-- R142: both tables are rebuilt. -/
def Chip.rebuildTables (c : Chip) : Chip := (c.setTable 0 (c.wantGroups 0)).setTable 1 (c.wantGroups 1)

/-! Packets. -/

/-- R150 to R184: an ST 2110-20 packet; whether a context took it. -/
def Chip.rxRtp (c : Chip) (p : PortIx) (ip : IpHdr) (k : RtpPkt) : Chip × Bool :=
  let t := c.rtpTime k.timestamp
  match c.claim p ctxSt2110 ip k.payloadType t with
  | none => (c, false)
  | some (v, x, o) =>
    let ssrc := v.get (STC_SSRC.SSRC x)
    if (ssrc != 0 && k.ssrc != ssrc) || rtpBad (v.get (STC_FORMAT.SAMPLING x)) k then (c.formatErr x, true)
    else
      let c := (c.checkOrigin x t o).awaken x
      let c := if k.marker then c.measureSkew x p o else c
      let (c, ok) := c.mergePacket x p k.seq
      if !ok then (c, true)
      else
        let c := c.slice x (v.get (STC_CTRL.FEED x)) o (fun s => rtpRuns s k) false
        (c.resendPacket (v.ctxCfg x) o (c.boundary o) (rtpRuns (v.get (STC_FORMAT.SAMPLING x)) k), true)

/-- R161 to R164: a Luevevan packet. -/
def Chip.rxLuevevan (c : Chip) (p : PortIx) (ip : IpHdr) (l : List Byte) : Chip × Bool :=
  let k := parseLv l
  let t := c.originTime k.sec k.ns
  match c.claim p ctxLuevevan ip (fieldBE l 8 2) t with
  | none => (c, false)
  | some (v, x, o) =>
    if v.lvBad x l then (c.formatErr x, true)
    else
      let c := (c.checkOrigin x t o).awaken x
      let c := if k.last then c.measureSkew x p o else c
      let (c, ok) := c.mergePacket x p k.seq
      if !ok then (c, true)
      else
        let c := c.slice x (v.get (STC_CTRL.FEED x)) o (fun _ => [k.run]) k.blank
        (if k.blank then c else c.resendPacket (v.ctxCfg x) o (c.boundary o) [k.run], true)

/-- R165 to R167, R173: an E1.31 data packet. -/
def Chip.rxE131 (c : Chip) (p : PortIx) (ip : IpHdr) (k : E131Pkt) : Chip × Bool :=
  match c.classify p ctxSacn ip k.univ with
  | none => (c, false)
  | some x =>
    if !k.formed || k.startCode != 0 then (c.formatErr x, true)
    else if k.preview && !c.bit (STC_CTRL.PREVIEW_OK x) then (c, true)
    else if k.terminated then (c.sourceLeaves x k.cid, true)
    else
      let srcs := (c.ctx x).sources
      let srcs := if srcs.any (fun s => s.1 == k.cid) then
          srcs.map (fun s => if s.1 = k.cid then (s.1, k.priority) else s) else srcs ++ [(k.cid, k.priority)]
      let c := (c.setCtx x { c.ctx x with sources := srcs }).followSource x
      if (c.ctx x).followed ≠ some k.cid then (c, true)
      else
        let (c, ok) := c.mergePacket x p k.seq
        if !ok then (c, true)
        else
          let v := k.slots.map (·.toNat)
          let new := (c.ctx x).syncUniv != k.syncAddr
          let c := c.setCtx x { c.ctx x with syncUniv := k.syncAddr }
          let c := if new then c.rebuildTables else c
          if k.syncAddr ≠ 0 ∧ (c.ctx x).syncFree = false then (c.setCtx x { c.ctx x with waiting := some v }, true)
          else (c.useSlots x v, true)

/-- R167: an E1.31 synchronization packet for universe `u` on port `p`. -/
def Chip.rxSync (c : Chip) (p : PortIx) (u : Nat) : Chip × Bool :=
  let l := if c.ingests then allCtx.filter (fun x => c.ctxActs x && c.ctxType x == ctxSacn && c.ctxOnPort x p.val
    && (c.ctx x).syncUniv == u && u != 0) else []
  (l.foldl (fun c x =>
    let c := c.setCtx x { c.ctx x with syncFree := false }
    match (c.ctx x).waiting with
    | some v => c.useSlots x v
    | none => c) c, !l.isEmpty)

/-- R167: 2.5 s have passed without a synchronization packet for context `x`. -/
def Chip.syncTimeout (c : Chip) (x : Nat) : Chip :=
  if c.ctxEn x && c.ctxType x == ctxSacn && (c.ctx x).syncUniv != 0 then c.setCtx x { c.ctx x with syncFree := true } else c

/-- R165: a source of context `x` has sent nothing for `SRC_TIMEOUT`. -/
def Chip.sourceTimeout (c : Chip) (x cid : Nat) : Chip :=
  if c.ctxEn x && c.ctxType x == ctxSacn && (c.ctx x).sources.any (fun s => s.1 == cid) then c.sourceLeaves x cid else c

/-- R401: the slots that the rules of a lost context write fall to `IDLE_LEVEL` from the next send instant, unless
`LOSS_HOLD` holds them. -/
def Chip.idleSlots (c : Chip) (x : Nat) : Chip :=
  if c.bit (STC_CTRL.LOSS_HOLD x) then c
  else (List.range 1024).foldl (fun c i =>
    if c.bit (BRG_RULEi_W0.EN i) && c.get (BRG_RULEi_W0.SRC_CTX i) == x then
      let p := c.get (BRG_RULEi_W1.DST_PORT i)
      let w := if c.bit (BRG_RULEi_W1.DST16 i) then 2 else 1
      let slots := (List.range (w * (c.get (BRG_RULEi_W0.COUNT i) + 1))).map (fun j => c.get (BRG_RULEi_W1.DST_SLOT i) + j)
      c.setDmxPort p { c.dmxPort p with toIdle := (c.dmxPort p).toIdle ++ slots }
    else c) c

/-- R187, R188: `SRC_TIMEOUT` has passed without an accepted packet of context `x`. -/
def Chip.sourceLost (c : Chip) (x : Nat) : Chip :=
  if c.ctxActs x && c.ctxState x == 2 then
    let c := c.put (STC_CSTAT.STATE x) 3
    let c := c.event 0x0002 4 6 x 0 0 0
    let gone := (c.ctx x).syncUniv != 0
    let c := c.setCtx x { c.ctx x with syncUniv := 0, waiting := none, syncFree := false }
    let c := if gone then c.rebuildTables else c
    if c.ctxMaps x then c.idleSlots x else c
  else c

/-- R188: `SRC_TIMEOUT` has passed without a packet on one path of context `x`. -/
def Chip.pathInactive (c : Chip) (x : Nat) (p : PortIx) : Chip := c.putB (activeFld x p) false

/-- R168, R398: a packet of a DMX input port reaches every context that names it. -/
def Chip.dmxInput (c : Chip) (port : Nat) (v : List Nat) : Chip :=
  (allCtx.filter (fun x => c.ingests && c.ctxActs x && c.ctxType x == ctxDmx
    && c.get (STC_MATCH.STREAM_ID x) == port)).foldl (fun c x => (c.put (STC_CSTAT.STATE x) 2).useSlots x v) c

/-- The body of a frame delivered locally reaches its unit. The other units' messages arrive through commands of their
own. -/
def Chip.deliver (c : Chip) (p : PortIx) (b : RxBody) : Chip :=
  let (c, taken) := match b with
    | .rtp ip k => c.rxRtp p ip k
    | .luevevan ip l => c.rxLuevevan p ip l
    | .e131 ip k => c.rxE131 p ip k
    | .e131Sync _ u => c.rxSync p u
    | .other => (c, true)
  if taken then c else c.dropLast p

/-- R133, R123: a frame received on port `p`. -/
def Chip.rxFrame (c : Chip) (p : PortIx) (h : FrameHead) (b : RxBody) : Chip :=
  if !(c.power.portsUp && c.st != .dormant && c.portLive p && (c.linkUp p || h.linkCut)) then c
  else
    let (d, o) := c.rxMac p h (b == .other)
    let d := d.rxForward p h
    if o != .accepted then d
    else
      let d := if c.dstKind p h.dst == .macControl then d.bump (portCnt p 0x48) 1 else d
      if d.delivers p h then d.deliver p b else (d.bump (portCnt p 0x50) 1).dropLast p

/-! Context changes at a frame boundary (R186, R187). -/

/-- R187: `STATE` and the merge state follow `EN`, key changes and fences. `changed` are the contexts whose key has
changed. -/
def Chip.ctxBoundary (c : Chip) (changed : List Nat) : Chip :=
  allCtx.foldl (fun c x =>
    if c.ctxActs x then
      if c.ctxState x = 0 ∨ changed.contains x = true then
        (c.setCtx x { c.ctx x with merge := none, lastPk := [] }).put (STC_CSTAT.STATE x) 1
      else c
    else if c.ctxState x = 0 then c
    else (((c.setCtx x Ctx.start).put (STC_CSTAT.STATE x) 0).put (STC_CSTAT.P0_ACTIVE x) 0).put (STC_CSTAT.P1_ACTIVE x) 0) c

/-- R176: the pool registers. -/
def Chip.showPool (c : Chip) : Chip :=
  let en := allCtx.filter c.ctxEn
  (c.put STC_POOL.WIN_USED (en.map c.mergeUnits).sum).put STC_POOL.CTX_ENABLED en.length

end Sys2Proof.Machine
end

