-- ==== Sys2Proof/Machine/Cores.lean ====
section
/-!
DEFINITION. What pixel cores do with work items (R219 to R240, R253 to R270, R399): grants, the outputs of an item,
its retirement, deadlines, and the failure of a core. An item reads its inputs and writes its outputs in the instant in
which it retires (log entry 23).
-/

namespace Sys2Proof.Machine

open Sys2Proof

/-- What the items read beyond the chip: the calibration record of a driven pixel (R259) and the bytes of the SRAM window
(R569). -/
structure MemView where
  record : Nat → Nat
  byte : Nat → Byte

/-! Grants (R228 to R231). -/

/-- R265: an item granted takes the gain set in force. -/
def Chip.stampGains (old c : Chip) : Chip :=
  let ran := fun (i : Item) => old.sched.items.any (fun j => j.slot == i.slot && (match j.state with | .running _ => true | _ => false))
  c.setSched { c.sched with items := c.sched.items.map (fun i =>
    match i.state with
    | .running _ => if ran i then i else { i with gset := c.gainSet }
    | _ => i) }

/-- R231: the ready items are offered to the idle cores. -/
def Chip.grant (c : Chip) : Chip := c.stampGains c.grantAll

/-- Whether core `k` runs an item. -/
def Chip.coreBusy (c : Chip) (k : Nat) : Bool :=
  c.sched.items.any (fun i => i.state == .running k)

/-- R231: core `k` asks for work: it joins the idle queue. Grants follow every command (`Chip.finish`). -/
def Chip.coreRequest (c : Chip) (k : Nat) : Chip :=
  if c.coreLive k && !c.coreBusy k && !c.sched.idle.contains k then
    c.setSched { c.sched with idle := c.sched.idle ++ [k] }
  else c

/-! The outputs of items. -/

/-- The region that holds a pixel and its number there, over the pixels of each region. -/
def homeIn (regions : List (List Nat)) (k : Nat) : Option (Nat × Nat) :=
  regions.zipIdx.findSome? (fun (r : List Nat × Nat) => (r.1.idxOf? k).map (fun i => (r.2, i)))

def Chip.regions (c : Chip) : List (List Nat) := (List.range 4).map c.regionPixels

/-- The address of a channel of still slot `v` of a feed (R197, R198). -/
def Chip.stillAddr (c : Chip) (f v q i ch : Nat) : Nat :=
  allocBase q + c.stillGran f v * 4096 + (i * c.channels + ch) * 2

/-- A channel of a still's pixel. -/
def Chip.stillChannel (c : Chip) (m : MemView) (f v q i ch : Nat) : Nat :=
  let a := c.stillAddr f v q i ch
  (m.byte a).toNat + 256 * (m.byte (a + 1)).toNat

/-- The chip with a frame record of a feed changed, without signals. -/
def Chip.editFrame (c : Chip) (f slot : Nat) (g : FrameRec → FrameRec) : Chip :=
  c.setFeed f { c.feed f with frames := (c.feed f).frames.map (fun x => if x.slot = slot then g x else x) }

def Chip.frameIn (c : Chip) (f slot : Nat) : Option FrameRec := (c.feed f).frames.find? (fun x => x.slot == slot)

/-- The channels of pixel `k`, zero where `zero` says so. -/
def unfed (zero : Nat → Bool) (k : Nat) (v : List Nat) : List Nat :=
  v.zipIdx.map (fun e => if zero (4 * k + e.2) then 0 else e.1)

/-- CROP/SCALE (R180, R221): the destination pixels of the strip. The manual gives no filter. -/
def Chip.runCropScale (c : Chip) (i : Item) (zero : Nat → Bool) : Chip :=
  match c.frameIn i.feed i.buffer with
  | none => c
  | some fr =>
    let (c, d) := c.draw
    let rect := c.stripRect i.feed i.strip
    let px := ((c.scaledOn i.feed fr i.strip).flatMap (fun x => rectPixels x.dst)).filter (inRect rect)
    let m := px.foldl (fun m k => writePixel m k c.channels ((List.range c.channels).map (fun ch =>
      if zero (4 * k + ch) then 0 else Config.scaled d (4 * k + ch) % 65536))) fr.px
    c.editFrame i.feed i.buffer (fun fr => ({ fr with px := m }).gotPixels px)

/-- CORRECT on a ring slot (R253): the covered pixels of the strip; a pixel that no context covers stays zero. -/
def Chip.runCorrectSlot (c : Chip) (mv : MemView) (i : Item) (zero : Nat → Bool) : Chip :=
  match c.frameIn i.feed i.buffer with
  | none => c
  | some fr =>
    let (c, d) := c.draw
    let set := c.gainsOf i.gset
    let m := (rectPixels (c.stripRect i.feed i.strip)).foldl (fun m k =>
      match fr.ctxs.find? (fun x => inRect x.dst k) with
      | none => writePixel m k c.channels []
      | some x =>
        let v := (List.range c.channels).map (fun ch => smGet (fun _ => 0) fr.px (4 * k + ch))
        writePixel m k c.channels (unfed zero k (c.correctPixel (some x) (mv.record k) set k d v))) fr.px
    c.editFrame i.feed i.buffer (fun fr => { fr with px := m })

/-- CORRECT on a still slot, in place (R222). -/
def Chip.runCorrectStill (c : Chip) (mv : MemView) (i : Item) (zero : Nat → Bool) : Chip :=
  let (c, d) := c.draw
  let set := c.gainsOf i.gset
  let regions := c.regions
  let v := i.buffer - 16
  (rectPixels (c.stripRect i.feed i.strip)).foldl (fun c k =>
    match homeIn regions k with
    | none => c
    | some (q, n) =>
      let old := (List.range c.channels).map (c.stillChannel mv i.feed v q n)
      let new := unfed zero k (c.correctPixel none (mv.record k) set k d old)
      c.sramOp (.store (c.stillAddr i.feed v q n 0) (new.flatMap (fun x => [byteOf x, byteOf (x / 256)])))) c

/-- The stored values of the pixels that a DITHER item reads: a ring slot, a still, or black (R222). -/
def Chip.ditherInput (c : Chip) (mv : MemView) (i : Item) : Nat → Nat → Nat :=
  if i.buffer < 16 then
    match c.frameIn i.feed i.buffer with
    | some fr => fun k ch => smGet (fun _ => 0) fr.px (4 * k + ch)
    | none => fun _ _ => 0
  else if i.buffer < 31 then
    let regions := c.regions
    fun k ch => match homeIn regions k with
      | some (q, n) => c.stillChannel mv i.feed (i.buffer - 16) q n ch
      | none => 0
  else fun _ _ => 0

/-- DITHER (R266, R269): the codes of the strip go to the cluster's strip area, held for the TRANSPOSE item. -/
def Chip.runDither (c : Chip) (mv : MemView) (i : Item) (zero : Nat → Bool) : Chip :=
  let input := c.ditherInput mv i
  let on := c.bit COL_CTRL.DITHER_EN
  let codes := (rectPixels (c.stripRect i.feed i.strip)).foldl (fun m k =>
    writePixel m k c.channels (unfed zero k ((List.range c.channels).map (fun ch =>
      ditherCode (input k ch) i.scale i.dith.1 i.dith.2 c.planes k on)))) []
  match c.sched.items.find? (fun j => j.type == .transpose && j.waits.contains i.slot) with
  | none => c
  | some t => c.setScan { c.scan with dithered := (t.slot, codes) :: c.scan.dithered.filter (fun e => e.1 != t.slot) }

def Chip.staging (c : Chip) (b : Nat) : Staging := c.scan.stg.getD b Staging.start
def Chip.setStaging (c : Chip) (b : Nat) (s : Staging) : Chip := c.setScan { c.scan with stg := c.scan.stg.set b s }

/-- TRANSPOSE (R221, R298): the strip's codes go to staging, and the strip's area is marked valid when it retires
`DONE`. -/
def Chip.runTranspose (c : Chip) (i : Item) (zero : Nat → Bool) (mark : Bool) : Chip :=
  let codes := ((c.scan.dithered.find? (fun e => e.1 == i.slot)).map (·.2)).getD []
  let s := c.staging i.buffer
  let rect := c.stripRect i.feed i.strip
  let kept := s.codes.filter (fun e => !inRect rect (e.1 / 4))
  let new := codes.foldl (fun m e => smSet (fun _ => 0) m e.1 (if zero e.1 then 0 else e.2)) kept
  c.setStaging i.buffer { s with
    codes := new, marks := if mark && !s.marks.contains i.strip then i.strip :: s.marks else s.marks }

/-- The tested row of a half (R317). -/
def Chip.detRow (c : Chip) (h : Nat) : Nat := c.get (if h = 0 then CHN_STATUS.DET_ROW_A else CHN_STATUS.DET_ROW_B)

/-- DETECT (R317): the half's detection planes test one row. A poisoned word of the pattern zeroes them. -/
def Chip.runDetect (c : Chip) (i : Item) (poisoned : Bool) : Chip :=
  let s := c.staging i.buffer
  c.setStaging i.buffer { s with det := s.det.set i.strip (if poisoned then none else some (c.detRow i.strip)) }

/-- R399: one channel of a rule: the destination slot and its value or values. -/
def Chip.ruleChannel (c : Chip) (slot : Nat → Nat) (r i : Nat) : List (Nat × Nat) :=
  let src16 := c.bit (BRG_RULEi_W0.SRC16 r)
  let dst16 := c.bit (BRG_RULEi_W1.DST16 r)
  let s := c.get (BRG_RULEi_W0.SRC_SLOT r) + i * (if src16 then 2 else 1)
  let d := c.get (BRG_RULEi_W1.DST_SLOT r) + i * (if dst16 then 2 else 1)
  let v := if src16 then slot s * 256 + slot (s + 1) else slot s * 257
  let v := if c.bit (BRG_RULEi_W1.INVERT r) then 65535 - v else v
  let y := (clampInt 0 65535 (((v * c.get (BRG_RULEi_W1.GAIN r) / 2 ^ 15 : Nat) : Int) + c.getS (BRG_RULEi_W2.OFFSET r))).toNat
  if dst16 then [(d, y / 256), (d + 1, y % 256)] else [(d, (y * 255 + 32767) / 65535)]

/-- MAP (R399): every enabled rule of the context writes its slots in the output buffer of its port. -/
def Chip.runMap (c : Chip) (i : Item) (zero : Nat → Bool) : Chip :=
  let slot := fun n => (c.ctx i.strip).latest.getD (n - 1) 0
  (List.range 1024).foldl (fun c r =>
    if c.bit (BRG_RULEi_W0.EN r) && c.get (BRG_RULEi_W0.SRC_CTX r) == i.strip then
      let w := (List.range (c.get (BRG_RULEi_W0.COUNT r) + 1)).flatMap (c.ruleChannel slot r)
      let p := c.get (BRG_RULEi_W1.DST_PORT r)
      let d := c.dmxPort p
      c.setDmxPort p { d with
        out := w.foldl (fun m e => smSet (fun _ => none) m e.1 (some (if zero (513 * p + e.1) then 0 else e.2))) d.out,
        toIdle := d.toIdle.filter (fun s => !w.any (fun e => e.1 == s)) }
    else c) c

/-- What an item writes. `poison` lists the outputs that a poisoned word feeds, which are zero (R239): of pixels, the key ×
4 + the channel; of MAP, the port × 513 + the slot. -/
def Chip.runItem (c : Chip) (mv : MemView) (i : Item) (poison : Option (List Nat)) : Chip :=
  let zero := fun (o : Nat) => (poison.getD []).contains o
  match i.type with
  | .cropScale => c.runCropScale i zero
  | .correct => if i.buffer < 16 then c.runCorrectSlot mv i zero else c.runCorrectStill mv i zero
  | .dither => c.runDither mv i zero
  | .transpose => c.runTranspose i zero poison.isNone
  | .detect => c.runDetect i poison.isSome
  | .map => c.runMap i zero

/-- The dithered codes of items that no longer exist are dropped. -/
def Chip.dropDithered (c : Chip) : Chip :=
  c.setScan { c.scan with dithered := c.scan.dithered.filter (fun e => c.sched.items.any (fun i => i.slot == e.1)) }

/-- R226, R237, R239: the item that core `k` runs retires. With `poison` a word delivered with `POISON` fed the outputs that
it lists. -/
def Chip.itemRetire (c : Chip) (mv : MemView) (k : Nat) (poison : Option (List Nat)) : Chip :=
  match c.sched.items.find? (fun i => i.state == .running k) with
  | none => c
  | some i =>
    let c := c.setSched { c.sched with lastCore := k }
    match i.cancel with
    | some r => (c.retireItem i k r).dropDithered
    | none =>
      let c := c.runItem mv i poison
      if poison.isSome then
        let c := (c.latch SCH_EVENT.POISON_SEEN).writeLog (plainEntry 0x0102 k i.slot .poisoned)
        (c.retireItem i k 6).dropDithered
      else (c.retireItem i k 0).dropDithered

/-! Failures (R240). -/

/-- The dependents of an item are cancelled (R236). -/
def Chip.cancelDependents (c : Chip) (i : Item) : Chip :=
  let l := (c.sched.items.filter (fun j => j.waits.contains i.slot && j.cancel.isNone)).map (fun j => (j.slot, 5, i.slot))
  c.cancelLoop (2 * c.sched.items.length + l.length + 1) l

/-- The item retires `FAILED`. -/
def Chip.failRetire (c : Chip) (i : Item) (k : Nat) : Chip :=
  ((c.cancelDependents i).retireItem i k 7).dropDithered

/-- R240: core `k` has been fenced while it ran an item. -/
def Chip.coreFailed (c : Chip) (k : Nat) : Chip :=
  let c := c.setSched { c.sched with idle := c.sched.idle.filter (fun x => x != k) }
  match c.sched.items.find? (fun i => i.state == .running k) with
  | none => c
  | some i =>
    match i.cancel with
    | some r => (c.retireItem i k r).dropDithered
    | none => match i.type with
      | .cropScale | .correct =>
        let c := (c.failRetire i k).raiseSched SCH_EVENT.FAIL_SEEN 4
        if i.buffer < 16 then
          (c.editFrame i.feed i.buffer (fun fr => { fr with failed := true })).abandon i.feed i.frame
        else c
      | _ =>
        if i.again then c.failRetire i k
        else
          let i := { i with state := .ready, again := true }
          let c := (c.setItem i).bump (schCnt 0x28) 1
          let c := c.traceItem 7 i 0x3F 0 0xFFF
          if i.type = .dither then
            c.setItems (c.sched.items.map (fun j =>
              if j.type = .transpose ∧ j.waits.contains i.slot = true then { j with cluster := none } else j))
          else c

/-! Deadlines (R233, R297, R298). -/

/-- The `SCAN` event of a latch of half `h` (R308). -/
def Chip.raiseScan (c : Chip) (f : Nat → Fld) (h cause : Nat) : Chip :=
  c.raise (f h) (fun c => c.event 0x0006 2 cause h 0 0 0)

def scanCnt (h o : Nat) : Nat := 0x100700 + 0x40 * h + o

/-- R233: an unretired item meets its deadline. The trace records `MISS` for one that waits or is ready. -/
def Chip.missItem (c : Chip) (i : Item) : Chip :=
  let c := c.bump (schCnt 0x10) 1
  let c := match i.state with
    | .running _ => c.setItem { i with cancel := some 3 }
    | _ => (c.traceItem 6 i 0x3F 3 0xFFF).setItems (c.sched.items.filter (fun j => j.slot != i.slot))
  (c.cancelDependents i).raiseSched SCH_EVENT.MISS_SEEN 1

/-- R233: the items that `p` selects miss, each DITHER item before its TRANSPOSE item, which goes with it. -/
def Chip.missWhere (c : Chip) (p : Item → Bool) : Chip :=
  let due := fun (c : Chip) (t : WorkType) => c.sched.items.filter (fun i => i.type == t && p i && i.cancel.isNone)
  let c := (due c .dither).foldl (fun c i => c.missItem i) c
  let c := (due c .transpose).foldl (fun c i => c.missItem i) c
  ((due c .detect).foldl (fun c i => c.missItem i) c).dropDithered

/-! R316: the detection slot. -/

/-- The sub-frame of frame `n` that is the detection slot, under the masks of `n` in `v` and those of `n + 1` in `w`. -/
def detSlotOf (v w : Chip) (n : Int) : Option Nat :=
  if v.bit CHN_CTRL.DET_EN && n % (max 1 (v.get CHN_CTRL.DET_EVERY) : Nat) == 0 then
    (List.range v.subframes).find? (fun k => (v.owner k).isSome &&
      (if k + 1 < v.subframes then (v.owner (k + 1)).isNone else (w.owner 0).isNone))
  else none

def Chip.detSlot (c : Chip) (n : Int) : Option Nat := detSlotOf (c.viewAt n) (c.viewAt (n + 1)) n

/-- Whether the engines show frame `n` (R303, R305). -/
def Chip.showsFrame (c : Chip) (n : Int) : Bool :=
  match c.scan.display with
  | .showing => true
  | .blankUntil a => decide (a ≤ n)
  | _ => false

/-- The staging buffer of sub-frame `k` of frame `n` (R296). -/
def Chip.bufferOf (c : Chip) (n : Int) (k : Nat) : Nat := ((n * (c.subframes : Int) + (k : Int)) % 2).toNat

/-- Whether the scan half works: neither fenced nor quiesced. -/
def Chip.halfLive (c : Chip) (h : Nat) : Bool :=
  !c.bit (ERR_FENCE_BLOCK.HALF_FENCED.bit h) && !c.bit (ERR_GATE_BLOCK.BLOCK_GATED.bit (16 + h))

/-- R233, R298: the deadline of strip `s` of sub-frame `k` of frame `n`. -/
def Chip.stripDeadline (c : Chip) (n : Int) (k s : Nat) : Chip :=
  let v := c.viewAt n
  match v.owner k with
  | none => c
  | some f =>
    if !(c.showsFrame n && decide (k < v.subframes) && decide (s < v.stripCount f)) then c
    else
      let c := c.missWhere (fun i => (i.type == .dither || i.type == .transpose) && i.frame == n && i.sub == k && i.strip == s)
      let st := c.staging (v.bufferOf n k)
      let fresh := match st.holds with | some (m, _, g) => m == n && g == f | none => false
      if fresh && st.marks.contains s then c
      else if c.scan.starved.contains (n, k, s) then c
      else
        let h := v.stripHalf f s
        let c := c.setScan { c.scan with starved := (n, k, s) :: c.scan.starved }
        (c.bump (scanCnt h 0x10) 1).raiseScan SCN_x_EVENT.STARVED_SEEN h 1

/-- R233: the deadline of the detection planes of half `h` of sub-frame `k` of frame `n`. -/
def Chip.detDeadline (c : Chip) (n : Int) (k h : Nat) : Chip :=
  if c.showsFrame n && c.detSlot n == some k then
    c.missWhere (fun i => i.type == .detect && i.frame == n && i.sub == k && i.strip == h)
  else c

/-- The deadline of a sub-frame item: of a strip, or, with `detect`, of a half's DETECT item. -/
def Chip.itemDeadline (c : Chip) (n : Int) (k : Nat) (detect : Bool) (s : Nat) : Chip :=
  if detect then c.detDeadline n k s else c.stripDeadline n k s

/-! Live cores (R241, R455). -/

/-- `CORES_LIVE`, with the load over the cores that live. -/
def Chip.showCores (c : Chip) : Chip :=
  (c.put SCH_STATUS.CORES_LIVE c.coresLive).showLoad c.coresLive

end Sys2Proof.Machine
end

