-- ==== Sys2Proof/Machine/Lines.lean ====
section
/-!
DEFINITION. The lines to the drivers (R282 to R295, R310 to R320, R325): the edges of a row slot, of a detection window, of a
readback sequence and of a configuration write, what the drivers' registers then hold, and the levels at the balls. Times are
in units of 0.025 ns.
-/

namespace Sys2Proof.Machine

open Sys2Proof

def Chip.setLines (c : Chip) (l : Lines) : Chip := c.setScan { c.scan with lines := l }

/-- The length of a chain in bits (R279). -/
def Chip.chainBits (c : Chip) : Nat := 16 * c.drivers

/-- The time of a bit of an image or detection plane (R278). -/
def Chip.laneBit (c : Chip) : Nat := 25 * c.get SCN_TSET1.SCLK_DIV

/-- The time of a bit at the readback rate (R315). -/
def Chip.readBit (c : Chip) : Nat := 25 * c.get CHN_RB.RB_DIV

/-- A time in 2^-16 ns in units of 0.025 ns. -/
def toQ (t : Int) : Int := t * 40 / 65536

/-- The start of row slot `r` of sub-frame `k` of frame `n` (R288). -/
def Chip.slotQ (c : Chip) (n : Int) (k r : Nat) : Int := 4 * c.instant10 n (k * c.rows + r : Nat) (c.subframes * c.rows)

/-! What is shifted (R282, R283, R298, R317, R325). -/

/-- The strip of a pixel of a feed (R183). -/
def Chip.stripOf (c : Chip) (f key : Nat) : Nat :=
  let y := keyRow key / c.stripLines f
  if keyCol key < c.get SCN_MERIDIAN.MERIDIAN then y else c.halfStrips f 0 + y

/-- The codes that lane `l` shifts for row `r`, position by position (R283, R298). -/
def Chip.laneCodes (c : Chip) (n : Int) (k f l r : Nat) : List Nat :=
  let st := c.staging (c.bufferOf n k)
  (List.range (16 * c.drivers)).map (fun j =>
    match c.laneCol l j with
    | none => 0
    | some (x, ch) =>
      let key := pixKey x (c.laneRow l r)
      if c.scan.starved.contains (n, k, c.stripOf f key) then 0 else smGet (fun _ => 0) st.codes (4 * key + ch))

/-- A list of bits as a number, bit j for element j. -/
def bitsNat : List Bool → Nat
  | [] => 0
  | b :: l => b.toNat + 2 * bitsNat l

/-- The detection plane of lane `l` in row `r` of sub-frame `k` of frame `n` (R317). -/
def Chip.detectBits (c : Chip) (n : Int) (k l r : Nat) : List Bool :=
  let tested := c.detSlot n == some k && (c.staging (c.bufferOf n k)).det.getD (laneHalf l) none == some r
  (List.range c.chainBits).map (fun j => tested && (c.laneCol l j).isSome)

/-- What lane `l` shifts, as the number whose highest bit goes first: in a chain the bit of position j is bit j (R282). A lane
that is disabled, fenced or quiesced shifts zeros (R283, R302, log entry 133). -/
def Chip.shiftData (c : Chip) (what : ShiftWhat) (l : Nat) : Nat :=
  if !c.laneOn l then 0
  else match what with
    | .plane n k f r b => bitsNat ((c.laneCodes n k f l r).map (fun v => v.testBit b))
    | .detect n k r => bitsNat (c.detectBits n k l r)
    | .zeros => 0
    | .marker => c.get CHN_RB.MARKER * 2 ^ c.chainBits
    | .config w => ((List.range c.drivers).map (fun d => w * 2 ^ (16 * d))).sum

/-! Edges as they fall due. -/

/-- The four lanes of quad `q`. -/
def quadLanes (q : Nat) : List Nat := (List.range 4).map (4 * q + ·)

/-- Whether the outputs of quad `q` hold inactive (R302, R455). -/
def Chip.quadHeld (c : Chip) (q : Nat) : Bool :=
  !c.halfLive (q / 8) || (quadLanes q).all (fun l => c.laneFenced l || c.laneGated l || c.bankOff l)

def Lines.half (l : Lines) (h : Nat) (f : HalfLines → HalfLines) : Lines := { l with halves := l.halves.modify h f }
def Lines.quad (l : Lines) (q : Nat) (f : QuadLines → QuadLines) : Lines := { l with quads := l.quads.modify q f }

/-- The chains of quad `q` change as `f` says. -/
def Lines.chains (l : Lines) (q : Nat) (f : Nat → LaneRegs → LaneRegs) : Lines :=
  { l with lanes := (quadLanes q).foldl (fun ls i => ls.modify i (f i)) l.lanes }

/-- What the drivers of a chain do for a command (R311); the flags of `COPY_OPEN` and `COPY_SHORT` are the drivers' own, and
the readout that follows replaces them by what the lane shifts. -/
def LaneRegs.obey (double : Bool) (r : LaneRegs) : LatCmd → LaneRegs
  | .load => { r with buffer := r.shift }
  | .transfer | .test => { r with output := if double then r.buffer else r.shift }
  | .copyOpen | .copyShort => r
  | .config w => { r with config := r.config.set w (some r.shift) }

/-- The chains after a shift: each holds the last bits of what its lane has shifted (R282). -/
def shiftedIn (bits : Nat) (run : ShiftRun) (q l : Nat) (r : LaneRegs) : LaneRegs :=
  { r with shift := (r.shift * 2 ^ run.len + run.data.getD (l - 4 * q) 0) % 2 ^ bits }

/-- One planned edge takes place. -/
def Chip.edge (c : Chip) (o : PlannedOp) : Chip :=
  let l := c.scan.lines
  let live := !c.quadHeld o.unit
  c.setLines (match o.op with
    | .rowOff next => l.half o.unit (fun h => { h with rowOn := false, row := next })
    | .rowOn => l.half o.unit (fun h => { h with rowOn := true })
    | .dis b => l.half o.unit (fun h => { h with dis := b })
    | .pchg b => l.half o.unit (fun h => { h with pchg := b })
    | .oe b => l.quad o.unit (fun q => { q with oe := b })
    | .latOn cmd => l.quad o.unit (fun q => { q with lat := some cmd })
    | .latOff => l.quad o.unit (fun q => { q with lat := none })
    | .act cmd => if live then l.chains o.unit (fun _ r => r.obey c.doubleLatch cmd) else l
    | .shift what bit len =>
      l.quad o.unit (fun q => { q with shift := some ⟨o.due, bit, len, (quadLanes o.unit).map (c.shiftData what)⟩ })
    | .shiftEnd =>
      let run := (l.quads.getD o.unit .idle).shift
      let l := l.quad o.unit (fun q => { q with shift := none })
      match run with
      | some run => if live then l.chains o.unit (shiftedIn c.chainBits run o.unit) else l
      | none => l)

/-- The edges that fall due before the instant `t` take place, in order. -/
def Chip.edgesTo (c : Chip) (t : Int) : Chip :=
  let l := c.scan.lines
  let due := l.plan.takeWhile (fun o => decide (o.due < t))
  if due.isEmpty then c else due.foldl Chip.edge (c.setLines { l with plan := l.plan.drop due.length })

/-- Edges are planned, in the order of their instants; those of one instant keep the order in which they stand. -/
def Chip.planEdges (c : Chip) (ops : List PlannedOp) : Chip :=
  if ops.isEmpty then c
  else c.setLines { c.scan.lines with plan := (c.scan.lines.plan ++ ops).mergeSort (fun a b => decide (a.due ≤ b.due)) }

/-! Edges of one quad, before its delay (R295). -/

/-- A command on LAT at `t`, `w` ticks wide, which the drivers obey at `at'`. -/
def latPulse (cmd : LatCmd) (w : Nat) (t at' : Int) : List (Int × LineOp) :=
  [(t, .latOn cmd), (t + (w * tickQ : Nat), .latOff), (at', .act cmd)]

/-- A shift of a plane that begins at `t` (R278, R279). -/
def Chip.shiftPlane (c : Chip) (what : ShiftWhat) (t : Int) : List (Int × LineOp) :=
  [(t, .shift what c.laneBit c.chainBits), (t + (c.chainBits * c.laneBit : Nat), .shiftEnd)]

/-- A `LOAD` at `t` (R291), in double mode only (R311). -/
def Chip.loadPulse (c : Chip) (t : Int) : List (Int × LineOp) :=
  let w := c.get CHN_LATW0.LOAD_W
  if c.doubleLatch then latPulse .load w t (t + (w * tickQ : Nat)) else []

/-- A `TRANSFER` or `TEST` in the gap that begins at `t`: the drivers obey at its end in double mode, and at the end of the gap
in single mode, where the plane may still be shifting in when the pulse starts (R291, R292, log entry 134). -/
def Chip.takePulse (c : Chip) (cmd : LatCmd) (w : Nat) (t : Int) : List (Int × LineOp) :=
  latPulse cmd w t (t + (if c.doubleLatch then (w * tickQ : Nat) else (c.tGap : Nat)))

/-- The pulses of the planes of a window, the first of which lights at `a` (R291). -/
def Chip.pulses (c : Chip) : List Nat → Int → List (Int × LineOp)
  | [], _ => []
  | b :: bs, a =>
    c.takePulse .transfer (c.get CHN_LATW0.XFER_W) (a - c.tGap) ++ [(a, .oe true), (a + c.pulse b, .oe false)]
      ++ c.pulses bs (a + c.pulse b + c.tGap)

/-- The planes of the following window shift from `a` on, the start of a window. The first is loaded in the last `LAT_LEN` ticks
of its t_sh, once the buffer latch is free at `free`; the second likewise, once the transfer at the end of the window, whose
gap begins at `gap`, has emptied the latch (R291, R292). -/
def Chip.shiftNext (c : Chip) (what : List ShiftWhat) (a free gap : Int) : List (Int × LineOp) :=
  let lat : Int := (c.get SCN_TSET1.LAT_LEN * tickQ : Nat)
  let xfer : Int := (c.get CHN_LATW0.XFER_W * tickQ : Nat)
  let sh : Int := (c.tShift : Nat)
  match what with
  | [] => []
  | w :: rest =>
    c.shiftPlane w a ++ c.loadPulse (max (a + sh - lat) free) ++
      (match rest with
       | [] => []
       | v :: _ => c.shiftPlane v (a + sh) ++ c.loadPulse (max (a + 2 * sh - lat) (gap + xfer)))

/-- The image windows `ws` of a row slot, the first of which starts at `a`; `plane` is what a plane's shift carries, and `det`
the detection plane, which shifts in the last window (R290 to R292). -/
def Chip.windowEdges (c : Chip) (plane : Nat → ShiftWhat) (det : ShiftWhat) : List (List Nat) → List Int → Int → List (Int × LineOp)
  | [], _, _ => []
  | w :: ws, lens, a =>
    let stop := a + lens.headD 0
    let next := match ws with
      | [] => [det]
      | v :: _ => v.map plane
    let free := match w with
      | p :: _ :: _ => a + c.pulse p + (c.get CHN_LATW0.XFER_W * tickQ : Nat)
      | _ => a
    c.shiftNext next a free (stop - c.tGap) ++ c.pulses w a ++ c.windowEdges plane det ws lens.tail stop

/-- The shifts of the next row slot's first window, in the detection window that begins at `wd`; the row slot begins at `stop`
(R292, R297). -/
def Chip.nextRowEdges (c : Chip) (plane : Nat → ShiftWhat) (wd stop : Int) : List (Int × LineOp) :=
  c.shiftNext ((c.windows.headD []).map plane) wd (wd + (c.get CHN_LATW0.TEST_W * tickQ : Nat)) (stop + c.rowChange - c.tGap)

/-- The detection window of the tested row, from `wd` on (R318). -/
def Chip.testEdges (c : Chip) (wd : Int) : List (Int × LineOp) :=
  c.takePulse .test (c.get CHN_LATW0.TEST_W) wd
    ++ [(wd + c.tGap, .oe true), (wd + c.tGap + (c.get CHN_DET.DET_W * tickQ : Nat), .oe false)]

/-- The row change of a half at the start `t` of a row slot of row `r` (R293). The address changes while the row is off
(R286). -/
def Chip.rowChangeEdges (c : Chip) (r : Nat) (t : Int) : List (Int × LineOp) :=
  let ticks := fun (n : Nat) => t + ((n * tickQ : Nat) : Int)
  let dead := c.get SCN_ROWCHG.DEAD
  [(t, .rowOff r), (t, .dis true), (ticks (c.get SCN_ROWCHG2.DIS_LEN), .dis false),
   (ticks (dead - c.get SCN_ROWCHG2.PCHG_LEN), .pchg true), (ticks dead, .pchg false), (ticks dead, .rowOn)]

/-! Edges of the device. -/

/-- The halves that work, and their quads. -/
def Chip.liveHalves (c : Chip) : List Nat := [0, 1].filter c.halfLive
def Chip.liveQuads (c : Chip) : List Nat := (List.range 16).filter (fun q => c.halfLive (q / 8))

/-- The delay of quad `q` (R295). -/
def Chip.quadDelay (c : Chip) (q : Nat) : Int := (4 * (q * c.get SCN_OE.STAGGER) : Nat)

def onHalf (h : Nat) (l : List (Int × LineOp)) : List PlannedOp := l.map (fun e => ⟨e.1, h, e.2⟩)
def Chip.onQuad (c : Chip) (l : List (Int × LineOp)) (q : Nat) : List PlannedOp := l.map (fun e => ⟨e.1 + c.quadDelay q, q, e.2⟩)

/-- Whether sub-frame `k` of frame `n` will show a facet, under the fields that then apply, and which (R273, R299). -/
def Chip.facetAt (c : Chip) (n : Int) (k : Nat) : Option Nat := if c.showsFrame n then (c.viewAt n).owner k else none

/-- The row slot after row slot `r` of sub-frame `k` of frame `n`. -/
def Chip.slotAfter (c : Chip) (n : Int) (k r : Nat) : Int × Nat × Nat :=
  if r + 1 < c.rows then (n, k, r + 1) else if k + 1 < c.subframes then (n, k + 1, 0) else (n + 1, 0, 0)

/-- What the detection window of row slot `r` shifts for the row slot after it: nothing where that shows nothing. -/
def Chip.slotNextEdges (c : Chip) (n : Int) (k r : Nat) : List (Int × LineOp) :=
  let (n', k', r') := c.slotAfter n k r
  match c.facetAt n' k' with
  | some f => c.nextRowEdges (fun b => .plane n' k' f r' b) (c.slotQ n k r + c.wdStart) (c.slotQ n k (r + 1))
  | none => []

/-- The edges of a row slot that shows row `r` for facet `f`. -/
def Chip.slotEdges (c : Chip) (n : Int) (k f r : Nat) : List PlannedOp :=
  let t := c.slotQ n k r
  let image := c.windowEdges (fun b => .plane n k f r b) (.detect n k r) c.windows (c.windowLens c.windows) (t + c.rowChange)
  c.liveHalves.flatMap (fun h => onHalf h (c.rowChangeEdges r t))
    ++ c.liveQuads.flatMap (c.onQuad (image ++ c.slotNextEdges n k r))

/-- The edges of a row slot that shows nothing: in the last of a sub-frame the first planes of the next one may shift. -/
def Chip.blankSlotEdges (c : Chip) (n : Int) (k r : Nat) : List PlannedOp :=
  if r + 1 < c.rows then [] else c.liveQuads.flatMap (c.onQuad (c.slotNextEdges n k r))

/-! Sequences at the readback rate (R319, R325). -/

/-- A command `w` ticks wide, or a shift of `len` bits. -/
inductive SeqStep
  | cmd (c : LatCmd) (w : Nat)
  | shift (what : ShiftWhat) (len : Nat)

/-- The edges of a sequence from `t` on: a gap of t_x follows each step (R319). -/
def Chip.seqEdges (c : Chip) : List SeqStep → Int → List (Int × LineOp)
  | [], _ => []
  | .cmd m w :: l, t =>
    let stop := t + (w * tickQ : Nat)
    latPulse m w t stop ++ c.seqEdges l (stop + c.tGap)
  | .shift what len :: l, t =>
    let stop := t + (len * c.readBit : Nat)
    [(t, .shift what c.readBit len), (stop, .shiftEnd)] ++ c.seqEdges l (stop + c.tGap)

/-- Every enabled configuration word in ascending order, each with its command (R325). -/
def Chip.configSteps (c : Chip) : List SeqStep :=
  ((List.range 4).filter (fun w => c.bit (CHN_CFGw.EN w))).flatMap (fun w =>
    [.shift (.config (c.get (CHN_CFGw.WORD w))) c.chainBits, .cmd (.config w) (c.get (CHN_CFGw.CMD_W w))])

/-- The steps of a readback window (R319): the last readout carries the chain check. -/
def Chip.readbackSteps (c : Chip) : List SeqStep :=
  let tests := c.get CHN_CTRL.TESTS
  let last := SeqStep.shift .marker (c.chainBits + 16)
  (if tests.testBit 0 then
      [.cmd .copyOpen (c.get CHN_LATW0.COPY_OPEN_W), if tests.testBit 1 then .shift .zeros c.chainBits else last] else [])
    ++ (if tests.testBit 1 then [.cmd .copyShort (c.get CHN_LATW1.COPY_SHORT_W), last] else [])
    ++ (if c.bit CHN_CTRL.CFG_REFRESH then c.configSteps else [])

/-- A sequence starts on every quad at `t`, or once what a quad has still to do is done (log entry 135). -/
def Chip.planSeq (c : Chip) (steps : List SeqStep) (t : Int) : Chip :=
  let busy := fun (q : Nat) => (c.scan.lines.plan.filter (fun o => match o.op with
    | .shift .. | .shiftEnd | .latOn _ | .latOff | .act _ => o.unit == q
    | _ => false)).map (fun o => o.due - c.quadDelay q + (c.tGap : Nat))
  c.planEdges (c.liveQuads.flatMap (fun q => c.onQuad (c.seqEdges steps ((busy q).foldl max t)) q))

/-! Driver configuration (R325, R326). -/

/-- R325: an opportunity at the instant `t` to write the enabled configuration words. -/
def Chip.writeConfig (c : Chip) (t : Int) : Chip := (c.planSeq c.configSteps t).bump (chnCnt 0x28) 1

/-- R325: a write of 1 to `CFG_NOW`. -/
def Chip.cfgNow (c : Chip) : Chip := if c.st = .stopped then (c.writeConfig (toQ c.now)).ok else c.ans .busy []

/-! The levels at the balls (R286, R294, R302, R310, R508). -/

/-- A ball: high impedance, or driven. -/
inductive Ball
  | hiZ
  | driven (high : Bool)
  deriving DecidableEq, Repr

/-- A ball of the drivers: high impedance until the image has applied the polarity fields, driven from then on (R508). -/
def Chip.ball (c : Chip) (high : Bool) : Ball :=
  if c.power.outputsDriven then .driven high else .hiZ

/-- An output that is active at the level `pol`. -/
def Chip.activeBall (c : Chip) (pol : Fld) (active : Bool) : Ball := c.ball (active == c.bit pol)

def Chip.halfLines (c : Chip) (h : Nat) : HalfLines := if c.halfLive h then c.scan.lines.halves.getD h .idle else .idle
def Chip.quadLines (c : Chip) (q : Nat) : QuadLines := if c.quadHeld q then .idle else c.scan.lines.quads.getD q .idle

/-- ROW_x`i` of half `h`: in direct mode line i serves row i; in encoded mode lines 0 to 5 carry the address, and line 6 is the
enable (R286). Address lines follow `ROW_POL` as the others do (log entry 136). -/
def Chip.rowBall (c : Chip) (h i : Nat) : Ball :=
  let l := c.halfLines h
  c.activeBall (SCN_x_CFG.ROW_POL h)
    (if c.bit SCN_TSET0.ROW_MODE then (if i < 6 then l.row.testBit i else i == 6 && l.rowOn) else l.rowOn && l.row == i)

def Chip.pchgBall (c : Chip) (h : Nat) : Ball := c.activeBall (SCN_x_CFG.PCHG_POL h) (c.halfLines h).pchg
def Chip.disBall (c : Chip) (h : Nat) : Ball := c.activeBall (SCN_x_CFG.DIS_POL h) (c.halfLines h).dis

/-- OEqq gates the four lanes of quad `q` (R295). -/
def Chip.oeBall (c : Chip) (q : Nat) : Ball := c.activeBall (SCN_x_CFG.OE_POL (q / 8)) (c.quadLines q).oe
def Chip.latBall (c : Chip) (q : Nat) : Ball := c.activeBall CHN_CTRL.LAT_POL (c.quadLines q).lat.isSome

/-- The edges of SCLK that a shift has made by `t`: one for each bit, in the middle of the bit on DL (R310). -/
def ShiftRun.edges (r : ShiftRun) (t : Int) : Nat := min r.len ((2 * (t - r.start) + r.bit) / (2 * r.bit)).toNat

/-- SCLKqq at `t`: low whenever no bits are shifted, and each edge shifts one bit (R310). -/
def Chip.sclkBall (c : Chip) (q : Nat) (t : Int) : Ball :=
  c.ball (match (c.quadLines q).shift with
    | some r => r.edges t % 2 == 1
    | none => false)

/-- DLxx at `t` (R310). -/
def Chip.dataBall (c : Chip) (l : Nat) (t : Int) : Ball :=
  c.ball (c.laneOn l && match (c.quadLines (l / 4)).shift with
    | some r =>
      let i := ((t - r.start) / r.bit).toNat
      decide (i < r.len) && (r.data.getD (l % 4) 0).testBit (r.len - 1 - i)
    | none => false)

/-- s_i of R315: the instant of sample `i` of a readout whose first edge is at `e0`. -/
def Chip.sampleAt (c : Chip) (e0 : Int) (i : Nat) : Int :=
  e0 - c.readBit / 2 + (i * c.readBit : Nat) + (c.get CHN_RB.RB_DELAY * tickQ : Nat)

end Sys2Proof.Machine
end

