-- ==== Sys2Proof/Machine/Scan.lean ====
section
/-!
DEFINITION. The scan engines (R288 to R308): sub-frames, rows, staging buffers, the release of sub-frame items, and the
lock frame.
-/

namespace Sys2Proof.Machine

open Sys2Proof

/-! Instants of a frame (R288, R297), in 2^-16 ns. -/

/-- The start of row slot `r` of sub-frame `k` of frame `n`, computed at once from them and rounded to the nearest 0.1 ns
(R104, R288); `r` may be -1. -/
def Chip.rowStart (c : Chip) (n : Int) (k : Nat) (r : Int) : Int :=
  from10 (c.instant10 n ((k : Int) * (c.rows : Int) + r) (c.subframes * c.rows))

/-- An interval in units of 0.025 ns as 2^-16 ns. -/
def fromQ (q : Int) : Int := q * 65536 / 40

/-- r0 of R297: the lowest scan row that holds a pixel of strip `s`; 0 for a strip without driven pixels. -/
def Chip.firstRow (c : Chip) (f s : Nat) : Nat :=
  let rect := c.stripRect f s
  let h := c.stripHalf f s
  ((List.range c.rows).find? (fun r => (List.range 32).any (fun i =>
    let l := 32 * h + i
    let y := c.laneRow l r
    decide (rect.2.1 ≤ y ∧ y < rect.2.1 + rect.2.2.2) && !(c.laneCols l).isEmpty))).getD 0

/-- The deadline of a strip (R297). -/
def Chip.stripDue (c : Chip) (n : Int) (k f s : Nat) : Int :=
  c.rowStart n k ((c.firstRow f s : Int) - 1) + fromQ c.wdStart

/-- The deadline of a DETECT item (R297). -/
def Chip.detDue (c : Chip) (n : Int) (k : Nat) : Int := c.rowStart n k 0 + fromQ c.lastWin

/-! Releases (R222, R223, R242). -/

/-- What feed `f` shows in frame `n`. -/
def Chip.shownIn (c : Chip) (f : Nat) (n : Int) : Show :=
  if c.frameNow < n then
    match (c.feed f).decided with
    | some (_, e) => e
    | none => (c.feed f).cur
  else (c.feed f).cur

/-- The buffer code of a shown source: a ring slot, 16 + still, or 31 for black. -/
def showBuffer : Show → Nat
  | .live s _ | .rewind s _ => s
  | .fbStill v | .still v => 16 + v
  | _ => 31

/-- j of R269: the place of sub-frame `k` among its facet's. -/
def Chip.ditherIndex (c : Chip) (f k : Nat) : Nat := popCount (c.facetMask f) k

/-- The DITHER and TRANSPOSE items of one strip (R221, R228). -/
def Chip.stripPair (c v : Chip) (n : Int) (k f s : Nat) : Chip :=
  let src := showBuffer (c.shownIn f n)
  let due := v.stripDue n k f s
  let cor := c.sched.items.find? (fun i => i.type == .correct && i.feed == f && i.buffer == src && i.strip == s && i.cancel.isNone)
  let m := if v.bit COL_CTRL.DITHER_EN then v.ditherM f else 0
  let j := if c.bit SCH_STATUS.SHED_ACTIVE then 0 else v.ditherIndex f k
  let base := blankItem .dither f n k s src due
  let (c, a) := c.makeItem { base with
    counter := if cor.isSome then 1 else 0, waits := (cor.map (·.slot)).toList, scale := c.scaleCode f, dith := (j, m) }
  match a with
  | none => c
  | some a =>
    let base := blankItem .transpose f n k s (v.bufferOf n k) due
    (c.makeItem { base with counter := 1, waits := [a] }).1

/-- R316, R317: the DETECT items of a detection slot. -/
def Chip.detectItems (c v : Chip) (n : Int) (k f : Nat) : Chip :=
  [0, 1].foldl (fun c h =>
    if c.halfLive h then (c.makeItem (blankItem .detect f n k h (v.bufferOf n k) (v.detDue n k))).1 else c) c

/-- R223, R242: the items of sub-frame `k` of frame `n` are made, once its staging buffer is free and the freeze point
that decides frame `n` has passed. -/
def Chip.subframeRelease (c : Chip) (n : Int) (k : Nat) : Chip :=
  let v := c.viewAt n
  let b := v.bufferOf n k
  if !(c.showsFrame n && c.frozen n && c.scan.freed.getD b false && decide (k < v.subframes)) then c
  else
    let c := c.setScan { c.scan with freed := c.scan.freed.set b false }
    match v.owner k with
    | none => c
    | some f =>
      let st := c.staging b
      let same := match st.holds with | some (m, _, g) => m == n && g == f | none => false
      let reuse := c.bit SCH_STATUS.SHED_ACTIVE && same
      let c := if reuse then c
        else
          let c := c.setStaging b { Staging.start with holds := some (n, k, f) }
          (List.range (v.stripCount f)).foldl (fun c s => c.stripPair v n k f s) c
      let c := c.setStaging b { c.staging b with det := [none, none] }
      if c.detSlot n = some k then c.detectItems v n k f else c

/-- R296: at `WD_START` of the last row slot of sub-frame `k` of frame `n`, its staging buffer is freed. -/
def Chip.stagingFree (c : Chip) (n : Int) (k : Nat) : Chip :=
  if decide (k < c.subframes) then c.setScan { c.scan with freed := c.scan.freed.set (c.bufferOf n k) true } else c

/-! Sub-frames and rows (R288 to R299, R309). -/

/-- Whether sub-frame `k` of frame `n` shows a facet. -/
def Chip.subShown (c : Chip) (n : Int) (k : Nat) : Bool :=
  c.showsFrame n && c.scan.display == .showing && (c.owner k).isSome

/-- The counters of a half at a sub-frame edge (R309). -/
def Chip.countSub (c : Chip) (n : Int) (k h : Nat) : Chip :=
  if c.subShown n k then (if c.halfLive h then c.bump (scanCnt h 0x00) 1 else c)
  else if c.displays then c.bump (scanCnt h 0x08) 1
  else c

/-- R105, R299: a sub-frame edge: the engines begin the sub-frame. In a detection slot both halves wait for their result
(R316, R321). -/
def Chip.subframeEdge (c : Chip) (n : Int) (k : Nat) : Chip :=
  if c.timeValid && decide (k < c.subframes) then
    let det := c.subShown n k && c.detSlot n == some k
    let c := c.setScan { c.scan with
      sub := some (n, k), rowOn := none, lanes := [], starved := c.scan.starved.filter (fun e => decide (n - 1 ≤ e.1)),
      tests := if det then c.scan.tests ++ [(n, k, 0, none), (n, k, 1, none)] else c.scan.tests }
    (c.countSub n k 0).countSub n k 1
  else c

/-- A row slot that shows nothing (R299): the row of the slot before it turns off. -/
def Chip.blankSlot (c : Chip) (n : Int) (k r : Nat) : Chip :=
  let c := c.setScan { c.scan with rowOn := none, lanes := [] }
  c.planEdges (c.liveHalves.flatMap (fun h => onHalf h [(c.slotQ n k r, .rowOff 0)]) ++ c.blankSlotEdges n k r)

/-- R293, R299: row slot `r` of a sub-frame begins. What was planned up to its start takes place. Where the sub-frame shows a
facet, row `r` is the row of the slot, every lane of a half that works carries its codes, those of a lane that is disabled or
fenced being 0 (R283, R302), and the edges of the slot are planned (R291 to R295). -/
def Chip.rowSlotStart (c : Chip) (n : Int) (k r : Nat) : Chip :=
  if c.timeValid && decide (k < c.subframes) && decide (r < c.rows) then
    let c := c.edgesTo (c.slotQ n k r)
    match c.owner k with
    | some f =>
      if c.subShown n k && (c.halfLive 0 || c.halfLive 1) then
        let on := allLanes.filter (fun l => c.halfLive (laneHalf l))
        let zeros := List.replicate c.chainBits 0
        let c := c.setScan { c.scan with
          rowOn := some r, lanes := on.map (fun l => (l, if c.laneOn l then c.laneCodes n k f l r else zeros)) }
        c.planEdges (c.slotEdges n k f r)
      else c.blankSlot n k r
    | none => c.blankSlot n k r
  else c

/-! The lock frame (R303). -/

/-- R303: the lock frame starts at boundary `n`: blank, with every ring restarted. Without the tile role the outputs stay
blank (R2, R511). -/
def Chip.lockFrame (c : Chip) (n : Int) : Chip :=
  if c.scan.display == .waitLock && c.timeValid && c.displays && c.bit (ID_ROLES.ROLES.bit 0) then
    let c := c.setDisplay (.blankUntil (n + 1))
    let c := c.setScan { c.scan with stg := [Staging.start, Staging.start], freed := [true, true], starved := [] }
    let c := (c.raiseScan SCN_x_EVENT.RELOCK 0 3).raiseScan SCN_x_EVENT.RELOCK 1 3
    let c := c.writeConfig (4 * c.edge10 n 0)
    let c := (List.range 4).foldl (fun c f => if c.facetEn f then c.restartRing f else c) c
    (List.range 4).foldl (fun c f => c.assignAt f n) c
  else c

end Sys2Proof.Machine
end

