-- ==== Sys2Proof/Machine/Chains.lean ====
section
/-!
DEFINITION. Driver chains, lamps and faults (R310 to R333): detection and readback windows, the fault list, and the
temperature readings of sensors and NTCs.
-/

namespace Sys2Proof.Machine

open Sys2Proof

/-- `RB_NEED` and `RB_READY` (R316, R319). -/
def Chip.showChain (c : Chip) : Chip :=
  (c.putFit CHN_RB_NEED.RB_NEED (tenths c.rbNeed)).putB CHN_STATUS.RB_READY c.rbReady

/-! Detection (R318, R321). -/

/-- R318: the detection window of the tested row of half `h`: `TEST`, the detection pulse, and the drivers capture their
flags. -/
def Chip.detectionWindow (c : Chip) (n : Int) (k h : Nat) : Chip :=
  if h < 2 ∧ c.subShown n k = true ∧ c.halfLive h = true ∧ c.detSlot n = some k then
    match (c.staging (c.bufferOf n k)).det.getD h none with
    | some row =>
      let c := c.setScan { c.scan with tests := c.scan.tests.filter (fun t => !(t.2.2.1 == h)) ++ [(n, k, h, some row)] }
      c.planEdges ((c.liveQuads.filter (fun q => q / 8 == h)).flatMap (c.onQuad (c.testEdges (c.slotQ n k row + c.wdStart))))
    | none => c
  else c

/-- Whether the engines are blank in frame `n` in a lock frame or for a timing set. -/
def Chip.blankFrame (c : Chip) (n : Int) : Bool :=
  match c.scan.display with
  | .blankUntil a => decide (n < a)
  | _ => false

/-- R316: whether sub-frame `k` of frame `n` is a readback window: unowned, or in a frame that shows nothing. -/
def Chip.readbackSub (c : Chip) (n : Int) (k : Nat) : Bool :=
  c.timeValid && decide (k < c.subframes) && (c.blankFrame n || (c.showsFrame n && (c.owner k).isNone))

/-- R319, R325: a readback window runs its sequence from E_n,k; with `CFG_REFRESH` it writes the configuration words. -/
def Chip.readbackWindow (c : Chip) (n : Int) (k : Nat) : Chip :=
  if c.readbackSub n k then
    let c := c.planSeq c.readbackSteps (4 * c.edge10 n k)
    if c.bit CHN_CTRL.CFG_REFRESH then c.bump (chnCnt 0x28) 1 else c
  else c

/-! The fault list (R323, R324). -/

def Chip.setFaults (c : Chip) (l : List (Nat × FaultEntry)) : Chip :=
  let c := c.setChains { c.chains with faults := l }
  (c.put CHN_FMAP_STAT.FMAP_COUNT l.length).put CHN_FMAP_STAT.FMAP_GEN ((c.get CHN_FMAP_STAT.FMAP_GEN + 1) % 2 ^ 16)

/-- R323: one flag of one judged position. -/
def Chip.judgeFlag (c : Chip) (lane row pos x ch : Nat) (short flag : Bool) : Chip :=
  let l := c.chains.faults
  let limit := max 1 (c.get CHN_CTRL.CONFIRM)
  match l.find? (fun e => e.2.lane == lane && e.2.row == row && e.2.pos == pos && e.2.short == short) with
  | none =>
    if !flag then c
    else match (List.range 4096).find? (fun s => !l.any (fun e => e.1 == s)) with
      | none => (c.bump (chnCnt 0x20) 1).raiseChain 2 0
      | some s =>
        let confirmed := decide (limit ≤ 1)
        let e : FaultEntry := ⟨lane, row, pos, short, confirmed, 1, x, c.laneRow lane row, ch⟩
        let c := c.setFaults (smInsert l s e)
        if confirmed then (c.bump (chnCnt 0x18) 1).raiseChain 0 s else c
  | some (s, e) =>
    if flag then
      let n := min 15 (e.count + 1)
      let confirmed := e.confirmed || decide (limit ≤ n)
      if n = e.count ∧ confirmed = e.confirmed then c
      else
        let c := c.setFaults (smInsert l s { e with count := n, confirmed := confirmed })
        if confirmed && !e.confirmed then (c.bump (chnCnt 0x18) 1).raiseChain 0 s else c
    else if e.confirmed then c
    else c.setFaults (smErase l s)

/-- The two words of a fault list slot (R324). -/
def Chip.faultWords (c : Chip) (i : Nat) : List Nat :=
  match c.chains.faults.find? (fun e => e.1 == i) with
  | none => [0, 0]
  | some (_, e) =>
    [e.lane + e.row * 2 ^ 6 + e.pos * 2 ^ 12 + (if e.short then 2 ^ 22 else 0) + (if e.confirmed then 2 ^ 23 else 0)
       + e.count * 2 ^ 24 + 2 ^ 31,
     e.x + e.y * 2 ^ 12 + e.ch * 2 ^ 24]

/-- R324: word 0 of `CHN_FMAPi` is read: a snapshot of both words. -/
def Chip.fmapRead (c : Chip) (i : Nat) : Chip := c.putWords (0x91000 + 8 * i) (c.faultWords i)

/-- R323: a write of 1 to `FMAP_CLEAR`. -/
def Chip.fmapClear (c : Chip) : Chip := if c.chains.faults.isEmpty then c else c.setFaults []

/-! Readback (R320 to R323). -/

/-- R320: whether the bits after the flags of the longer readout, the last, equal `MARKER`, bit 15 first. -/
def Chip.markerOk (c : Chip) (r : LaneRead) : Bool :=
  let bits := if (c.get CHN_CTRL.TESTS).testBit 1 then r.shortBits else r.openBits
  (List.range 16).all (fun i => bits.testBit (c.chainBits + i) == (c.get CHN_RB.MARKER).testBit (15 - i))

/-- R320: the flag of position `j` in a readout, whose sample i is bit i. -/
def Chip.flagAt (c : Chip) (bits j : Nat) : Bool := bits.testBit (c.chainBits - 1 - j)

/-- R320: the chain check of a lane. -/
def Chip.chainCheck (c : Chip) (r : LaneRead) : Chip :=
  let f := (CHN_CHAIN_OK.CHAIN_OK (r.lane / 32)).bit (r.lane % 32)
  if c.markerOk r then c.put f 1 else ((c.put f 0).bump (chnCnt 0x10) 1).raiseChain 1 r.lane

/-- R323: the flags of one lane whose check passed, of the tested row. -/
def Chip.judgeLane (c : Chip) (row : Nat) (r : LaneRead) : Chip :=
  let tests := c.get CHN_CTRL.TESTS
  (List.range (16 * c.drivers)).foldl (fun c j =>
    match c.laneCol r.lane j with
    | none => c
    | some (x, ch) =>
      let c := if tests.testBit 0 then c.judgeFlag r.lane row j x ch false (c.flagAt r.openBits j) else c
      if tests.testBit 1 then c.judgeFlag r.lane row j x ch true (c.flagAt r.shortBits j) else c) c

/-- R321: half `h` after a detection slot: its flags are applied and its tested row advances, or the slot is skipped. -/
def Chip.finishDetection (c : Chip) (h : Nat) (row : Option Nat) (blank : Bool) (reads : List LaneRead) : Chip :=
  match blank || !c.halfLive h, row with
  | false, some row =>
    let c := (reads.filter (fun r => c.markerOk r && laneHalf r.lane == h)).foldl (fun c r => c.judgeLane row r) c
    let c := c.bump (chnCnt 0x00) 1
    c.put (if h = 0 then CHN_STATUS.DET_ROW_A else CHN_STATUS.DET_ROW_B) ((row + 1) % max 1 c.rows)
  | _, _ => c.skipDetection

/-- R320 to R323: a readback window's sequence has ended with what the lanes returned. -/
def Chip.readbackDone (c : Chip) (n : Int) (k : Nat) (reads : List LaneRead) : Chip :=
  if !c.readbackSub n k then c
  else
    let reads := if c.get CHN_CTRL.TESTS = 0 then []
      else reads.filter (fun r => decide (r.lane < 64) && c.laneOn r.lane && c.halfLive (laneHalf r.lane))
    let c := reads.foldl (fun c r => c.chainCheck r) c
    let (n', k') := if k = 0 then (n - 1, c.subframes - 1) else (n, k - 1)
    let blank := c.blankFrame n
    let slot := c.scan.tests.filter (fun t => t.1 == n' && t.2.1 == k')
    let c := slot.foldl (fun c t => c.finishDetection t.2.2.1 t.2.2.2 blank reads) c
    c.setScan { c.scan with tests := c.scan.tests.filter (fun t => !(t.1 == n' && t.2.1 == k')) }

/-! Temperatures (R327 to R330). -/

/-- Whether a boundary FIFO is fenced alone (R439). -/
def Chip.fifoFenced (c : Chip) (i : Nat) : Bool := c.errs.fifos.contains i

/-- The FIFO of the bus of a sensor slot. -/
def busFifo (s : Nat) : Nat := if s < 8 then 24 else 25

/-- A valid reading of a sensor slot or NTC input: `src` numbers them as the zone sources do, slots 8 to 11 of I2C1
excepted (R327, R328). -/
def Chip.goodTemp (c : Chip) (temp valid : Fld) (t : Int) (src : Option Nat) : Chip :=
  let c := (c.putS temp t).put valid 1
  match src with
  | some s => c.sourceRead s t
  | none => c

/-- R328: an invalid reading of sensor slot `s`. -/
def Chip.badSensor (c : Chip) (s : Nat) : Chip :=
  ((c.put (CHN_TEMPs.VALID s) 0).bump (chnCnt 0x30) 1).raiseChain 4 s

/-- The I2C bus of a sensor slot (R327). -/
def busOf (s : Nat) : Nat := if s < 8 then 0 else 1

/-- R329: SDA of the bus of slot `s` is still low at the start of a transfer, after 9 clocks and a stop: every slot of the bus
counts an invalid reading, and the bus is tried again at the next poll. A bus on which no transfer is due is left alone. -/
def Chip.stuckBus (c : Chip) (s : Nat) : Chip :=
  if c.chains.polling.any (fun t => busOf t == busOf s) then
    let c := c.setChains { c.chains with polling := c.chains.polling.filter (fun t => busOf t != busOf s) }
    (((List.range 12).filter (fun t => busOf t == busOf s)).foldl (fun c t => c.badSensor t) c).raiseChain 6 0
  else c

/-- R327, R329: a poll begins; `stuck0` and `stuck1` tell whether SDA of a bus is still low at its first transfer. -/
def Chip.sensorPoll (c : Chip) (stuck0 stuck1 : Bool) : Chip :=
  let c := c.setChains { c.chains with polling := (List.range 12).filter (fun s => c.bit (CHN_SENSs.EN s)) }
  let c := if stuck0 then c.stuckBus 0 else c
  if stuck1 then c.stuckBus 8 else c

/-- R327: the temperature code of a raw value. -/
def sensorCode (fmt v : Nat) : Int :=
  match fmt with
  | 1 => signedMod 16 v / 8
  | 2 => signedMod 8 v * 16
  | _ => signedMod 16 v / 16

/-- R328, R329: the read of the next polled slot ends. A value that a fenced FIFO would carry does not arrive. -/
def Chip.sensorRead (c : Chip) (s : Nat) (x : SensorRead) : Chip :=
  if c.chains.polling.head? ≠ some s then c
  else
    let d := c.setChains { c.chains with polling := c.chains.polling.drop 1 }
    match (if c.fifoFenced (busFifo s) && x != .stuck then .noAck else x) with
    | .stuck => c.stuckBus s
    | .noAck => d.badSensor s
    | .value v =>
      let c := d
      let t := sensorCode (c.get (CHN_SENSs.FMT s)) v
      if -640 ≤ t ∧ t ≤ 2400 then
        let c := c.setChains { c.chains with sensedAt := c.chains.sensedAt.set s (some c.time.c.toNat) }
        c.goodTemp (CHN_TEMPs.TEMP s) (CHN_TEMPs.VALID s) t (if s < 8 then some s else none)
      else c.badSensor s

/-- R330: the temperature code of an NTC at mean code `n`; `none` outside every range. Where the pull-up is 0 the manual
states no logarithm, and `free` stands for the result. -/
def Chip.ntcCode (c : Chip) (a n free : Nat) : Option Int :=
  let rho : Rat := (c.get (CHN_NTCa_CFG1.PULLUP a) : Rat) * n / ((4095 - n : Nat) : Rat)
  if rho = 0 then some ((free % 65536 : Nat) - 32768)
  else
    let inv := (20 : Rat) / 5963
      + lnQ (rho / (max 1 (c.get (CHN_NTCa_CFG0.NTC_RNOM a)) : Nat)) / (max 1 (c.get (CHN_NTCa_CFG0.NTC_BETA a)) : Nat)
    if inv ≤ 0 then none else some (roundQ ((1 / inv - 5463 / 20) * 16))

def Chip.setAdc (c : Chip) (ofs : Int) (gain : Nat) : Chip := (c.putS CAL_ADC.ADC_OFS ofs).put CAL_ADC.ADC_GAIN gain

/-- R498: interpolated ADC values come into force at a conversion. -/
def Chip.takeAdc (c : Chip) : Chip :=
  match c.calib.adcTo with
  | some (a, g) => (c.setAdc a g).setCalib { c.calib with adcTo := none }
  | none => c

/-- R330: the 16 conversions of an NTC input end with the mean code `n`. -/
def Chip.ntcConversion (c : Chip) (a n : Nat) : Chip :=
  if a < 4 ∧ c.bit (CHN_NTCa_CFG1.NTC_EN a) = true then
    let (c, d) := c.takeAdc.draw
    let c := c.put (CHN_NTC_TEMPa.CODE a) n
    let t := if n < 16 ∨ 4079 < n ∨ c.fifoFenced 26 = true then none else c.ntcCode a n (Config.choice d)
    let bad := fun (c : Chip) => ((c.put (CHN_NTC_TEMPa.VALID a) 0).bump (chnCnt 0x38) 1).raiseChain 5 a
    match t with
    | some t => if -640 ≤ t ∧ t ≤ 2400 then
        c.goodTemp (CHN_NTC_TEMPa.TEMP a) (CHN_NTC_TEMPa.VALID a) t (some (8 + a)) else bad c
    | none => bad c
  else c

end Sys2Proof.Machine
end

