-- ==== Sys2Proof/Machine/Errors.lean ====
section
/-!
DEFINITION. Errors and degraded operation (R438 to R465): units, detection, the handler slots, fences, and the error log.
Gating is in Gate.lean.
-/

namespace Sys2Proof.Machine

open Sys2Proof

/-! Units (R438, R439). -/

/-- The number of units of each class of R438. -/
def classSize : Nat → Nat
  | 0x0 => 64 | 0x1 => 64 | 0x2 => 512 | 0x3 => 4 | 0x4 => 27 | 0x8 => 16 | 0x9 => 2 | 0xA => 2 | 0xB => 6 | 0xC => 4
  | 0xF => 3 | _ => 0

def unitClass (u : Nat) : Nat := u / 2 ^ 12
def unitIndex (u : Nat) : Nat := u % 2 ^ 12

/-- Whether a number names a unit. -/
def isUnit (u : Nat) : Bool := decide (unitIndex u < classSize (unitClass u))

/-- The level of a unit (R438). -/
def unitLevel (u : Nat) : Nat :=
  if unitClass u < 8 then 0 else if unitClass u < 0xC then 1 else if unitClass u < 0xF then 2 else 3

/-- R439: blocks 0xB001 to 0xB004 and the chip units cannot be fenced. -/
def essential (u : Nat) : Bool := unitClass u == 0xF || (decide (0xB001 ≤ u) && decide (u ≤ 0xB004))

/-- R439: the units that a fence of `u` fences: those a boundary FIFO or a MAC channel serves, else `u` alone. -/
def served (u : Nat) : List Nat :=
  let i := unitIndex u
  if unitClass u = 3 then [0xA000 + i / 2]
  else if unitClass u = 4 then
    if i < 2 then [0xA000 + i]
    else if i < 18 then (List.range 4).map (fun k => 0x1000 + 4 * (i - 2) + k)
    else if i < 20 then [0x9000 + (i - 18)]
    else match i with
      | 20 => [0xB002]
      | 21 => [0xB000]
      | 22 => [0xB005]
      | 23 => [0xF001]
      | _ => [u]
  else [u]

/-- Whether unit `u` lies in unit `v`, or is it (R21, R438). -/
def within (u v : Nat) : Bool :=
  u == v || (match unitClass v, unitClass u with
    | 0x8, 0x0 => unitIndex u / 4 == unitIndex v
    | 0x9, 0x1 => unitIndex u / 32 == unitIndex v
    | 0xC, 0x0 => unitIndex u / 16 == unitIndex v
    | 0xC, 0x1 => unitIndex u / 16 == unitIndex v
    | 0xC, 0x8 => unitIndex u / 4 == unitIndex v
    | _, _ => false)

/-- Whether a unit that fences name is fenced. -/
def Chip.fencedOne (c : Chip) (u : Nat) : Bool :=
  let i := unitIndex u
  match unitClass u with
  | 0x0 => !c.coreUnfenced i
  | 0x1 => c.laneFenced i
  | 0x2 => c.bit ((ERR_FENCE_CTX.CTX_FENCED (i / 32)).bit (i % 32))
  | 0x4 => c.fifoFenced i
  | 0x8 => c.bit (ERR_FENCE_BLOCK.CLUSTER_FENCED.bit i) || c.bit (ERR_FENCE_BLOCK.REGION_FENCED.bit (i / 4))
  | 0x9 => c.bit (ERR_FENCE_BLOCK.HALF_FENCED.bit i)
  | 0xA => c.bit (ERR_FENCE_BLOCK.PORT_FENCED.bit i)
  | 0xB => if i = 0 then c.bit ERR_FENCE_BLOCK.BRIDGE_FENCED else i == 5 && c.bit ERR_FENCE_BLOCK.HOSTPORT_FENCED
  | 0xC => c.bit (ERR_FENCE_BLOCK.REGION_FENCED.bit i)
  | _ => false

/-- Whether unit `u` is fenced: every unit that it serves is. -/
def Chip.unitFenced (c : Chip) (u : Nat) : Bool := (served u).all c.fencedOne

/-! Containment (R440). -/

/-- The containments of R440. -/
inductive Contain
  | none | poison | fence | lanes | acquire | restart | blank | reset
  deriving DecidableEq, Repr

/-- The containment of an error code. A stall that repeats within 1 s is fenced (`job` decides). -/
def containment (code : Nat) : Contain :=
  if code = 0x0101 ∨ code = 0x0103 ∨ code = 0x0107 ∨ code = 0x0408 then .none
  else if code = 0x0102 then .poison
  else if code = 0x0108 then .acquire
  else if code = 0x0202 then .restart
  else if code = 0x0304 then .lanes
  else if code = 0x0403 then .blank
  else if 0x0401 ≤ code then .reset
  else .fence

/-- The containment of a job: `detail` of a stall's job marks the second within 1 s. -/
def ErrJob.contain (j : ErrJob) : Contain :=
  if j.code = 0x0202 ∧ j.detail = 1 then .fence else containment j.code

/-- The units that the containment of a job fences. -/
def ErrJob.targets (j : ErrJob) : List Nat :=
  match j.contain with
  | .fence => served j.unit
  | .lanes => (List.range 16).map (fun k => 0x1000 + 16 * unitIndex j.unit + k)
  | _ => []

/-- The jobs that are handled or wait. -/
def Errs.jobs (e : Errs) : List ErrJob := e.slots.filterMap (fun s => s) ++ e.waiting.flatten

/-- R449: whether a fence of `u` has begun or is pending. -/
def Chip.fencePending (c : Chip) (u : Nat) : Bool :=
  c.errs.jobs.any (fun j => (served u).all (fun v => j.targets.any (within v)))

/-! Handler slots (R445 to R449). -/

/-- `HANDLER_BUSY`. -/
def Chip.showHandlers (c : Chip) : Chip :=
  c.put ERR_STATUS.HANDLER_BUSY
    ((c.errs.slots.zipIdx.map (fun s => if s.1.isSome then 2 ^ s.2 else 0)).sum)

/-- The entry of a job, with its flags. -/
def jobEntry (j : ErrJob) (sec esc waited : Bool) (o : ErrOutcome) : LogEntry :=
  let base := plainEntry j.code j.unit (if j.code = 0x0202 then 0 else j.detail) o
  { base with secondary := sec, escalated := esc, waited := waited }

/-- R446: the handler of level `lv` takes the job. -/
def Chip.takeSlot (c : Chip) (lv : Nat) (j : ErrJob) : Chip :=
  (c.setErrs { c.errs with slots := c.errs.slots.set lv (some { j with atLevel := lv }) }).showHandlers

/-- R447: the order of a pending list: severity, highest first, then detection. -/
def insertJob (j : ErrJob) : List ErrJob → List ErrJob
  | [] => [j]
  | x :: l => if x.severity < j.severity then j :: x :: l else x :: insertJob j l

/-- R448: an error escalates beyond the chip. -/
def Chip.escalateTop (c : Chip) (j : ErrJob) : Chip :=
  let c := c.writeLog (plainEntry 0x0407 j.unit 0 .reset)
  let c := c.writeLog (jobEntry j true true false .reset)
  c.blankOutputs.takeReset causeFatal

/-- R447: an error seeks a slot from level `4 - n` upward. -/
def Chip.seekSlot : Nat → Chip → ErrJob → Bool → Bool → Chip
  | 0, c, j, _, _ => c.escalateTop j
  | n + 1, c, j, sec, esc =>
    let lv := 3 - n
    let j := { j with logSeq := c.errs.nextSeq }
    match c.errs.slots.getD lv none with
    | none => (c.writeLog (jobEntry j sec esc false .none)).takeSlot lv j
    | some cur =>
      let wait := c.errs.waiting.getD lv []
      if cur.severity < j.severity then seekSlot n (c.bump (errCnt 0x10) 1) j true true
      else if wait.length < 8 then
        let c := c.writeLog (jobEntry j true esc true .none)
        c.setErrs { c.errs with waiting := c.errs.waiting.set lv (insertJob j wait) }
      else seekSlot n ((c.raiseErr 2).bump (errCnt 0x10) 1) j true true

/-- One second in ticks. -/
def secTicks : Nat := 800000000

/-- R440, R445, R449, R450: an error of code `code` is detected in unit `unit`. -/
def Chip.detect (c : Chip) (code unit detail : Nat) : Chip :=
  if !isUnit unit || c.unitFenced unit then c
  else
    let c := if code = 0x0101 then c.bump (errCnt 0x30) 1
      else if code = 0x0103 then c.bump (feedCnt 0 0x20) 1 else c
    let again := code == 0x0202 && c.errs.stalls.any (fun s => s.1 == unit && decide (c.time.c.toNat ≤ s.2 + secTicks))
    let c := if code = 0x0202 then
        c.setErrs { c.errs with stalls := (unit, c.time.c.toNat) :: c.errs.stalls.filter (fun s => s.1 != unit) }
      else c
    let job : ErrJob :=
      { code := code, unit := unit, level := errLevel code, atLevel := errLevel code, severity := errSeverity code,
        logSeq := 0, detail := if again then 1 else if code = 0x0202 then 0 else detail }
    let job := if job.targets.any essential then
        { job with code := 0x0401, level := 3, atLevel := 3, severity := 3, detail := 0 } else job
    let pending := c.fencePending unit
    match job.contain with
    | .none => c.writeLog (jobEntry job pending false false .none)
    | .poison => c.writeLog (jobEntry job pending false false .poisoned)
    | _ =>
      if pending && decide (job.level < 3) then c.writeLog (jobEntry job true false false .fenced)
      else c.seekSlot (4 - job.level) job false false

/-- The codes of R440 that a detector reports. Those of clocks, the watchdog, hung items and far failures have commands of
their own, and `ESCALATE_TOP` follows from another error (R448). -/
def detectable (code : Nat) : Bool :=
  [0x0101, 0x0102, 0x0103, 0x0104, 0x0105, 0x0107, 0x0108, 0x0201, 0x0202, 0x0203, 0x0301, 0x0302, 0x0303, 0x0304, 0x0401,
    0x0402, 0x0403, 0x0406].contains code

/-- Whether an error of code `code` can be charged to `unit` (R440): at its level, and a context for `CONTEXT_STATE`. -/
def chargeable (code unit : Nat) : Bool :=
  detectable code && isUnit unit &&
    (if code = 0x0401 then essential unit
     else if code = 0x0108 then unitClass unit == 2
     else unitLevel unit == errLevel code)

/-- `ERROR_DETECTED`. -/
def Chip.errorDetected (c : Chip) (code unit detail : Nat) : Chip :=
  if chargeable code unit then c.detect code unit (if code = 0x0102 then detail else 0) else c

/-- `ITEM_HANG` (R440): the item that core `k` runs has not retired in time. -/
def Chip.itemHang (c : Chip) (k : Nat) : Chip :=
  match c.sched.items.find? (fun i => i.state == .running k) with
  | some i => if k < 64 then c.detect 0x0106 k i.slot else c
  | none => c

/-! Fences (R451, R452). -/

/-- A core is fenced. -/
def Chip.fenceCore (c : Chip) (k : Nat) : Chip :=
  if c.coreUnfenced k then (c.putB (bit32 k SCH_CORE_LIVE.CORE_LIVE) false).coreFailed k else c

/-- A lane is fenced. -/
def Chip.fenceLane (c : Chip) (l : Nat) : Chip :=
  let c := c.latch ((ERR_FENCE_LANE.LANE_FENCED (l / 32)).bit (l % 32))
  c.setScan { c.scan with lanes := c.scan.lanes.filter (fun x => x.1 != l) }

/-- MAP items are cancelled while the bridge is out of work (R452). -/
def Chip.cancelMaps (c : Chip) : Chip := c.cancelWhere (fun i => i.type == .map) 2

/-- R452: the effect of a fence of one unit. -/
def Chip.fenceOne (c : Chip) (u : Nat) : Chip :=
  let i := unitIndex u
  match unitClass u with
  | 0x0 => c.fenceCore i
  | 0x1 => c.fenceLane i
  | 0x2 => (c.latch ((ERR_FENCE_CTX.CTX_FENCED (i / 32)).bit (i % 32))).put (STC_CSTAT.STATE i) 0
  | 0x4 => c.setErrs { c.errs with fifos := i :: c.errs.fifos }
  | 0x8 => (List.range 4).foldl (fun c k => c.fenceCore (4 * i + k)) (c.latch (ERR_FENCE_BLOCK.CLUSTER_FENCED.bit i))
  | 0x9 =>
    let c := (c.latch (ERR_FENCE_BLOCK.HALF_FENCED.bit i)).raiseScan SCN_x_EVENT.HALF_FENCED i 4
    c.setScan { c.scan with lanes := c.scan.lanes.filter (fun x => x.1 / 32 != i) }
  | 0xA => (c.latch (ERR_FENCE_BLOCK.PORT_FENCED.bit i)).linkDown (Fin.ofNat 2 i)
  | 0xB => if i = 0 then (c.latch ERR_FENCE_BLOCK.BRIDGE_FENCED).cancelMaps else c.latch ERR_FENCE_BLOCK.HOSTPORT_FENCED
  | 0xC =>
    let c := (c.latch (ERR_FENCE_BLOCK.REGION_FENCED.bit i)).put (FST_REGION.REGION_LIVE.bit i) 0
    let c := (List.range 16).foldl (fun c k => c.fenceCore (16 * i + k)) c
    let c := (List.range 16).foldl (fun c k => c.fenceLane (16 * i + k)) c
    ((c.ringRise 0 (c.ringUsed 0) (c.ringUsed 0)).showRing 0).showRing 1
  | _ => c

/-- The counts that follow the live units (R241, R302). -/
def Chip.recount (c : Chip) : Chip := c.showCores.showLanes.showEngine

/-- Whether the fence map names unit `u` itself, not only a larger unit around it. -/
def Chip.mapped (c : Chip) (u : Nat) : Bool :=
  let i := unitIndex u
  match unitClass u with
  | 0x1 => c.bit ((ERR_FENCE_LANE.LANE_FENCED (i / 32)).bit (i % 32))
  | 0x8 => c.bit (ERR_FENCE_BLOCK.CLUSTER_FENCED.bit i)
  | _ => c.fencedOne u

/-- The units of a list are fenced: Degraded is set, `FENCE_SEEN` latches and each unit counts once. -/
def Chip.fenceUnits (c : Chip) (l : List Nat) : Chip :=
  let l := l.filter (fun u => !c.mapped u)
  if l.isEmpty then c
  else
    let c := (l.foldl Chip.fenceOne c).bump (errCnt 0x18) l.length
    ((c.putB ERR_STATUS.DEGRADED true).raiseErr 3).recount

/-- `CLUSTER_LIMIT`, 1 to 4. -/
def Chip.clusterLimit (c : Chip) : Nat := min 4 (max 1 (c.get ERR_LIMITS.CLUSTER_LIMIT))

/-- Whether both scan halves are fenced. -/
def Chip.halvesLost (c : Chip) : Bool := c.fencedOne 0x9000 && c.fencedOne 0x9001

/-- R440: the errors that follow from fenced cells: `CELL_LIMIT` of clusters and halves, and `DISPLAY_LOST` where the halves were
not both fenced before; R195: both copies of one half of control memory. -/
def Chip.derived (c : Chip) (lostBefore : Bool) : Chip :=
  let free := fun (c : Chip) u => !c.unitFenced u && !c.fencePending u
  let c := (List.range 16).foldl (fun c k =>
    if free c (0x8000 + k) && decide (c.clusterLimit ≤ ((List.range 4).filter (fun j => !c.coreUnfenced (4 * k + j))).length)
    then c.detect 0x0201 (0x8000 + k) 0 else c) c
  let c := (List.range 2).foldl (fun c h =>
    if free c (0x9000 + h) && (List.range 32).all (fun l => c.laneFenced (32 * h + l))
    then c.detect 0x0201 (0x9000 + h) 0 else c) c
  let lost := fun (c : Chip) q => c.fencedOne (0xC000 + q) && c.fencedOne (0xC002 + q)
  let raised := fun (c : Chip) code => c.errs.jobs.any (fun j => j.code == code)
  let c := if (lost c 0 || lost c 1) && !raised c 0x0402 then c.detect 0x0402 0xF000 0 else c
  if c.halvesLost && !lostBefore then c.detect 0x0403 0xF000 0 else c

/-- The slot of level `lv` becomes free and takes the head of its pending list. -/
def Chip.freeHandler (c : Chip) (lv : Nat) : Chip :=
  match c.errs.waiting.getD lv [] with
  | [] => (c.setErrs { c.errs with slots := c.errs.slots.set lv none }).showHandlers
  | j :: l => (c.setErrs { c.errs with waiting := c.errs.waiting.set lv l }).takeSlot lv j

/-- R446: the containment of the slot of level `lv` completes. -/
def Chip.handlerComplete (c : Chip) (lv : Nat) : Chip :=
  match c.errs.slots.getD lv none with
  | none => c
  | some j =>
    let before := c.halvesLost
    let done := fun (c : Chip) (o : ErrOutcome) => ((c.setOutcome j.logSeq o).freeHandler lv).derived before
    match j.contain with
    | .reset => ((c.setOutcome j.logSeq .reset).blankOutputs).takeReset causeFatal
    | .blank => done c.blankOutputs .blanked
    | .restart => done c .restarted
    | .acquire => done (c.reacquire (unitIndex j.unit)) .acquiring
    | .fence | .lanes => done (c.fenceUnits j.targets) .fenced
    | .none => done c .none
    | .poison => done c .poisoned

/-- R446: the block that a cell belongs to, or a unit that stands for it; a block is its own. An essential unit is
answered where no block that can be fenced holds the cell (log entry 25). -/
def blockUnit (u : Nat) : Nat :=
  let i := unitIndex u
  match unitClass u with
  | 0x0 => 0x8000 + i / 4
  | 0x1 => 0x9000 + i / 32
  | 0x2 => 0xB003
  | 0x3 => 0xA000 + i / 2
  | 0x4 =>
    if i < 2 then 0xA000 + i else if i < 18 then 0x9000 + (i - 2) / 8 else if i < 20 then 0x9000 + (i - 18)
    else match i with | 21 => 0xB000 | 22 => 0xB005 | _ => 0xF001
  | _ => u

/-- R446: the region that a block belongs to, or the chip fabric (log entry 25). -/
def regionUnit (u : Nat) : Nat :=
  match unitClass u with
  | 0x8 => 0xC000 + unitIndex u / 4
  | 0xC => u
  | _ => 0xF000

/-- R446: the containment of the slot of level `lv` does not complete in time, and the error passes one level up. -/
def Chip.handlerTimeout (c : Chip) (lv : Nat) : Chip :=
  match c.errs.slots.getD lv none with
  | none => c
  | some j =>
    let c := (c.setOutcome j.logSeq .failed).freeHandler lv
    let block := blockUnit j.unit
    let region := regionUnit block
    if lv = 0 ∧ essential block = false then c.detect 0x0203 block 0
    else if lv = 1 ∧ essential region = false then c.detect 0x0303 region 0
    else c.detect 0x0401 0xF000 0

/-! The log (R459). -/

/-- The six words of an entry (R458). -/
def logWords (e : LogEntry) : List Nat :=
  let b := fun (x : Bool) n => if x then 2 ^ n else 0
  [e.level % 4 + 4 * (e.severity % 4) + b e.secondary 4 + b e.escalated 5 + b e.waited 6 + outcomeCode e.outcome * 2 ^ 7
      + b e.retained 29 + b e.time.invalid 30 + 2 ^ 31,
    e.unit + e.code * 2 ^ 16, e.time.sec / 2 ^ 32 + e.seq * 2 ^ 16, e.time.sec % 2 ^ 32, e.time.ns,
    e.time.frac + e.detail * 2 ^ 16]

/-- R459: reading word 0 pops the oldest entry, whose words are latched; a log that held
none before this instant gives zero. -/
def Chip.logPop (c : Chip) : Chip :=
  match c.errs.log with
  | [] => c.putWords 0xD0010 [0, 0, 0, 0, 0, 0]
  | e :: l =>
    if e.retained = false ∧ e.tick = c.time.c.toNat then c.putWords 0xD0010 [0, 0, 0, 0, 0, 0]
    else (c.setErrs { c.errs with log := l }).showLog.putWords 0xD0010 (logWords e)

/-- `LOG_CLEAR` (R463). -/
def Chip.logClear (c : Chip) : Chip := (c.setErrs { c.errs with log := [] }).showLog

end Sys2Proof.Machine
end

