-- ==== Sys2Proof/Machine/States.lean ====
section
/-!
DEFINITION. Entering and leaving device states (R33, R34, R303, R304), the effects of a step on flash and fuses (R466 to
R483), and the two epochs (R377, R416).
-/

namespace Sys2Proof.Machine

open Sys2Proof

/-- An effect on flash or fuses is added to the step. -/
def Chip.nvOp (c : Chip) (o : NvOp) : Chip := c.setNvOps (c.nvOps ++ [o])

/-- A run of bytes over the runs already written: the new bytes win. -/
def writeRun (off : Nat) (bytes : List Byte) (l : ImageRuns) : ImageRuns := (off, bytes) :: l

/-- The runs without what lies in `lo` to `hi` - 1. -/
def eraseRuns (lo hi : Nat) (l : ImageRuns) : ImageRuns :=
  l.flatMap (fun r =>
    [(r.1, r.2.take (lo - r.1)), (max r.1 hi, r.2.drop (hi - r.1))].filter (fun x => !x.2.isEmpty))

/-- R466 to R483: one effect on flash and fuses. Decommissioned has no exit (R484), the floor never falls (R481) and the
epochs never fall but by an erasure (R416). -/
def NvOp.apply (n : NonVol) : NvOp → NonVol
  | .primary s => { n with primary := s }
  | .otherValid b => { n with otherValid := b }
  | .running b => { n with wasRunning := b }
  | .activated b => { n with activated := b }
  | .lifecycle s => if n.lifecycle = 4 then n else { n with previous := some n.lifecycle, lifecycle := s }
  | .eventPlaced => { n with previous := none }
  | .profile p => { n with profile := p }
  | .pin b => { n with pinned := b }
  | .key s k => { n with keys := n.keys.set s k }
  | .eraseKeys => { n with keys := List.replicate 8 none }
  | .eraseProfile => { n with profile := 1, pinned := false }
  | .epoch e => { n with epoch := max n.epoch e }
  | .fenceMark b => { n with fenceMark := b }
  | .gangEpoch e => { n with gangEpoch := max n.gangEpoch e }
  | .eraseEpoch => { n with epoch := 0, fenceMark := false, gangEpoch := 0 }
  | .floor v => { n with floor := max n.floor v }
  | .writeImage s off b => { n with images := n.images.set s (writeRun off b (n.images.getD s [])) }
  | .eraseImage s lo hi => { n with images := n.images.set s (eraseRuns lo hi (n.images.getD s [])) }
  | .saveSettings s x => { n with settings := n.settings.set s (some x) }
  | .copySettings a b => { n with settings := n.settings.set b (n.settings.getD a none) }
  | .eraseSettings => { n with settings := [none, none] }
  | .nodeSetting s v =>
    match n.settings.getD s none with
    | none => n
    | some x =>
      let x := { x with generation := x.generation + 1, words := (0x20, wordOf v) :: x.words.filter (fun w => w.1 != 0x20) }
      { n with settings := n.settings.set s (some x) }

/-! States (R33). -/

/-- R33, R303: display starts, at once waiting for a lock frame if time is valid. -/
def Chip.beginDisplay (c : Chip) : Chip := if c.timeValid then c.setDisplay .waitLock else c.blankOutputs

/-- R33: the start command or the stored setting moves Stopped or Boot to Running. -/
def Chip.enterRunning (c : Chip) : Chip := (c.setSt .running).beginDisplay

/-- R33, R235, R304: Running ends. -/
def Chip.enterStopped (c : Chip) : Chip := (c.loseDisplay.setSt .stopped).setFromRunning false

def Chip.setRole (c : Chip) (r : GangRole) : Chip :=
  (c.setGang { c.gang with role := r }).putB GNG_STATUS.IS_APEX (r == .apex)

/-- R381: the apex role ends: outstanding relays end unanswered. -/
def Chip.leaveApex (c : Chip) : Chip :=
  (c.setGang { c.gang with relays := [], inbox := [], txns := [] }).setRole .member

/-- R34: a fenced device issues no schedules and no apex commands: it is no longer apex or candidate, and a director unit is
fenced (log entry 137). -/
def Chip.fallSilent (c : Chip) : Chip :=
  let c := if c.gang.role = .member then c else c.leaveApex
  if c.bit RED_CTRL.PAIR_EN then c.put RED_STATUS.PAIR_STATE 5 else c

/-- R33, R34, R303: Fenced is entered; from Running the display goes on through a lock frame. -/
def Chip.enterFenced (c : Chip) : Chip :=
  if c.st = .running then (((c.loseDisplay.setFromRunning true).setSt .fenced).beginDisplay).fallSilent
  else if c.st = .stopped ∨ c.st = .boot then (((c.blankOutputs).setFromRunning false).setSt .fenced).fallSilent
  else c

/-! Epochs. -/

def Chip.epoch (c : Chip) : Nat := c.get RED_EPOCH.EPOCH
def Chip.gangEpoch (c : Chip) : Nat := c.get GNG_EPOCH.GANG_EPOCH

/-- R416: a new epoch, written to flash before the device acts under it. -/
def Chip.setEpoch (c : Chip) (e : Nat) : Chip := (c.put RED_EPOCH.EPOCH e).nvOp (.epoch (e % 2 ^ 32))

/-- R377: a new gang epoch. -/
def Chip.setGangEpoch (c : Chip) (e : Nat) : Chip := (c.put GNG_EPOCH.GANG_EPOCH e).nvOp (.gangEpoch (e % 2 ^ 32))

/-- R436: the `TAKEOVER` event of bit `b` of `RED_EVENT`. -/
def Chip.raiseRed (c : Chip) (b unit argA argB : Nat) : Chip :=
  c.raise ⟨0xC0044, b, 1⟩ (fun c => c.event 0x0011 0 (b + 1) unit argA argB c.epoch)

/-- Whether the unit is the active or the solo director (R420). -/
def Chip.directs (c : Chip) : Bool := c.get RED_STATUS.PAIR_STATE == 3 || c.get RED_STATUS.PAIR_STATE == 4

/-- R416, R417: an epoch is seen. A higher one is adopted, and fences an active or solo director. -/
def Chip.seeEpoch (c : Chip) (e : Nat) : Chip :=
  if e ≤ c.epoch then c
  else
    let directs := c.directs
    let c := c.setEpoch e
    if directs then
      ((c.enterFenced).put RED_STATUS.PAIR_STATE 5).raiseRed 1 (c.get RED_ID.PAIR_ID) 0 0
    else c

end Sys2Proof.Machine
end

