-- ==== Sys2Proof/Machine/Reply.lean ====
section
/-!
DEFINITION. Selul replies (R338 to R350): their bytes and trailers, held replies, the host reply queue, and the gang link
as a way back (R388).
-/

namespace Sys2Proof.Machine

open Sys2Proof

def statusCode : Status → Nat
  | .ok => 0x00 | .pending => 0x01 | .busy => 0x02 | .badOpcode => 0x10 | .badLength => 0x11 | .badAddress => 0x12
  | .fieldClass => 0x13 | .txnConflict => 0x14 | .txnUnknown => 0x15 | .authFail => 0x20 | .staleEpoch => 0x21
  | .lifecycleDenied => 0x22 | .poison => 0x30 | .farFailed => 0x40 | .semTimeout => 0x41

/-- The status of a code; a code that R341 reserves reads as a refusal. -/
def statusOf (n : Nat) : Status :=
  match n with
  | 0x00 => .ok | 0x01 => .pending | 0x02 => .busy | 0x10 => .badOpcode | 0x11 => .badLength | 0x12 => .badAddress
  | 0x13 => .fieldClass | 0x15 => .txnUnknown | 0x20 => .authFail | 0x21 => .staleEpoch
  | 0x22 => .lifecycleDenied | 0x30 => .poison | 0x40 => .farFailed | 0x41 => .semTimeout | _ => .txnConflict

/-- The 32 header bytes of a Selul packet (R338). -/
def selulHead (flags opcode status gang tag txn epoch seq node len arg : Nat) : List Byte :=
  bytesBE 2 0x4753 ++ [1#8, byteOf flags] ++ bytesBE 2 opcode ++ [byteOf status, byteOf gang] ++ bytesBE 2 tag
    ++ bytesBE 2 txn ++ bytesBE 4 epoch ++ bytesBE 4 seq ++ bytesBE 2 node ++ bytesBE 2 len ++ bytesBE 4 arg ++ bytesBE 4 0

/-- The flags byte of a reply. -/
def Reply.flags (r : Reply) : Nat := 1 + (if r.notice then 4 else 0) + 8 * r.key

/-- Header and payload of a reply. -/
def Reply.body (r : Reply) : List Byte :=
  selulHead r.flags r.opcode (statusCode r.status) r.gang r.tag r.txn r.epoch r.seq r.node r.payload.length r.arg
    ++ r.payload

/-- A reply as it leaves the ball. -/
def Reply.bytes (r : Reply) : List Byte := r.body ++ r.mac

/-- Header and payload of a command as its requester spelled it. -/
def Cmd.body (c : Cmd) : List Byte :=
  selulHead ((if c.noReply then 2 else 0) + 8 * c.key.val) c.opcode 0 c.gang c.tag c.txn c.epoch c.seq c.node
    c.payload.length c.arg ++ c.payload

def zeroMac : List Byte := List.replicate 16 0#8

/-- R339: the trailer over a body under a key; an empty slot gives 16 zero bytes (R343). -/
def macOf16 (key : Option (List Byte)) (boot : Nat) (body : List Byte) : List Byte :=
  match key with
  | some k => (hmac256 k (body ++ bytesBE 4 boot)).take 16
  | none => zeroMac

/-- R339: the `BOOT_ID` that the trailer of an opcode covers. -/
def Chip.macBoot (c : Chip) (opcode : Nat) : Nat := if opcode = 0x0001 ∨ opcode = 0x0002 then 0 else bootId c

/-- A reply to a command with its trailer. `node` and `epoch` are the device's own but in a relayed reply. -/
def Chip.mkReply (c : Chip) (cmd : Cmd) (key : Option (List Byte)) (opcode : Nat) (st : Status) (txn arg node epoch : Nat)
    (payload : List Byte) (notice : Bool) : Reply :=
  let r : Reply :=
    { dst := cmd.src, port := cmd.port.val, opcode := opcode, status := st, notice := notice, bare := false,
      key := cmd.key.val, gang := cmd.gang, tag := cmd.tag, txn := txn, epoch := epoch, seq := cmd.seq, node := node,
      arg := arg, payload := payload, mac := zeroMac }
  match cmd.src with
  | .gang .. => { r with mac := [] }
  | _ => { r with mac := macOf16 key (c.macBoot opcode) r.body }

/-- R342: a bare reply carries `BOOT_ID` and a trailer of zeros. -/
def Chip.bareReply (c : Chip) (cmd : Cmd) (st : Status) : Reply :=
  { dst := cmd.src, port := cmd.port.val, opcode := cmd.opcode, status := st, notice := false, bare := true,
    key := cmd.key.val, gang := cmd.gang, tag := cmd.tag, txn := cmd.txn, epoch := c.epoch, seq := cmd.seq, node := nodeId c,
    arg := 0, payload := bytesBE 4 (bootId c), mac := zeroMac }

/-! The gang link (R374). -/

/-- A gang or pair message: its header, body and trailer. `boot` is the receiver's `BOOT_ID` when it names one receiver. -/
def linkMsg (magic kind id src dst gseq epoch : Nat) (key : Option (List Byte)) (boot : Nat) (body : List Byte) : List Byte :=
  let h := bytesBE 2 magic ++ [1#8, byteOf kind] ++ bytesBE 2 id ++ [byteOf src, byteOf dst] ++ bytesBE 4 gseq
    ++ bytesBE 4 epoch ++ bytesBE 2 body.length ++ bytesBE 2 0
  let mac := match key with
    | some k => (hmac256 k (h ++ body ++ (if dst = 0xFF then [] else bytesBE 4 boot))).take 16
    | none => zeroMac
  h ++ body ++ mac

def NonVol.keyAt (n : NonVol) (slot : Nat) : Option (List Byte) := n.keys.getD slot none

/-- The sender of gang address `a` as it is known. -/
def Gang.peer (g : Gang) (a : Nat) : Option Peer := g.peers.find? (fun p => p.addr == a)

/-- A frame goes out on each port whose link is up. -/
def Chip.sendBoth (c : Chip) (body : TxBody) (ip len : Nat) : Chip :=
  let one := fun (c : Chip) (p : PortIx) => if c.linkUp p then c.sendLocal p ⟨body, c.udpLen p ip len⟩ else c
  one (one c 0) 1

/-- R374, R376: a gang message is formed with the next `GSEQ`. -/
def Chip.formGang (c : Chip) (nv : NonVol) (kind dst : Nat) (body : List Byte) : Chip × List Byte :=
  let boot := match c.gang.peer dst with | some p => p.boot.getD 0 | none => 0
  let m := linkMsg 0x4C47 kind (c.get GNG_ID.GANG_ID) (gangAddr c) dst c.gang.gseq c.gangEpoch
    (nv.keyAt (c.get GNG_ID.KEY_SLOT)) boot body
  (c.setGang { c.gang with gseq := (c.gang.gseq + 1) % 2 ^ 32 }, m)

/-- R375: whether the device at `a` has told its `BOOT_ID`. -/
def Chip.heardBoot (c : Chip) (a : Nat) : Bool := (c.gang.peer a).any (fun p => p.boot.isSome)

/-- A gang message is sent to the gang's group. -/
def Chip.sendGang (c : Chip) (m : List Byte) : Chip :=
  c.sendBoth (.gang (fieldBE m 3 1) m) (c.get128 (fun w => GNG_GROUP.GNG_GROUP w)) m.length

/-- R375, R388: a `RELAY_REPLY` to the `RELAY` `gseq` of the device at `a` is formed, kept for repeats, and sent. It covers the
`BOOT_ID` of that device, so none is formed before the device has told it. -/
def Chip.relayAnswer (c : Chip) (nv : NonVol) (a gseq : Nat) (body : List Byte) : Chip :=
  if !c.heardBoot a then c
  else
  let (c, m) := c.formGang nv 0x05 a (bytesBE 4 gseq ++ body)
  (c.setGang { c.gang with formed := ((a, gseq, m) :: c.gang.formed).take 64 }).sendGang m

/-! Sending replies (R334, R336, R348). -/

/-- R336: a reply enters the host reply queue, or is dropped by the full queue. -/
def Chip.hostReply (c : Chip) (r : Reply) : Chip :=
  if c.sel.hostOut.length ≥ 4 then
    (c.setSel { c.sel with hqOverrun := true }).latch ID_SEL_EVENT.HQ_REPLY_DROP
  else c.setSel { c.sel with hostOut := c.sel.hostOut ++ [r] }

/-- A reply goes back the way its command came. -/
def Chip.sendReply (c : Chip) (nv : NonVol) (r : Reply) : Chip :=
  match r.dst with
  | .host => c.hostReply r
  | .net ip _ =>
    let p : PortIx := Fin.ofNat 2 r.port
    c.sendLocal p ⟨.reply r, c.udpLen p ip r.bytes.length⟩
  | .gang a g => c.relayAnswer nv a g r.body

/-- The entry of a requester. All host-port traffic belongs to one requester (R337). -/
def Selul.requester (s : Selul) (key : Nat) (src : Source) : Option Requester :=
  match src with
  | .host => s.hostReq
  | _ => s.requesters.find? (fun r => r.key == key && r.src == src)

/-- The requester entries with `f` applied to that of (`key`, `src`). -/
def Selul.editRequester (s : Selul) (key : Nat) (src : Source) (f : Requester → Requester) : Selul :=
  match src with
  | .host => { s with hostReq := s.hostReq.map f }
  | _ => { s with requesters := s.requesters.map (fun r => if r.key == key && r.src == src then f r else r) }

/-- Whether a requester holds a place for the reply of a command. -/
def Chip.heldPlace (c : Chip) (cmd : Cmd) : Option Held :=
  (c.sel.requester cmd.key.val cmd.src).bind (fun r => r.held.find? (fun h => h.tag == cmd.tag && h.seq == cmd.seq))

/-- R348: the reply becomes the held reply of its command. -/
def Chip.holdReply (c : Chip) (cmd : Cmd) (r : Reply) : Chip :=
  c.setSel (c.sel.editRequester cmd.key.val cmd.src (fun q =>
    { q with held := q.held.map (fun h => if h.tag = cmd.tag ∧ h.seq = cmd.seq then { h with reply := some r, again := false } else h) }))

/-- R347 to R350: a reply has been formed. It is counted, sent unless its command wants none, and held if its place is. A
repeat that waits for it gets it too. Replies to `NODE` 0xFFFF wait for their delay. -/
def Chip.giveReply (c : Chip) (nv : NonVol) (cmd : Cmd) (r : Reply) : Chip :=
  let c := if r.status = .ok ∨ r.status = .pending then c else c.bump (selCnt 0x08) 1
  let silent := cmd.noReply && (match cmd.src with | .gang .. => false | _ => true)
  let place := c.heldPlace cmd
  let c := c.holdReply cmd r
  let c := if silent then c
    else if cmd.node = 0xFFFF then c.setSel { c.sel with delayed := c.sel.delayed ++ [r] }
    else c.sendReply nv r
  if place.any (fun h => h.again) then c.sendReply nv r else c

/-- A reply of the device's own to a command. -/
def Chip.reply (c : Chip) (nv : NonVol) (cmd : Cmd) (key : Option (List Byte)) (st : Status) (txn arg : Nat)
    (payload : List Byte) : Chip :=
  (c.ans st []).giveReply nv cmd (c.mkReply cmd key cmd.opcode st txn arg (nodeId c) c.epoch payload false)

/-- R350: the final reply of a split transaction. -/
def Chip.finalReply (c : Chip) (nv : NonVol) (cmd : Cmd) (key : Option (List Byte)) (opcode : Nat) (st : Status) (arg : Nat)
    (payload : List Byte) : Chip :=
  (c.ans st []).giveReply nv cmd (c.mkReply cmd key opcode st cmd.txn arg (nodeId c) c.epoch payload true)

end Sys2Proof.Machine
end

