-- ==== Sys2Proof/Machine/Gang.lean ====
section
/-!
DEFINITION. The gang (R371 to R393): messages and their windows, the election of the apex, polling and the member table,
signals, relays and their replies, gang transactions, and far-side failures.
-/

namespace Sys2Proof.Machine

open Sys2Proof

def gangCnt (o : Nat) : Nat := 0x100A00 + o

/-- R371: the device belongs to a gang and takes part in it. -/
def Chip.inGang (c : Chip) : Bool := c.get GNG_ID.GANG_ID != 0 && c.ingests

/-! Messages (R374 to R376). -/

/-- The fields of a gang or pair message. -/
structure LinkIn where
  kind : Nat
  id : Nat
  src : Nat
  dst : Nat
  gseq : Nat
  epoch : Nat
  body : List Byte
  mac : List Byte
  head : List Byte

/-- R374: a message with this magic, version 1 and its length right. -/
def parseLink (magic : Nat) (m : List Byte) : Option LinkIn :=
  if fieldBE m 0 2 = magic ∧ fieldBE m 2 1 = 1 ∧ m.length = 36 + fieldBE m 16 2 then
    some { kind := fieldBE m 3 1, id := fieldBE m 4 2, src := fieldBE m 6 1, dst := fieldBE m 7 1, gseq := fieldBE m 8 4,
           epoch := fieldBE m 12 4, body := sliceB m 20 (fieldBE m 16 2), mac := m.drop (m.length - 16), head := m.take 20 }
  else none

/-- R374, R375: the trailer is right under `key`; a message to one receiver covers the receiver's `BOOT_ID`. -/
def LinkIn.authentic (m : LinkIn) (key : Option (List Byte)) (boot : Nat) : Bool :=
  match key with
  | some k => m.mac == (hmac256 k (m.head ++ m.body ++ (if m.dst = 0xFF then [] else bytesBE 4 boot))).take 16
  | none => false

/-- R345, R376: `s` against a window of 64: the window after it, and whether `s` is new, a repeat or too old. -/
inductive SeqJudge
  | fresh | again | old
  deriving DecidableEq, Repr

def judgeSeq (high bitmap s : Nat) : SeqJudge × Nat × Nat :=
  let d := signedMod 32 ((s : Int) - (high : Int))
  if 0 < d then
    (.fresh, s, if 64 ≤ d then 1 else (bitmap * 2 ^ d.toNat + 1) % 2 ^ 64)
  else if d ≤ -64 then (.old, high, bitmap)
  else if bitmap.testBit (-d).toNat then (.again, high, bitmap)
  else (.fresh, high, bitmap + 2 ^ (-d).toNat)

/-- R376: the sequence number of a message from a sender with `BOOT_ID` `boot`, where the message tells it. -/
def Peer.take (p : Peer) (boot : Option Nat) (s : Nat) : Peer × SeqJudge :=
  let p := match boot with
    | some b => if some b = p.boot then p else { p with boot := some b, high := none, bitmap := 0, prio := none }
    | none => p
  match p.high with
  | none => ({ p with high := some s, bitmap := 1 }, .fresh)
  | some h => let j := judgeSeq h p.bitmap s; ({ p with high := some j.2.1, bitmap := j.2.2 }, j.1)

def Gang.setPeer (g : Gang) (p : Peer) : Gang :=
  { g with peers := p :: g.peers.filter (fun q => q.addr != p.addr) }

/-- The `BOOT_ID` that a gang message tells (R375): `POLL`, `CLAIM` and `STATUS` carry their sender's. -/
def LinkIn.boot (m : LinkIn) : Option Nat :=
  match m.kind with
  | 0x01 => some (fieldBE m.body 10 4)
  | 0x03 => some (fieldBE m.body 11 4)
  | 0x02 => some (fieldBE m.body 8 4)
  | _ => none

/-- R375: whether the full time of a `POLL` or `CLAIM` lies within 1 s of the device's own, when its own is valid. -/
def Chip.timeNear (c : Chip) (body : List Byte) : Bool :=
  !c.timeValid || (let t : FullTime := ⟨fieldBE body 0 6, fieldBE body 6 4⟩; decide (mag (FullTime.at t - c.now) ≤ secU))

/-- R371 to R376: a gang message of kind `kind` arrives. It is answered with its judgement if it is the gang's, for this
device, authentic and timely. -/
def Chip.gangIn (c : Chip) (nv : NonVol) (kind : Nat) (bytes : List Byte) : Chip × Option (LinkIn × SeqJudge) :=
  match parseLink 0x4C47 bytes with
  | none => (c, none)
  | some m =>
    if !c.inGang || m.kind != kind || m.id != c.get GNG_ID.GANG_ID || (m.dst != 0xFF && m.dst != gangAddr c)
        || decide (64 ≤ m.src) then (c, none)
    else if !m.authentic (nv.keyAt (c.get GNG_ID.KEY_SLOT)) (bootId c) then (c.bump (gangCnt 0x18) 1, none)
    else if (kind == 0x01 || kind == 0x03) && !c.timeNear m.body then (c, none)
    else
      let p := (c.gang.peer m.src).getD { addr := m.src, boot := none, high := none, bitmap := 0, prio := none }
      let (q, j) := p.take m.boot m.gseq
      let g := c.gang.setPeer q
      let g := if p.boot = q.boot then g else { g with inbox := g.inbox.filter (fun b => b.addr != m.src) }
      (c.setGang g, some (m, j))

/-! The election (R378 to R381). -/

/-- R378: the device may claim. -/
def Chip.mayClaim (c : Chip) : Bool :=
  (c.get GNG_CTRL.APEX_MODE == 1 || c.get GNG_CTRL.APEX_MODE == 2) && (c.st == .stopped || c.st == .running)

/-- The sender `a` is followed as apex. -/
def Chip.follow (c : Chip) (a : Nat) : Chip := (c.put GNG_STATUS.APEX_ADDR a).put GNG_STATUS.APEX_KNOWN 1

/-- R379: whether the sender ranks better than this device. Without a claim of the sender, its address decides. -/
def Chip.ranksBetter (c : Chip) (prio : Option Nat) (addr : Nat) : Bool :=
  let own := c.get GNG_CTRL.APEX_PRIO
  let p := prio.getD own
  decide (p < own) || (p == own && decide (addr < gangAddr c))

/-- R377, R380: a `POLL` or `CLAIM` of gang epoch `e` from address `a` is heard. -/
def Chip.hearApex (c : Chip) (e a : Nat) (prio : Option Nat) : Chip :=
  if c.gangEpoch < e then
    let c := c.setGangEpoch e
    match c.gang.role with
    | .apex => (c.leaveApex.follow a).enterFenced
    | _ => (c.setRole .member).follow a
  else if e < c.gangEpoch then c
  else match c.gang.role with
    | .member => c.follow a
    | .apex => if c.ranksBetter prio a then c.leaveApex.follow a else c
    | .backoff | .claimant => if c.ranksBetter prio a then (c.setRole .member).follow a else c

/-- R379: no `POLL` for `MISS_LIMIT` cycles: the apex is judged lost. -/
def Chip.apexLost (c : Chip) : Chip :=
  if c.inGang && c.gang.role == .member then
    let c := c.put GNG_STATUS.APEX_KNOWN 0
    if c.mayClaim then c.setRole .backoff else c
  else c

/-- The sender's full time of a `POLL` or `CLAIM`: 48-bit seconds and 32-bit nanoseconds. -/
def Chip.timeBytes (c : Chip) : List Byte :=
  let r := c.nowRec
  bytesBE 6 r.sec ++ bytesBE 4 r.ns

/-- R379: after the back-off a `CLAIM` with the next gang epoch is sent. -/
def Chip.claimSend (c : Chip) (nv : NonVol) : Chip :=
  if c.gang.role == .backoff && c.mayClaim && c.inGang then
    let c := (c.setGangEpoch ((c.gangEpoch + 1) % 2 ^ 32)).setRole .claimant
    let (c, m) := c.formGang nv 0x03 0xFF
      (c.timeBytes ++ [byteOf (c.get GNG_CTRL.APEX_PRIO)] ++ bytesBE 4 (bootId c))
    c.sendGang m
  else c

/-- R380: a `CLAIM` arrives. -/
def Chip.claimReceived (c : Chip) (nv : NonVol) (bytes : List Byte) : Chip :=
  match c.gangIn nv 0x03 bytes with
  | (c, some (m, .fresh)) =>
    let prio := fieldBE m.body 10 1
    let c := match c.gang.peer m.src with
      | some p => c.setGang (c.gang.setPeer { p with prio := some prio })
      | none => c
    c.hearApex m.epoch m.src (some prio)
  | (c, _) => c

/-- R380: a claimant that has heard no better claim becomes apex. -/
def Chip.apexChange (c : Chip) : Chip :=
  if c.gang.role == .claimant && c.inGang then
    ((c.setRole .apex).follow (gangAddr c)).raiseGang 4 (gangAddr c) c.gangEpoch
  else c

/-! Far-side failures (R392). -/

/-- R392: a posted command's far side has failed. `gang` tells failures from the gang, which `FAR_FAILURES` counts. -/
def Chip.farFailed (c : Chip) (gang : Bool) (tag txn node reason detail at_ : Nat) : Chip :=
  let c := c.event 0x0009 1 reason node tag txn (reason + (detail % 2 ^ 16) * 2 ^ 8)
  let c := c.writeLog (plainEntry 0x0408 0xF000 at_ .none)
  if gang then c.bump (gangCnt 0x10) 1 else c

/-! Relays (R387 to R390). -/

/-- The member at address `a`. -/
def Gang.member (g : Gang) (a : Nat) : Option Member := g.members.find? (fun m => m.addr == a)

/-- The node ID in the record of a member, 0 where none is known. -/
def Gang.nodeOf (g : Gang) (a : Nat) : Nat := match g.member a with | some m => m.words.getD 0 0 % 2 ^ 16 | none => 0

/-- R374, R387: whether a command fits the ports' `MAX_LEN` once wrapped in a `RELAY`. -/
def Chip.relayFits (c : Chip) (cmd : Cmd) : Bool :=
  let ip := c.get128 (fun w => GNG_GROUP.GNG_GROUP w)
  let n := 36 + 32 + cmd.payload.length
  (List.range 2).all (fun p => let q : PortIx := Fin.ofNat 2 p; decide (c.udpLen q ip n ≤ c.maxLen q))

/-- R388: a `RELAY` of `sent` goes to the member at `a` for the command `cmd`. -/
def Chip.sendRelay (c : Chip) (nv : NonVol) (a : Nat) (cmd sent : Cmd) (key : Option (List Byte)) (use : RelayUse) : Chip :=
  let g := c.gang.gseq
  let (c, m) := c.formGang nv 0x04 a (Cmd.body sent)
  let r : Relay := { gseq := g, addr := a, cmd := cmd, key := key, bytes := m, tries := 1, pending := false, use := use }
  (c.setGang { c.gang with relays := c.gang.relays ++ [r] }).sendGang m

/-- R387: why the member at `a` cannot take a relay, as a reason of R392. -/
def Chip.relayBar (c : Chip) (a : Nat) : Option Nat :=
  match c.gang.member a with
  | none => some 0x07
  | some m => if !m.present then some 0x07 else if m.silent then some 0x04 else if m.duplicate then some 0x07 else none

/-- R389, R392: a relay for a requester ends with a status; a posted command that failed reports it. -/
def Chip.endRelay (c : Chip) (nv : NonVol) (r : Relay) (st : Status) (txn arg node epoch : Nat) (payload : List Byte)
    (reason detail : Nat) : Chip :=
  let c := if st = .farFailed ∧ r.cmd.noReply = false then c.bump (gangCnt 0x10) 1 else c
  let c := if r.cmd.noReply && st != .ok && st != .pending then
      c.farFailed true r.cmd.tag r.cmd.txn (c.gang.nodeOf r.addr) reason detail r.addr else c
  (c.ans st []).giveReply nv r.cmd (c.mkReply r.cmd r.key r.cmd.opcode st txn arg node epoch payload true)

/-- The `RELAY_REPLY` of a relay: its Selul reply's fields (R338). -/
structure ReplyIn where
  status : Status
  opcode : Nat
  txn : Nat
  epoch : Nat
  node : Nat
  arg : Nat
  payload : List Byte

def parseReply (b : List Byte) : ReplyIn :=
  { status := statusOf (fieldBE b 6 1), opcode := fieldBE b 4 2, txn := fieldBE b 10 2, epoch := fieldBE b 12 4,
    node := fieldBE b 20 2, arg := fieldBE b 24 4, payload := b.drop 32 }

/-- The 8-byte write result (R362). -/
def writeResult (effect failIndex : Nat) (late : Bool) : List Byte :=
  bytesBE 4 effect ++ bytesBE 2 failIndex ++ [if late then 1#8 else 0#8, 0#8]

/-! Gang transactions (R391). -/

def Gang.txn (g : Gang) (id : Nat) : Option GangTxn := g.txns.find? (fun t => t.id == id)
def Chip.setGangTxn (c : Chip) (t : GangTxn) : Chip :=
  c.setGang { c.gang with txns := c.gang.txns.map (fun x => if x.id = t.id then t else x) }
def Chip.dropGangTxn (c : Chip) (id : Nat) : Chip :=
  c.setGang { c.gang with txns := c.gang.txns.filter (fun x => x.id != id) }
def GangTxn.setPart (t : GangTxn) (p : GangPart) : GangTxn :=
  { t with parts := t.parts.map (fun x => if x.addr = p.addr then p else x) }

/-- A command that the apex makes for a member's transaction. -/
def apexCmd (cmd : Cmd) (opcode txn : Nat) (payload : List Byte) : Cmd :=
  { cmd with opcode := opcode, txn := txn, arg := 0, payload := payload, noReply := false }

/-- R391: the apex's transaction changes its state, closing unless it is open or scheduled. -/
def Chip.moveTxn (c : Chip) (id : Nat) (st : TxnState) (effect : Nat) (due : Option FullTime) : Chip :=
  match c.sel.txns.find? (fun t => t.id == id) with
  | none => c
  | some t =>
    let t := { t with state := st, effect := effect, due := due }
    if st = .isOpen ∨ st = .scheduled then
      c.setSel { c.sel with txns := c.sel.txns.map (fun x => if x.id = id then t else x) }
    else
      let rest := c.sel.txns.filter (fun x => x.id != id)
      (c.setSel { c.sel with txns := rest, closed := (t :: c.sel.closed).take 16 }).put ID_SEL_STATUS.TXN_OPEN rest.length

/-- R391, steps 3 and 4: once every member has answered the commit, its final reply is given. -/
def Chip.judgeGangCommit (c : Chip) (nv : NonVol) (id : Nat) : Chip :=
  match c.gang.txn id with
  | some t =>
    match t.commit with
    | some (cmd, key) =>
      if t.parts.any (fun p => p.state == .committing) then c
      else match t.refusal with
        | none =>
          let due : FullTime := ⟨fieldBE cmd.payload 2 6, fieldBE cmd.payload 8 4⟩
          let c := (c.setGangTxn { t with commit := none, tag := cmd.tag }).moveTxn id .scheduled t.effect (some due)
          c.finalReply nv cmd key cmd.opcode .ok 0 (writeResult t.effect 0xFFFF false)
        | some (st, a) =>
          let c := (t.parts.filter (fun p => p.state == .scheduled)).foldl
            (fun c p => let x := apexCmd cmd 0x0022 p.tid []; c.sendRelay nv p.addr x x key .rollback) c
          let c := (c.dropGangTxn id).moveTxn id .refused t.effect none
          c.finalReply nv cmd key cmd.opcode (statusOf st) 0 (writeResult 0xFFFFFFFF a false)
    | none => c
  | none => c

/-- R391, step 1: the writes that waited for the member's transaction are relayed into it. -/
def Chip.stageWaiting (c : Chip) (nv : NonVol) (t : GangTxn) (p : GangPart) : Chip :=
  p.waiting.foldl (fun c w => c.sendRelay nv p.addr w.1 { w.1 with txn := p.tid } w.2 (.stage t.id)) c

/-- A member answers its part of a commit. -/
def GangTxn.commitAnswer (t : GangTxn) (addr : Nat) (st : Status) (effect : Nat) : GangTxn :=
  match t.parts.find? (fun p => p.addr == addr) with
  | none => t
  | some p =>
    if st = .ok then { t.setPart { p with state := .scheduled } with effect := effect }
    else
      let t' := t.setPart { p with state := .refused }
      { t' with refusal := t.refusal.orElse (fun _ => some (statusCode st, addr)) }

/-- R389, R391: the answer of a relay acts on what the relay serves. -/
def Chip.relayAnswered (c : Chip) (nv : NonVol) (r : Relay) (q : ReplyIn) : Chip :=
  match r.use with
  | .direct => c.endRelay nv r q.status q.txn q.arg q.node q.epoch q.payload 0x05 (r.addr + statusCode q.status * 2 ^ 8)
  | .stage _ => c.endRelay nv r q.status r.cmd.txn q.arg q.node q.epoch q.payload 0x05 (r.addr + statusCode q.status * 2 ^ 8)
  | .rollback => c
  | .start id =>
    match c.gang.txn id with
    | none => c
    | some t =>
      match t.parts.find? (fun p => p.addr == r.addr) with
      | none => c
      | some p =>
        if q.status = .ok then
          let c := c.stageWaiting nv t { p with tid := q.txn }
          c.setGangTxn (t.setPart { p with tid := q.txn, state := .opened, waiting := [] })
        else
          let c := p.waiting.foldl (fun c w =>
            c.endRelay nv { r with cmd := w.1, key := w.2 } q.status w.1.txn 0 q.node q.epoch [] 0x05
              (r.addr + statusCode q.status * 2 ^ 8)) c
          c.setGangTxn { t with parts := t.parts.filter (fun x => x.addr != r.addr) }
  | .commit id =>
    match c.gang.txn id with
    | none => c
    | some t => (c.setGangTxn (t.commitAnswer r.addr q.status (fieldBE q.payload 0 4))).judgeGangCommit nv id
  | .check id =>
    match c.gang.txn id with
    | none => c
    | some t =>
      if q.status = .ok ∧ fieldBE q.payload 0 1 = 5 then
        let (c, d) := c.draw
        c.farFailed true t.tag id (c.gang.nodeOf r.addr) 0x05 (r.addr + Config.choice d % 2 ^ 8 * 2 ^ 8) r.addr
      else c

/-- R389, R393: a relay ends unanswered, for the reason `MEMBER_SILENT`. -/
def Chip.relayFailed (c : Chip) (nv : NonVol) (r : Relay) : Chip :=
  match r.use with
  | .direct | .stage _ => c.endRelay nv r .farFailed r.cmd.txn 0 (nodeId c) c.epoch [] 0x04 r.addr
  | _ => c.relayAnswered nv r
      { status := .farFailed, opcode := 0, txn := 0, epoch := c.epoch, node := nodeId c, arg := 0, payload := [] }

/-- A relay leaves the list. -/
def Chip.dropRelay (c : Chip) (gseq : Nat) : Chip :=
  c.setGang { c.gang with relays := c.gang.relays.filter (fun r => r.gseq != gseq) }

/-- R388: `RELAY_TIMEOUT` passes for the relay `gseq`: it is resent unchanged, or has failed. -/
def Chip.relayTimeout (c : Chip) (nv : NonVol) (gseq : Nat) : Chip :=
  match c.gang.relays.find? (fun r => r.gseq == gseq && !r.pending) with
  | none => c
  | some r =>
    if r.tries < max 1 (c.get GNG_TIMING.LINK_TRIES) then
      let c := c.setGang { c.gang with relays := c.gang.relays.map (fun x => if x.gseq = gseq then { x with tries := x.tries + 1 } else x) }
      (c.bump (gangCnt 0x08) 1).sendGang r.bytes
    else (c.dropRelay gseq).relayFailed nv r

/-! Deliveries (R386). -/

/-- R386: a message of a member is delivered: a reply to its requester, or a signalled event as a `GANG` event. -/
def Chip.deliverGang (c : Chip) (nv : NonVol) (addr : Nat) : Delivery → Chip
  | .nothing _ => c
  | .reply _ relay body =>
    match c.gang.relays.find? (fun r => r.gseq == relay && r.addr == addr) with
    | none => c
    | some r =>
      let q := parseReply body
      if q.status = .pending then
        c.setGang { c.gang with relays := c.gang.relays.map (fun x => if x.gseq = relay then { x with pending := true } else x) }
      else ((c.dropRelay relay).bump (gangCnt 0x00) 1).relayAnswered nv r q
  | .signal _ ev =>
    let type := fieldBE ev 0 2
    let cause := fieldBE ev 3 1
    let c := (c.latch GNG_EVENT.MEMBER_EVENT).event 0x0014 3 6 addr type cause (c.gang.nodeOf addr)
    if type = 0x0008 ∧ cause = 2 then
      match c.gang.txns.find? (fun t => t.parts.any (fun p => p.addr == addr && p.tid == fieldBE ev 12 2 && p.state == .scheduled)) with
      | some t => c.farFailed true t.tag t.id (c.gang.nodeOf addr) 0x05 (addr + fieldBE ev 20 4 % 2 ^ 8 * 2 ^ 8) addr
      | none => c
    else c

def Delivery.gseq : Delivery → Nat
  | .reply g _ _ | .signal g _ | .nothing g => g

def Gang.inboxOf (g : Gang) (a : Nat) : Option Inbox := g.inbox.find? (fun b => b.addr == a)
def Chip.setInbox (c : Chip) (b : Inbox) : Chip :=
  c.setGang { c.gang with inbox := b :: c.gang.inbox.filter (fun x => x.addr != b.addr) }

/-- R386: how long a message is held for those before it: until they have been given up after `LINK_TRIES`, in ticks. -/
def Chip.holdLimit (c : Chip) : Nat :=
  max 1 (c.get GNG_TIMING.LINK_TRIES) * max 1 (c.get GNG_TIMING.RELAY_TIMEOUT) * 800000

/-- R386: the deliveries of a member whose turn has come are made, at most `n` of them. -/
def Chip.flushInbox (nv : NonVol) : Nat → Chip → Nat → Chip
  | 0, c, _ => c
  | n + 1, c, addr =>
    match c.gang.inboxOf addr with
    | none => c
    | some b =>
      match b.waiting.find? (fun w => w.2.gseq == b.next) with
      | some w =>
        let b := { b with next := (b.next + 1) % 2 ^ 32, waiting := b.waiting.filter (fun x => x.2.gseq != w.2.gseq) }
        flushInbox nv n ((c.setInbox b).deliverGang nv addr w.2) addr
      | none =>
        if b.waiting.any (fun w => decide (w.1 + c.holdLimit ≤ c.time.c.toNat)) then
          let d := (b.waiting.map (fun w => (signedMod 32 ((w.2.gseq : Int) - (b.next : Int))).toNat)).foldl min (2 ^ 31)
          flushInbox nv n (c.setInbox { b with next := (b.next + d) % 2 ^ 32 }) addr
        else c

/-- R386: a message of the member at `addr` arrives with its sequence number. -/
def Chip.inboxPut (c : Chip) (nv : NonVol) (addr : Nat) (d : Delivery) : Chip :=
  if !c.msgMode then c.deliverGang nv addr d
  else
    let b := (c.gang.inboxOf addr).getD { addr := addr, next := d.gseq, waiting := [] }
    if signedMod 32 ((d.gseq : Int) - (b.next : Int)) < 0 then c.deliverGang nv addr d
    else
      let c := c.setInbox { b with waiting := b.waiting ++ [(c.time.c.toNat, d)] }
      c.flushInbox nv (2 * b.waiting.length + 4) addr

/-- Every inbox is looked at again. -/
def Chip.flushAll (c : Chip) (nv : NonVol) : Chip :=
  c.gang.inbox.foldl (fun c b => c.flushInbox nv (2 * b.waiting.length + 4) b.addr) c

/-- R389: a `RELAY_REPLY` arrives at the apex. A higher system epoch in its reply is adopted (R416); a message of a higher gang
epoch ends the apex's role (R377, R380). -/
def Chip.relayReplyReceived (c : Chip) (nv : NonVol) (bytes : List Byte) : Chip :=
  match c.gangIn nv 0x05 bytes with
  | (c, some (m, .fresh)) =>
    if c.gang.role != .apex then c
    else
      let c := c.inboxPut nv m.src (.reply m.gseq (fieldBE m.body 0 4) (m.body.drop 4))
      let c := (c.flushAll nv).seeEpoch (parseReply (m.body.drop 4)).epoch
      if c.gangEpoch < m.epoch then ((c.setGangEpoch m.epoch).leaveApex).enterFenced else c
  | (c, _) => c

/-- R385, R386: a `SIGNAL` arrives at the apex; it and its repeats draw an `ACK`. -/
def Chip.signalReceived (c : Chip) (nv : NonVol) (bytes : List Byte) : Chip :=
  match c.gangIn nv 0x06 bytes with
  | (c, some (m, j)) =>
    if c.gang.role != .apex || j == .old then c
    else
      let (c, a) := c.formGang nv 0x07 m.src (bytesBE 4 m.gseq)
      let c := c.sendGang a
      if j = .fresh then (c.inboxPut nv m.src (.signal m.gseq m.body)).flushAll nv else c
  | (c, none) => c

/-! Members: status and signals (R382, R385). -/

/-- `STATE` as R363 codes it. -/
def stateCode : DevState → Nat
  | .off => 0 | .reset => 1 | .boot => 2 | .stopped => 3 | .running => 4 | .updating => 5 | .dormant => 6 | .fenced => 7
  | .recovery => 8

/-- Words 0 to 2 of a member's own record (R410). -/
def Chip.statusWords (c : Chip) : List Nat :=
  let prio := (c.evq.map (fun e => e.prio)).foldl min 7
  [nodeId c + stateCode c.st * 2 ^ 16 + c.get ERR_STATUS.DEGRADED * 2 ^ 22 + (if c.timeValid then 2 ^ 23 else 0)
      + (if c.evq.isEmpty then 0 else prio) * 2 ^ 24 + (if c.evq.isEmpty then 0 else 2 ^ 27),
    c.epoch, bootId c]

/-- R380, R382: a `POLL` arrives; the member's `STATUS` is due. -/
def Chip.pollReceived (c : Chip) (nv : NonVol) (bytes : List Byte) : Chip :=
  match c.gangIn nv 0x01 bytes with
  | (c, some (m, .fresh)) =>
    let prio := match c.gang.peer m.src with | some p => p.prio | none => none
    let c := c.hearApex m.epoch m.src prio
    if c.gang.role == .apex then c else c.setGang { c.gang with statusDue := some m.src }
  | (c, _) => c

/-- R382: the `STATUS` is sent. -/
def Chip.statusSend (c : Chip) (nv : NonVol) : Chip :=
  match c.gang.statusDue with
  | none => c
  | some a =>
    if !c.inGang then c
    else
      let c := c.setGang { c.gang with statusDue := none }
      let (c, m) := c.formGang nv 0x02 a (c.statusWords.flatMap (bytesBE 4))
      c.sendGang m

/-- An event record as its 24 bytes (R366). -/
def EventRec.bytes (e : EventRec) : List Byte :=
  bytesBE 2 e.type ++ [byteOf e.prio, byteOf e.cause] ++ bytesBE 4 e.id ++ bytesBE 2 e.unit ++ bytesBE 2 e.argA
    ++ bytesBE 2 e.argB ++ bytesBE 2 0 ++ bytesBE 4 e.frame ++ bytesBE 4 e.value

/-- R385, R386: the events placed in the step are signalled, after the replies of the step. A member that has heard no
`POLL` sends none (R375). -/
def Chip.flushSignals (c : Chip) (nv : NonVol) : Chip :=
  let l := c.gang.toSignal
  if l.isEmpty then c
  else
    let c := c.setGang { c.gang with toSignal := [] }
    if !(c.inGang && c.bit GNG_STATUS.APEX_KNOWN && c.heardBoot (c.get GNG_STATUS.APEX_ADDR)) then c
    else l.foldl (fun c e =>
      let g := c.gang.gseq
      let (c, m) := c.formGang nv 0x06 (c.get GNG_STATUS.APEX_ADDR) e.bytes
      (c.setGang { c.gang with signals := c.gang.signals ++ [⟨g, m, 1⟩] }).sendGang m) c

/-- R385: an unacknowledged `SIGNAL` is resent, or given up after `LINK_TRIES` sends. -/
def Chip.signalResend (c : Chip) (gseq : Nat) : Chip :=
  match c.gang.signals.find? (fun s => s.gseq == gseq) with
  | none => c
  | some s =>
    if s.tries < max 1 (c.get GNG_TIMING.LINK_TRIES) then
      (c.setGang { c.gang with signals := c.gang.signals.map (fun x => if x.gseq = gseq then { x with tries := x.tries + 1 } else x) }).sendGang s.bytes
    else c.setGang { c.gang with signals := c.gang.signals.filter (fun x => x.gseq != gseq) }

/-- R385: an `ACK` arrives. -/
def Chip.ackReceived (c : Chip) (nv : NonVol) (bytes : List Byte) : Chip :=
  match c.gangIn nv 0x07 bytes with
  | (c, some (m, .fresh)) =>
    c.setGang { c.gang with signals := c.gang.signals.filter (fun x => x.gseq != fieldBE m.body 0 4) }
  | (c, _) => c

/-! The apex: polling and the member table (R373, R382 to R384). -/

/-- `MEMBERS` and the present bits. -/
def Chip.showMembers (c : Chip) : Chip :=
  let on := c.gang.members.filter (fun m => m.present)
  let word := fun w => ((List.range 32).map (fun b => if on.any (fun m => m.addr == 32 * w + b) then 2 ^ b else 0)).sum
  ((c.put GNG_STATUS.MEMBERS on.length).put (GNG_PRESENT.PRESENT 0) (word 0)).put (GNG_PRESENT.PRESENT 1) (word 1)

def Chip.setMember (c : Chip) (m : Member) : Chip :=
  c.setGang { c.gang with members := m :: c.gang.members.filter (fun x => x.addr != m.addr) }

def evtPend (a : Nat) : Fld := (GNG_EVTPEND.EVTPEND (a / 32)).bit (a % 32)

/-- R383, R384: a `STATUS` arrives at the apex and is recorded. -/
def Chip.statusReceived (c : Chip) (nv : NonVol) (bytes : List Byte) : Chip :=
  match c.gangIn nv 0x02 bytes with
  | (c, some (m, .fresh)) =>
    if c.gang.role != .apex then c
    else
      let boot := fieldBE m.body 8 4
      let old := (c.gang.member m.src).getD
        { addr := m.src, words := [], present := false, silent := false, duplicate := false, misses := 0, heardC := 0,
          boots := [], single := 0, evtAny := false }
      let w0 := fieldBE m.body 0 4
      let c := c.setMember { old with words := [w0, fieldBE m.body 4 4, boot], heardC := c.time.c.toNat, boots := boot :: old.boots.filter (· != boot) }
      let c := if w0.testBit 27 then c else c.putB (evtPend m.src) false
      if c.msgMode then c.inboxPut nv m.src (.nothing m.gseq) else c
  | (c, _) => c

def Chip.missLimit (c : Chip) : Nat := max 1 (c.get GNG_TIMING.MISS_LIMIT)

/-- R373, R383, R393: what the `POLL` instant decides of one member. -/
def Chip.pollMember (c : Chip) (nv : NonVol) (m : Member) : Chip :=
  let node := m.words.getD 0 0 % 2 ^ 16
  if m.boots.isEmpty then
    if !m.present then c
    else
      let m := { m with misses := m.misses + 1, single := 0 }
      if c.missLimit ≤ m.misses ∧ m.silent = false then
        let c := (c.setMember { m with silent := true }).raiseGang 1 m.addr node
        (c.gang.relays.filter (fun r => r.addr == m.addr)).foldl (fun c r => (c.dropRelay r.gseq).relayFailed nv r) c
      else c.setMember m
  else
    let twice := decide (2 ≤ m.boots.length)
    let single := if twice then 0 else m.single + 1
    let dup := twice || (m.duplicate && decide (single < c.missLimit))
    let any := (m.words.getD 0 0).testBit 27
    let c := c.setMember { m with present := true, silent := false, duplicate := dup, misses := 0, boots := [], single := single, evtAny := any }
    let c := if m.present then c else c.raiseGang 0 m.addr node
    let c := if m.present && m.silent then c.raiseGang 2 m.addr node else c
    let c := if twice then c.raiseGang 3 m.addr node else c
    if any && !m.evtAny then (c.putB (evtPend m.addr) true).raiseGang 5 m.addr node else c

/-- The members in the order of their addresses. -/
def Gang.inOrder (g : Gang) : List Member := (List.range 64).filterMap g.member

/-- R382: the apex decides the member table and sends `POLL`. -/
def Chip.poll (c : Chip) (nv : NonVol) : Chip :=
  if c.gang.role == .apex && c.inGang && c.st != .fenced then
    let c := (c.gang.inOrder.foldl (fun c m => c.pollMember nv m) c).showMembers
    let c := c.flushAll nv
    let (c, m) := c.formGang nv 0x01 0xFF (c.timeBytes ++ bytesBE 4 (bootId c))
    c.sendGang m
  else c

/-- R409: `FORGET` removes every silent address. -/
def Chip.forget (c : Chip) : Chip :=
  (c.setGang { c.gang with members := c.gang.members.filter (fun m => !m.silent) }).showMembers

/-- R410: the four words of a member's record. -/
def Chip.memberWords (c : Chip) (a : Nat) : List Nat :=
  match c.gang.member a with
  | none => [0, 0, 0, 0]
  | some m =>
    let w0 := m.words.getD 0 0
    let keep := w0 % 2 ^ 20 + w0 / 2 ^ 22 % 2 ^ 6 * 2 ^ 22
    [keep + (if m.present then 2 ^ 20 else 0) + (if m.silent then 2 ^ 21 else 0) + (if m.duplicate then 2 ^ 28 else 0),
      m.words.getD 1 0, m.words.getD 2 0,
      min 0xFFFF ((c.time.c.toNat - m.heardC) / 800000) + min 15 m.misses * 2 ^ 16]

/-- R410: reading word 0 of `GNG_MEMBERm` takes a snapshot of its four words. -/
def Chip.memberRead (c : Chip) (a : Nat) : Chip :=
  if a < 64 then c.putWords (0xB0100 + 0x10 * a) (c.memberWords a) else c

/-- R391: at G of a gang transaction in polled mode, each member is asked how its transaction ended. -/
def Chip.checkGang (c : Chip) (nv : NonVol) (id : Nat) : Chip :=
  match c.gang.txn id with
  | none => c
  | some t =>
    if c.msgMode || c.gang.role != .apex then c
    else (t.parts.filter (fun p => p.state == .scheduled)).foldl (fun c p =>
      let x : Cmd := { src := .host, port := 0, key := Fin.ofNat 8 t.key, noReply := false, opcode := 0x0023, gang := p.addr, tag := t.tag, txn := p.tid, epoch := c.epoch, seq := 0, node := 0, arg := 0, payload := [] }
      c.sendRelay nv p.addr x x none (.check id)) c

end Sys2Proof.Machine
end

