-- ==== Sys2Proof/Machine/Redundancy.lean ====
section
/-!
DEFINITION. Redundancy and takeover (R414 to R437): the director pair, snapshots and the journal, controlled swaps,
`ANNOUNCE` and substitution.
-/

namespace Sys2Proof.Machine

open Sys2Proof

def redCnt (o : Nat) : Nat := 0x100C00 + o

def Chip.pairState (c : Chip) : Nat := c.get RED_STATUS.PAIR_STATE
def Chip.setPairState (c : Chip) (n : Nat) : Chip := c.put RED_STATUS.PAIR_STATE n
def pairId (c : Chip) : Nat := c.get RED_ID.PAIR_ID
def unitIdx (c : Chip) : Nat := c.get RED_CTRL.UNIT_IDX
def Chip.hbMiss (c : Chip) : Nat := max 1 (c.get RED_CTRL.HB_MISS)

/-- Whether the unit runs as part of a pair (R420). -/
def Chip.paired (c : Chip) : Bool := c.bit RED_CTRL.PAIR_EN && c.ingests

/-! Messages (R418). -/

/-- R374, R418: a pair message is formed. -/
def Chip.formPair (c : Chip) (nv : NonVol) (kind dst : Nat) (body : List Byte) : Chip × List Byte :=
  let boot := match c.pair.peer with | some p => p.boot.getD 0 | none => 0
  let m := linkMsg 0x4C52 kind (pairId c) (unitIdx c) dst c.pair.gseq c.epoch (nv.keyAt (c.get RED_ID.KEY_SLOT)) boot body
  (c.setPair { c.pair with gseq := (c.pair.gseq + 1) % 2 ^ 32 }, m)

/-- A pair message goes to the peer; one that names the peer only once its `BOOT_ID` is known (R375). -/
def Chip.sendPeer (c : Chip) (nv : NonVol) (kind : Nat) (body : List Byte) : Chip :=
  if kind != 0x11 && c.pair.peer.isNone then c
  else
    let (c, m) := c.formPair nv kind (if kind = 0x11 then 0xFF else 1 - unitIdx c) body
    c.sendBoth (.pair kind m) (c.get128 (fun w => RED_PEER.RED_PEER w)) m.length

/-- R418: a message of the peer is taken: authentic, of this pair, for this unit, and new. -/
def Chip.pairIn (c : Chip) (nv : NonVol) (kind : Nat) (bytes : List Byte) : Chip × Option LinkIn :=
  match parseLink 0x4C52 bytes with
  | none => (c, none)
  | some m =>
    if !c.paired || m.kind != kind || m.id != pairId c || m.src == unitIdx c || (m.dst != 0xFF && m.dst != unitIdx c)
        || !m.authentic (nv.keyAt (c.get RED_ID.KEY_SLOT)) (bootId c) then (c, none)
    else
      let p := c.pair.peer.getD { addr := m.src, boot := none, high := none, bitmap := 0, prio := none }
      let (q, j) := p.take (if kind = 0x11 then some (fieldBE m.body 10 4) else none) m.gseq
      let c := c.setPair { c.pair with peer := if kind = 0x11 ∨ c.pair.peer.isSome then some q else none }
      let c := if p.boot = q.boot then c
        else c.setPair { c.pair with announcers := c.pair.announcers.filter (fun x => x.addr != m.id * 256 + m.src) }
      let c := if j = .fresh ∧ kind ≠ 0x11 ∧ kind ≠ 0x15 then c.seeEpoch m.epoch else c
      (c, if j = .fresh then some m else none)

/-! Substitution entries (R432, R433). -/

/-- The valid entries, 8 bytes each. -/
def Chip.substEntries (c : Chip) : List (List Byte) :=
  (List.range 16).filterMap (fun i =>
    if c.get (RED_SUBSTi_W0.OLD_NODE i) = 0 then none
    else some (bytesBE 2 (c.get (RED_SUBSTi_W0.OLD_NODE i)) ++ bytesBE 2 (c.get (RED_SUBSTi_W0.SPARE_NODE i))
      ++ bytesBE 4 (c.get (RED_SUBSTi_W1.SUB_EPOCH i))))

/-- R418: one `ANNOUNCE`. -/
def Chip.announceOnce (c : Chip) (nv : NonVol) : Chip :=
  let l := c.substEntries
  let (c, m) := c.formPair nv 0x16 0xFF (bytesBE 4 c.epoch ++ [byteOf l.length] ++ l.flatten)
  c.sendBoth (.pair 0x16 m) (c.get128 (fun w => RED_GROUP.RED_GROUP w)) m.length

/-- R421, R432: `ANNOUNCE` three times; the millisecond between them is timing (log entry 26). -/
def Chip.announce3 (c : Chip) (nv : NonVol) : Chip := ((c.announceOnce nv).announceOnce nv).announceOnce nv

/-- R432: whether this unit holds the substitution entries. -/
def Chip.holdsSubst (c : Chip) : Bool :=
  c.st != .fenced && (c.directs || (c.bit GNG_STATUS.IS_APEX && !c.bit RED_CTRL.PAIR_EN))

/-- R432: every second the holder sends its valid entries. -/
def Chip.announcePeriodic (c : Chip) (nv : NonVol) : Chip :=
  if c.holdsSubst && !c.substEntries.isEmpty then c.announceOnce nv else c

/-- R433: one entry of an `ANNOUNCE`, for a device that had node ID `own` and epoch `before`. Answers whether the device
has been replaced. -/
def Chip.substitute (c : Chip) (own before : Nat) (e : List Byte) : Chip × Bool :=
  let old := fieldBE e 0 2
  let spare := fieldBE e 2 2
  if old = 0 then (c, false)
  else if own = spare ∧ own ≠ 0 then ((c.put ID_NODE.NODE_ID old).raiseRed 3 old 0 0, false)
  else if own = old ∧ before < fieldBE e 4 4 then
    let c := (c.put ID_NODE.NODE_ID spare).nvOp (.nodeSetting (c.get FWU_STATUS.PRIMARY) spare)
    (c.nvOp (.fenceMark true), true)
  else (c, false)

/-- R433: the epoch of an accepted `ANNOUNCE` is adopted, and its entries are applied. -/
def Chip.applyAnnounce (c : Chip) (body : List Byte) : Chip :=
  let own := nodeId c
  let before := c.epoch
  let entries := (List.range (min 16 (fieldBE body 4 1))).map (fun i => sliceB body (5 + 8 * i) 8)
  let (c, replaced) := entries.foldl (fun (s : Chip × Bool) e =>
    let r := s.1.substitute own before e; (r.1, s.2 || r.2)) (c.seeEpoch (fieldBE body 0 4), false)
  if replaced && (c.st == .stopped || c.st == .running) then c.blankOutputs.takeReset causeCommand else c

/-- R422, R433, R434: an `ANNOUNCE` arrives. -/
def Chip.announceReceived (c : Chip) (nv : NonVol) (bytes : List Byte) : Chip :=
  match parseLink 0x4C52 bytes with
  | none => c
  | some m =>
    if !(c.ingests || (c.st == .boot && c.power.settingsIn && c.epoch != 0)) || m.kind != 0x16
        || !m.authentic (nv.keyAt (c.get RED_ID.KEY_SLOT)) (bootId c) then c
    else
      let a := m.id * 256 + m.src
      let p := (c.pair.announcers.find? (fun q => q.addr == a)).getD
        { addr := a, boot := none, high := none, bitmap := 0, prio := none }
      let (q, j) := p.take none m.gseq
      let c := c.setPair { c.pair with announcers := q :: c.pair.announcers.filter (fun x => x.addr != a) }
      if j = .fresh then c.applyAnnounce m.body else c

/-! The director state (R424 to R427). Its form inside a snapshot is the model's own (log entry 27). -/

/-- The time G of a transaction record (R418). -/
def recordDue (r : List Byte) : FullTime := ⟨fieldBE r 2 6, fieldBE r 8 4⟩

/-- R424: the director state as bytes: J_s, the 16 substitution entries, and the journal entries whose G has not passed. -/
def Chip.directorBytes (c : Chip) : List Byte :=
  let subst := (List.range 16).flatMap (fun i =>
    bytesBE 4 (c.reg (RED_SUBSTi_W0.OLD_NODE i).addr).toNat ++ bytesBE 4 (c.reg (RED_SUBSTi_W1.SUB_EPOCH i).addr).toNat)
  let open_ := c.pair.journal.filter (fun e => decide (c.now < FullTime.at (recordDue e.2)))
  bytesBE 4 c.pair.issued ++ subst ++ open_.flatMap (fun e => bytesBE 4 e.1 ++ bytesBE 4 e.2.length ++ e.2)

/-- The journal entries of director state bytes. -/
def entriesOf : Nat → List Byte → List JournalEntry
  | 0, _ => []
  | fuel + 1, l =>
    if l.length < 8 then [] else
      let n := fieldBE l 4 4
      (fieldBE l 0 4, sliceB l 8 n) :: entriesOf fuel (l.drop (8 + n))

/-- R427: the substitution entries of director state bytes come into force. -/
def Chip.takeSubst (c : Chip) (l : List Byte) : Chip :=
  (List.range 16).foldl (fun c i =>
    (c.setReg (RED_SUBSTi_W0.OLD_NODE i).addr (wordOf (fieldBE l (4 + 8 * i) 4))).setReg
      (RED_SUBSTi_W1.SUB_EPOCH i).addr (wordOf (fieldBE l (8 + 8 * i) 4))) c

/-- The number of the last journal entry that a snapshot includes. -/
def Pair.base (p : Pair) : Nat := match p.snap with | some s => s.journal | none => 0

/-- R426: the highest journal number held without a gap after `n`. -/
def contiguous (l : List JournalEntry) : Nat → Nat → Nat
  | 0, n => n
  | fuel + 1, n => if l.any (fun e => e.1 == n + 1) then contiguous l fuel (n + 1) else n

def Pair.held (p : Pair) : Nat := contiguous p.journal p.journal.length p.base
def Pair.top (p : Pair) : Nat := (p.journal.map (·.1)).foldl max p.base

/-- `J_HELD` and `JOURNAL_GAP` of a standby (R426). -/
def Chip.showJournal (c : Chip) : Chip :=
  let gap := decide (c.pair.held < c.pair.top)
  let c := (c.put RED_JOURNAL.J_HELD c.pair.held).putB RED_STATUS.JOURNAL_GAP gap
  if gap then c.raiseRed 6 (pairId c) 0 0 else c

/-- R418: the standby's `ACK`. -/
def Chip.pairAck (c : Chip) (nv : NonVol) : Chip :=
  c.sendPeer nv 0x14 (bytesBE 4 (c.get RED_SNAP.SNAP_SEQ) ++ bytesBE 4 c.pair.held)

/-- R424: the data that a `SNAP_PART` carries: as much as `MAX_LEN` allows, at most 8,192 bytes. -/
def Chip.partSize (c : Chip) : Nat :=
  let ip := c.get128 (fun w => RED_PEER.RED_PEER w)
  let room := fun p : PortIx => c.maxLen p - (c.udpLen p ip 1024 - 1024) - 52
  max 1 (min 8192 (min (room 0) (room 1)))

/-- R424: a snapshot of the director state is sent whole. -/
def Chip.snapshot (c : Chip) (nv : NonVol) : Chip :=
  let data := c.directorBytes
  let seq := (c.get RED_SNAP.SNAP_SEQ + 1) % 2 ^ 32
  let size := c.partSize
  let count := (data.length + size - 1) / size
  let crc := crc32 (data.map (·.toNat))
  let c := (List.range count).foldl (fun c i =>
    c.sendPeer nv 0x12 (bytesBE 4 seq ++ bytesBE 2 i ++ bytesBE 2 count ++ bytesBE 4 data.length ++ bytesBE 4 crc
      ++ sliceB data (size * i) size)) c
  ((c.setPair { c.pair with sinceSnap := 0, snapC := c.time.c.toNat }).put RED_SNAP.SNAP_SEQ seq).bump (redCnt 0x08) 1

/-- R424: `SNAP_MS` has passed since the last snapshot, or `SNAP_JOURNAL` journal entries have been made since it. -/
def Chip.snapDue (c : Chip) : Bool :=
  decide (c.pair.snapC + max 1 (c.get RED_SNAP_CFG.SNAP_MS) * 800000 ≤ c.time.c.toNat)
    || decide (min 1024 (max 1 (c.get RED_SNAP_CFG.SNAP_JOURNAL)) ≤ c.pair.sinceSnap)

/-- `SNAPSHOT_SEND` (R424): a snapshot that is due is sent. -/
def Chip.snapshotSend (c : Chip) (nv : NonVol) : Chip :=
  if c.directs && c.paired && c.snapDue then c.snapshot nv else c

/-- R425: a journal entry is sent. -/
def Chip.sendEntry (c : Chip) (nv : NonVol) (e : JournalEntry) : Chip := c.sendPeer nv 0x13 (bytesBE 4 e.1 ++ e.2)

/-- `JOURNAL_ISSUE` (R425): a transaction whose members have all answered enters the journal, also one whose answers come
while a swap waits (R428 stops the issue of new ones). -/
def Chip.journalIssue (c : Chip) (nv : NonVol) (record : List Byte) : Chip :=
  if c.directs && c.paired then
    let n := (c.pair.issued + 1) % 2 ^ 32
    let l := c.pair.journal ++ [(n, record)]
    let c := c.setPair { c.pair with issued := n, journal := l.drop (l.length - 1024), sinceSnap := c.pair.sinceSnap + 1 }
    ((c.put RED_JOURNAL.J_HELD n).bump (redCnt 0x18) 1).sendEntry nv (n, record)
  else c

/-- R427: the journal and the entries lost when a standby becomes active. -/
def Chip.rebuild (c : Chip) : Chip :=
  let p := c.pair
  let held := p.held
  let c := if p.snapIn.isSome then c.bump (redCnt 0x10) 1 else c
  let first := match p.snap with | some _ => held | none => 0
  let lost := match p.snap with | some _ => p.top - first | none => p.journal.length
  let first := match p.snap with
    | some _ => first
    | none => (p.journal.map (·.1)).foldl min p.top - 1
  let base := match p.snap with | some s => entriesOf s.data.length (s.data.drop 132) | none => []
  let keep := match p.snap with | some _ => p.journal.filter (fun e => decide (e.1 ≤ held)) | none => []
  let c := match p.snap with | some s => c.takeSubst s.data | none => c
  let c := c.setPair { p with journal := base ++ keep, issued := max held p.top, snapIn := none, sinceSnap := 0, swap := .none, snapC := c.time.c.toNat, activeC := c.time.c.toNat, ackSnap := 0, ackJournal := 0, misses := 0 }
  let c := (c.put RED_LOSS.LOST_COUNT (min lost 0xFFFF)).put RED_LOSS_FIRST.LOST_FIRST (if lost = 0 then 0 else first + 1)
  ((c.put RED_JOURNAL.J_HELD c.pair.issued).putB RED_STATUS.JOURNAL_GAP false)

/-- R421: a takeover. -/
def Chip.takeOver (c : Chip) (nv : NonVol) : Chip :=
  let c := c.setEpoch ((c.epoch + 1) % 2 ^ 32)
  let c := ((c.announce3 nv).rebuild).setPairState 3
  (c.bump (redCnt 0x28) 1).raiseRed 0 (pairId c) (c.get RED_LOSS.LOST_COUNT) (c.get RED_LOSS_FIRST.LOST_FIRST)

/-- R420: a unit with `PAIR_EN` at 1 that enters Stopped starts. -/
def Chip.startPair (c : Chip) : Chip :=
  if c.bit RED_CTRL.PAIR_EN then
    (c.setPair { c.pair with peerState := 0, peerEpoch := 0, misses := 0, swap := .none }).setPairState 1
  else c.setPairState 0

/-! Heartbeats (R419, R420). -/

/-- R419, R425: a `HEARTBEAT` is sent; an active resends what its standby has not acknowledged. -/
def Chip.heartbeatSend (c : Chip) (nv : NonVol) : Chip :=
  if !c.paired then c
  else
    let c := c.sendPeer nv 0x11 ([byteOf c.pairState] ++ bytesBE 4 (c.get RED_SNAP.SNAP_SEQ)
      ++ bytesBE 4 (c.get RED_JOURNAL.J_HELD) ++ [if c.timeValid then 1#8 else 0#8] ++ bytesBE 4 (bootId c))
    if c.pairState = 3 ∧ c.pair.ackJournal < c.pair.issued then
      if c.pair.journal.any (fun e => e.1 == c.pair.ackJournal + 1) then
        (c.pair.journal.filter (fun e => decide (c.pair.ackJournal < e.1))).foldl
          (fun c e => (c.sendEntry nv e).bump (redCnt 0x20) 1) c
      else c.snapshot nv
    else c

/-- R417, R419, R420: a `HEARTBEAT` of the peer arrives. A starting unit that hears an active peer whose epoch is at least its
own becomes standby. -/
def Chip.heartbeatReceived (c : Chip) (nv : NonVol) (bytes : List Byte) : Chip :=
  match c.pairIn nv 0x11 bytes with
  | (c, none) => c
  | (c, some m) =>
    let ps := fieldBE m.body 0 1
    let equal := m.epoch == c.epoch
    let c := (c.setPair { c.pair with misses := 0, peerState := ps, peerEpoch := m.epoch }).put RED_STATUS.PEER_UP 1
    let hears := decide (c.epoch ≤ m.epoch) && (ps == 3 || ps == 4)
    let c := c.seeEpoch m.epoch
    if c.pairState = 1 ∧ hears = true then c.setPairState 2
    else if equal && (c.pairState == 3 || c.pairState == 4) && (ps == 3 || ps == 4) && unitIdx c == 1 then c.setPairState 2
    else if c.pairState = 4 ∧ ps = 2 then c.setPairState 3
    else c

/-- R419, R420: `HB_MS` passes without a heartbeat. -/
def Chip.hbMissed (c : Chip) (nv : NonVol) : Chip :=
  if !c.paired || c.pairState == 0 || c.pairState == 5 then c
  else
    let n := c.pair.misses + 1
    let c := (c.setPair { c.pair with misses := n }).bump (redCnt 0x00) 1
    if n = c.hbMiss ∨ (c.hbMiss < n ∧ c.bit RED_STATUS.PEER_UP = true) then
      let c := (c.put RED_STATUS.PEER_UP 0).raiseRed 4 (pairId c) 0 0
      let c := c.setPair { c.pair with peerState := 0 }
      match c.pairState with
      | 2 => c.takeOver nv
      | 3 => c.setPairState 4
      | _ => c
    else c

/-- R420: the listen of a unit that is still starting ends. -/
def Chip.listenEnd (c : Chip) (nv : NonVol) : Chip := if c.paired && c.pairState == 1 then c.takeOver nv else c

/-! The standby (R426). -/

/-- R426: every part of a snapshot has arrived. -/
def Chip.snapWhole (c : Chip) (nv : NonVol) (x : SnapIn) : Chip :=
  let data := (List.range x.count).flatMap (fun i =>
    match x.parts.find? (fun p => p.1 == i) with | some p => p.2 | none => [])
  let c := c.setPair { c.pair with snapIn := none }
  if data.length = x.length ∧ crc32 (data.map (·.toNat)) = x.crc then
    let js := fieldBE data 0 4
    let c := c.setPair { c.pair with snap := some ⟨x.seq, js, data⟩, journal := c.pair.journal.filter (fun e => decide (js < e.1)) }
    (((c.put RED_SNAP.SNAP_SEQ x.seq).bump (redCnt 0x08) 1).showJournal).pairAck nv
  else (c.bump (redCnt 0x10) 1).raiseRed 5 (pairId c) 0 0

/-- R426: a part of a snapshot arrives. A part of another snapshot than the one under way begins anew. -/
def Chip.snapPart (c : Chip) (nv : NonVol) (bytes : List Byte) : Chip :=
  match c.pairIn nv 0x12 bytes with
  | (c, none) => c
  | (c, some m) =>
    if c.pairState != 2 then c
    else
      let b := m.body
      let new : SnapIn := { seq := fieldBE b 0 4, count := fieldBE b 6 2, length := fieldBE b 8 4, crc := fieldBE b 12 4, parts := [] }
      let (c, x) := match c.pair.snapIn with
        | some y => if y.seq = new.seq then (c, y) else (c.bump (redCnt 0x10) 1, new)
        | none => (c, new)
      let x := { x with parts := (fieldBE b 4 2, b.drop 16) :: x.parts.filter (fun p => p.1 != fieldBE b 4 2) }
      if (List.range x.count).all (fun i => x.parts.any (fun p => p.1 == i)) then c.snapWhole nv x
      else c.setPair { c.pair with snapIn := some x }

/-- R425, R426: a journal entry arrives. One that is held already is acknowledged again. -/
def Chip.journalReceived (c : Chip) (nv : NonVol) (bytes : List Byte) : Chip :=
  match c.pairIn nv 0x13 bytes with
  | (c, none) => c
  | (c, some m) =>
    let n := fieldBE m.body 0 4
    if c.pairState != 2 then c
    else if n ≤ c.pair.base ∨ c.pair.journal.any (fun e => e.1 == n) = true then c.pairAck nv
    else if 4096 ≤ c.pair.journal.length then c
    else
      let c := c.setPair { c.pair with journal := c.pair.journal ++ [(n, m.body.drop 4)] }
      ((c.bump (redCnt 0x18) 1).showJournal).pairAck nv

/-! Controlled swaps (R428, R429). -/

/-- R428: whether a swap may start. -/
def Chip.swapReady (c : Chip) : Bool :=
  c.pairState == 3 && c.bit RED_STATUS.PEER_UP && c.pair.peerState == 2 && c.pair.ackSnap == c.get RED_SNAP.SNAP_SEQ
    && decide (c.pair.issued ≤ c.pair.ackJournal) && c.pair.swap == .none

/-- R428: a write of 1 to `SWAP_NOW`; answers whether the swap started. -/
def Chip.swapNow (c : Chip) (nv : NonVol) : Chip × Bool :=
  if c.swapReady then
    let c := c.snapshot nv
    (c.setPair { c.pair with swap := .waiting (c.get RED_SNAP.SNAP_SEQ) }, true)
  else (c, false)

/-- R428, step 3: the active becomes standby and sends `SWAP`. -/
def Chip.swapHandOver (c : Chip) (nv : NonVol) : Chip :=
  let c := ((c.setEpoch ((c.epoch + 1) % 2 ^ 32)).setPairState 2).setPair { c.pair with swap := .none, snap := none, journal := [] }
  let c := c.sendPeer nv 0x15 (bytesBE 4 c.epoch)
  (c.bump (redCnt 0x28) 1).raiseRed 2 (pairId c) 0 0

/-- R425, R428: the standby's `ACK` arrives. -/
def Chip.pairAckReceived (c : Chip) (nv : NonVol) (bytes : List Byte) : Chip :=
  match c.pairIn nv 0x14 bytes with
  | (c, none) => c
  | (c, some m) =>
    if !c.directs then c
    else
      let c := c.setPair { c.pair with ackSnap := fieldBE m.body 0 4, ackJournal := fieldBE m.body 4 4 }
      match c.pair.swap with
      | .waiting seq =>
        if c.pair.ackSnap = seq ∧ c.pair.issued ≤ c.pair.ackJournal then c.swapHandOver nv else c
      | .none => c

/-- R428, step 4: the standby receives `SWAP` and becomes active. -/
def Chip.swapReceived (c : Chip) (nv : NonVol) (bytes : List Byte) : Chip :=
  match c.pairIn nv 0x15 bytes with
  | (c, none) => c
  | (c, some m) =>
    if c.pairState != 2 then c
    else
      let c := c.setEpoch (max c.epoch (fieldBE m.body 0 4))
      let c := ((c.rebuild).setPairState 3).announce3 nv
      (c.bump (redCnt 0x28) 1).raiseRed 2 (pairId c) 0 0

/-- R428: the `ACK` of a swap has not arrived within 1 s. -/
def Chip.swapFail (c : Chip) : Chip :=
  match c.pair.swap with
  | .waiting _ => (c.setPair { c.pair with swap := .none }).raiseRed 7 (pairId c) 0 0
  | .none => c

/-- The ticks of an hour. -/
def hourTicks : Nat := 2880000000000

/-- R429: `SWAP_EVERY` hours have passed since the unit became active. -/
def Chip.swapEvery (c : Chip) (nv : NonVol) : Chip :=
  let n := c.get RED_ID.SWAP_EVERY
  if n = 0 ∨ c.time.c.toNat < c.pair.activeC + n * hourTicks then c else (c.swapNow nv).1

/-- R431: a write of 1 to `REPROVISION`. -/
def Chip.reprovision (c : Chip) : Chip :=
  if c.st = .fenced then
    let c := (c.enterStopped.put RED_EVENT.FENCED 0).nvOp (.fenceMark false)
    c.startPair
  else c

end Sys2Proof.Machine
end

