-- ==== Sys2Proof/Machine/Bridge.lean ====
section
/-!
DEFINITION. The bridge (R396 to R405): DMX packets in and out, RDM requests, the port semaphores, and their results.
-/

namespace Sys2Proof.Machine

open Sys2Proof

def brgCnt (p o : Nat) : Nat := 0x100B00 + 0x40 * p + o

/-- R412: the `BRIDGE` event of bit `b` of `BRG_PORTp_EVENT`. -/
def Chip.raiseBrg (c : Chip) (p b : Nat) : Chip :=
  c.raise ⟨0xA0014 + 0x20 * p, b, 1⟩ (fun c => c.event 0x0015 4 (b + 1) p 0 0 0)

/-- `MODE` of a port; 0b11 acts as off. -/
def Chip.dmxMode (c : Chip) (p : Nat) : Nat :=
  match c.get (BRG_PORTp_CFG.MODE p) with | 1 => 1 | 2 => 2 | _ => 0

/-- R402: whether RDM runs on the port. -/
def Chip.rdmPort (c : Chip) (p : Nat) : Bool := decide (p < 4) && c.dmxMode p == 1 && c.bit (BRG_PORTp_CFG.RDM_EN p)

/-- `BRG_PORTp_STATUS`. -/
def Chip.showDmx (c : Chip) (p : Nat) : Chip :=
  let d := c.dmxPort p
  let busy := !d.runq.isEmpty && (match d.phase with | .sent | .timerWait => true | _ => false)
  let c := (c.putB (BRG_PORTp_STATUS.RDM_BUSY p) busy).putB (BRG_PORTp_STATUS.SEM_HELD p) d.holder.isSome
  let c := c.put (BRG_PORTp_STATUS.SEM_KEY p) (match d.holder with | some (k, _) => k | none => 0)
  (c.put (BRG_PORTp_STATUS.SEM_QUEUE p) d.waiting.length).put (BRG_PORTp_STATUS.UIDS p) d.uids.length

/-- A DMX port changes and its status with it. -/
def Chip.putDmx (c : Chip) (p : Nat) (d : DmxPort) : Chip := (c.setDmxPort p d).showDmx p

/-! Packets (R397, R398, R401). -/

/-- R397, R401: the slots of a packet: the output buffer, with `IDLE_LEVEL` where no rule has written. -/
def Chip.packetSlots (c : Chip) (p : Nat) : List Nat :=
  let idle := c.get (BRG_PORTp_CFG.IDLE_LEVEL p)
  (List.range (c.get (BRG_PORTp_CFG.SLOTS p))).map (fun s =>
    (smGet (fun _ => none) (c.dmxPort p).out (s + 1)).getD idle)

/-- A request's parameter ID (R403). -/
def RdmReq.pid (r : RdmReq) : Nat := fieldBE r.cmd.payload 10 2
def RdmReq.kind (r : RdmReq) : Nat := fieldBE r.cmd.payload 1 1
def RdmReq.uid (r : RdmReq) : Nat := fieldBE r.cmd.payload 2 6
/-- A broadcast UID expects no response (R403). -/
def RdmReq.broadcast (r : RdmReq) : Bool := r.kind != 0x03 && decide (r.uid % 2 ^ 32 = 0xFFFFFFFF)

/-- R402: the first request is sent after a packet. One to the broadcast UID ends with it. -/
def Chip.sendRdm (c : Chip) (p : Nat) : Chip :=
  let d := c.dmxPort p
  match d.runq, d.phase with
  | r :: _, .queued =>
    let c := c.bump (brgCnt p 0x18) 1
    let base := { d with startC := c.time.c.toNat, joined := [] }
    if r.broadcast then
      c.putDmx p { base with phase := .done .ok 0 0 ([byteOf p, byteOf r.kind, 0x10#8, 0#8] ++ bytesBE 6 r.uid ++ bytesBE 2 r.pid ++ [0#8]) }
    else c.putDmx p { base with phase := .sent }
  | _, _ => c

/-- R397, R401, R402: a send instant of an output port. -/
def Chip.dmxSend (c : Chip) (p : Nat) : Chip :=
  if p < 4 ∧ c.dmxMode p = 1 ∧ c.bridgeLive = true ∧ c.ingests = true then
    let d := c.dmxPort p
    let out := d.toIdle.foldl (fun m s => smSet (fun _ => none) m s none) d.out
    let c := c.setDmxPort p { d with out := out, toIdle := [], lastSend := some c.now }
    let late := !d.runq.isEmpty && d.phase == .sent
    let c := c.setDmxPort p { c.dmxPort p with delayed := late }
    let c := if late then c.raiseBrg p 3 else c
    let c := (c.setDmxPort p { c.dmxPort p with sent := c.packetSlots p }).bump (brgCnt p 0x00) 1
    c.sendRdm p
  else c

/-- R398: a packet on an input port. -/
def Chip.dmxReceive (c : Chip) (p : Nat) (breakShort framing : Bool) (startCode : Nat) (slots : List Byte) : Chip :=
  if p < 4 ∧ c.dmxMode p = 2 ∧ c.bridgeLive = true then
    if breakShort then (c.bump (brgCnt p 0x10) 1).raiseBrg p 1
    else if framing then (c.bump (brgCnt p 0x10) 1).raiseBrg p 0
    else if startCode = 0 then (c.bump (brgCnt p 0x08) 1).dmxInput p (slots.map (·.toNat))
    else if startCode = 0xCC then c
    else c.bump (brgCnt p 0x08) 1
  else c

/-! Requests (R403, R404). -/

/-- The requester of a request: its key slot and its source, the gang link as one (R388). -/
def RdmReq.who (r : RdmReq) : Nat × Source :=
  (r.cmd.key.val, match r.cmd.src with | .gang .. => .gang 0 0 | s => s)

/-- R404: who holds the semaphore: under a lease, or for the duration of the request that runs. -/
def DmxPort.held (d : DmxPort) : Option (Nat × Source) :=
  match d.holder with
  | some h => some h
  | none => (d.runq.head?).map RdmReq.who

/-- The result of a request that needs no RDM. -/
def Chip.localResult (c : Chip) (p : Nat) (r : RdmReq) : List Byte :=
  let d := c.dmxPort p
  if r.kind = 0x04 then
    let page := fieldBE r.cmd.payload 2 1
    let l := (d.uids.drop (16 * page)).take 16
    [byteOf p, 4#8, byteOf page, byteOf l.length] ++ l.flatMap (bytesBE 6)
  else [byteOf p, byteOf r.kind]

/-- R405: the final `BRIDGE_RESULT` of a request; a posted request that failed is reported (R392). -/
def Chip.bridgeFinal (c : Chip) (nv : NonVol) (p : Nat) (r : RdmReq) (st : Status) (reason detail : Nat)
    (payload : List Byte) : Chip :=
  let c := if st = .farFailed then c.bump (brgCnt p 0x20) 1 else c
  let c := if st = .farFailed ∧ r.cmd.noReply = true then
      c.farFailed false r.cmd.tag r.cmd.txn 0xFFFF reason detail p else c
  let body := if st = .farFailed then bytesBE 4 (reason + detail % 2 ^ 16 * 2 ^ 8) ++ [byteOf p, byteOf r.kind] else payload
  c.finalReply nv r.cmd r.key 0x0091 st 0 body

/-- R404: a request whose turn has come: a semaphore is taken or released at once, and RDM joins the requests that run. -/
def Chip.runRequest (c : Chip) (nv : NonVol) (p : Nat) (r : RdmReq) : Chip :=
  let d := c.dmxPort p
  if r.kind = 0x05 then (c.putDmx p { d with holder := some r.who }).bridgeFinal nv p r .ok 0 0 (c.localResult p r)
  else if r.kind = 0x06 then
    (c.putDmx p { d with holder := if d.holder = some r.who then none else d.holder }).bridgeFinal nv p r .ok 0 0 (c.localResult p r)
  else if r.kind = 0x04 then c.bridgeFinal nv p r .ok 0 0 (c.localResult p r)
  else if !c.bridgeLive then c.bridgeFinal nv p r .farFailed 0x01 r.pid []
  else c.putDmx p { d with runq := d.runq ++ [r], phase := if d.runq.isEmpty then .queued else d.phase }

/-- R404: the waiting requests whose turn has come. -/
def Chip.promoteLoop (nv : NonVol) (p : Nat) : Nat → Chip → Chip
  | 0, c => c
  | n + 1, c =>
    let d := c.dmxPort p
    match d.waiting with
    | [] => c
    | r :: l =>
      if d.held.isNone || d.held == some r.who then
        promoteLoop nv p n ((c.putDmx p { d with waiting := l }).runRequest nv p r)
      else c

/-- The port's waiting requests are looked at again, at most `n` of them. -/
def Chip.promote (c : Chip) (nv : NonVol) (p n : Nat) : Chip := Chip.promoteLoop nv p n c

/-- R403: whether a `BRIDGE_REQ` has the length of its kind (step 9 of R342). -/
def bridgeLength (l : List Byte) : Bool :=
  match fieldBE l 1 1 with
  | 0x01 | 0x02 => decide (13 ≤ l.length) && l.length == 13 + fieldBE l 12 1
  | 0x04 => l.length == 3
  | 0x03 | 0x05 | 0x06 => l.length == 2
  | _ => true

/-- R403, R404: `BRIDGE_REQ` after its length checks: a status that refuses it, or `PENDING` and its queueing. -/
def Chip.bridgeReq (c : Chip) (nv : NonVol) (cmd : Cmd) (key : Option (List Byte)) : Chip :=
  let p := fieldBE cmd.payload 0 1
  let kind := fieldBE cmd.payload 1 1
  let r : RdmReq := { cmd := cmd, key := key }
  let d := c.dmxPort p
  if !c.rdmPort p || kind == 0 || decide (6 < kind) || (kind == 4 && decide (15 < fieldBE cmd.payload 2 1)) then
    c.reply nv cmd key .badAddress cmd.txn 0 []
  else if d.held.isNone || d.held == some r.who then
    (c.reply nv cmd key .pending cmd.txn 0 []).runRequest nv p r
  else if d.waiting.length < 8 then
    let c := c.reply nv cmd key .pending cmd.txn 0 []
    c.putDmx p { c.dmxPort p with waiting := (c.dmxPort p).waiting ++ [r] }
  else c.reply nv cmd key .busy cmd.txn 0 []

/-! Responses (R402, R405). -/

def farDone (reason detail : Nat) : RdmPhase := .done .farFailed reason detail []

/-- R405: the response to the request that runs on port `p`, or the end of its wait. -/
def Chip.rdmResponse (c : Chip) (p : Nat) (resp : RdmResp) : Chip :=
  let d := c.dmxPort p
  match d.runq, d.phase with
  | r :: _, .sent =>
    match resp with
    | .none => c.putDmx p { d with phase := farDone 0x01 r.pid }
    | .bad => c.putDmx p { d with phase := farDone 0x03 r.pid }
    | .nack reason => c.putDmx p { d with phase := farDone 0x02 reason }
    | .timer _ => if r.kind = 0x03 then c else c.putDmx p { d with phase := .timerWait }
    | .overflow l =>
      if r.kind = 0x03 then c
      else if 243 < d.joined.length + l.length then c.putDmx p { d with phase := farDone 0x06 r.pid }
      else c.putDmx p { d with joined := d.joined ++ l }
    | .ack uid pid l =>
      let data := d.joined ++ l
      if r.kind = 0x03 then c
      else if 243 < data.length then c.putDmx p { d with phase := farDone 0x06 r.pid }
      else
        let body := [byteOf p, byteOf r.kind, 0#8, 0#8] ++ bytesBE 6 uid ++ bytesBE 2 pid ++ [byteOf data.length] ++ data
        c.putDmx p { d with phase := .done .ok 0 0 body }
    | .found l =>
      if r.kind = 0x03 then
        let u := (l.map (· % 2 ^ 48)).take 256
        let tooMany := decide (256 < l.length)
        let body := [byteOf p, 3#8] ++ bytesBE 2 u.length ++ [if tooMany then 1#8 else 0#8]
        c.putDmx p { d with uids := u, uidOverflow := tooMany, phase := .done .ok 0 0 body }
      else c
  | _, _ => c

/-- R405: the responder's ACK_TIMER wait ends: GET QUEUED_MESSAGE is sent, or `ACK_TIMER_MAX` has passed. -/
def Chip.ackTimerEnd (c : Chip) (p : Nat) : Chip :=
  let d := c.dmxPort p
  match d.runq, d.phase with
  | r :: _, .timerWait =>
    if c.get BRG_RDM.ACK_TIMER_MAX * 80000000 ≤ c.time.c.toNat - d.startC then c.putDmx p { d with phase := farDone 0x08 r.pid }
    else (c.bump (brgCnt p 0x18) 1).putDmx p { d with phase := .sent }
  | _, _ => c

/-- R405: an RDM transaction ends: its final `BRIDGE_RESULT` is sent and the next request has its turn. A fenced bridge ends
every transaction with `NO_RESPONSE` (R452). -/
def Chip.bridgeResult (c : Chip) (nv : NonVol) (p : Nat) : Chip :=
  let d := c.dmxPort p
  match d.runq with
  | [] => c
  | r :: l =>
    let next := { d with runq := l, phase := .queued, joined := [] }
    let phase := if c.bridgeLive then d.phase else farDone 0x01 r.pid
    match phase with
    | .done st reason detail payload =>
      (((c.putDmx p next).bridgeFinal nv p r st reason detail payload)).promote nv p (d.waiting.length + 1)
    | _ => c

/-- R404: a lease expires. -/
def Chip.semExpired (c : Chip) (nv : NonVol) (p : Nat) : Chip :=
  let d := c.dmxPort p
  if d.holder.isSome then
    (((c.putDmx p { d with holder := none }).raiseBrg p 2)).promote nv p (d.waiting.length + 1)
  else c

/-- R404: the oldest waiting request exceeds `SEM_WAIT`. -/
def Chip.semTimeout (c : Chip) (nv : NonVol) (p : Nat) : Chip :=
  let d := c.dmxPort p
  match d.waiting with
  | [] => c
  | r :: l =>
    ((c.putDmx p { d with waiting := l }).bump (brgCnt p 0x28) 1).bridgeFinal nv p r .semTimeout 0 0 (c.localResult p r)

end Sys2Proof.Machine
end

