-- ==== Sys2Proof/Machine/Calibrate.lean ====
section
/-!
DEFINITION. Self-calibration (R489 to R500): runs, items and their judgement, temperature sets, and interpolation.
-/

namespace Sys2Proof.Machine

open Sys2Proof

def calCnt (o : Nat) : Nat := 0x100F00 + o

/-- The items whose bits a bitmap sets, in ascending order. -/
def bitItems (n : Nat) : List Nat := (List.range 5).filter n.testBit
def itemBits (l : List Nat) : Nat := ((List.range 5).map (fun i => if l.contains i then 2 ^ i else 0)).sum

def Chip.setRun (c : Chip) (r : Option CalRun) : Chip :=
  (c.setCalib { c.calib with run := r }).put CAL_STATUS.RUNNING
    (match r with | some r => itemBits (r.items ++ r.passed ++ r.failed) | none => 0)

/-- R490: automatic and commanded runs take place in Stopped and Running. -/
def Chip.mayCalibrate (c : Chip) : Bool := c.st == .stopped || c.st == .running

/-- The first item of a run begins: a trim is started by its own machinery (R66). -/
def Chip.beginItem (c : Chip) : Chip :=
  match c.calib.run with
  | some r => if r.items.head? = some 0 ∧ c.clk.trim.isNone = true then c.startTrim else c
  | none => c

/-- R490: a run starts. -/
def Chip.startRun (c : Chip) (trigger : Nat) (items : List Nat) (cmd : Option (Cmd × Option (List Byte))) : Chip :=
  (c.setRun (some { trigger := trigger, items := items, passed := [], failed := [], taps := [], quads := List.range 16, cmd := cmd })).beginItem

/-- R490, R491: an automatic trigger. During a run that covers its items it is dropped, else it waits for its end. -/
def Chip.autoRun (c : Chip) (trigger : Nat) (items : List Nat) : Chip :=
  if items.isEmpty then c
  else match c.calib.run with
    | none => if c.mayCalibrate then c.startRun trigger items none else c
    | some r =>
      let all := r.items ++ r.passed ++ r.failed
      if items.all (fun i => all.contains i) then c
      else c.setCalib { c.calib with queued := some (trigger, items) }

/-- `TEMP_STEP`, 1 to 50 °C, in 1/16 °C. -/
def Chip.tempStep (c : Chip) : Int := 16 * (min 50 (max 1 (c.get CAL_CTRL.TEMP_STEP)) : Nat)

/-- R490: whether the condition of trigger 2 or 3 holds: the die temperature lies `TEMP_STEP` or more from that of every stored
set, or `PERIOD_MIN` minutes have passed since a run last completed. Without a stored set there is no nearest one, and trigger
2 does not fall. -/
def Chip.triggerDue (c : Chip) (trigger : Nat) : Bool :=
  if trigger = 2 then
    !c.calib.sets.isEmpty
      && c.calib.sets.all (fun s => decide (c.tempStep ≤ mag (c.getS CAL_TEMP.DIE_TEMP - s.2.2.temp)))
  else trigger == 3 && c.get CAL_CTRL.PERIOD_MIN != 0
    && decide (c.calib.lastC + c.get CAL_CTRL.PERIOD_MIN * 48000000000 ≤ c.time.c.toNat)

/-- `CAL_TRIGGER` (R490): trigger 2 or 3. -/
def Chip.calTrigger (c : Chip) (trigger : Nat) : Chip :=
  if c.bit CAL_CTRL.AUTO_EN && c.mayCalibrate && c.triggerDue trigger then
    c.autoRun trigger (bitItems (2 * c.get CAL_CTRL.AUTO_MASK))
  else c

/-- `CAL_RUN` (R491). -/
def Chip.calRun (c : Chip) (nv : NonVol) (cmd : Cmd) (key : Option (List Byte)) : Chip :=
  let map := fieldBE cmd.payload 0 2
  if map = 0 ∨ 32 ≤ map then c.reply nv cmd key .txnConflict cmd.txn 0 []
  else if c.calib.run.isSome then c.reply nv cmd key .busy cmd.txn 0 []
  else (c.reply nv cmd key .pending cmd.txn 0 []).startRun 0 (bitItems map) (some (cmd, key))

/-! Applied values (R498, R499). -/

/-- The tap field of lane `l`. -/
def tapFld (l : Nat) : Fld := ⟨0xF0200 + 4 * (l / 4), 8 * (l % 4), 6⟩

def Chip.taps (c : Chip) : List Nat := (List.range 64).map (fun l => c.get (tapFld l))

def Chip.setTaps (c : Chip) (t : List Nat) : Chip :=
  (List.range 64).foldl (fun c l => c.put (tapFld l) (t.getD l 32)) c

/-- R498: new lane taps: at the next frame boundary in Running, at once otherwise. -/
def Chip.aimTaps (c : Chip) (t : List Nat) : Chip :=
  if c.st = .running then c.setCalib { c.calib with tapsTo := some t } else c.setTaps t

/-- R498: at a frame boundary each tap moves by at most one step. -/
def Chip.moveTaps (c : Chip) : Chip :=
  match c.calib.tapsTo with
  | none => c
  | some t =>
    let now := c.taps
    let next := (List.range 64).map (fun l =>
      let a := now.getD l 32
      let b := t.getD l a
      if a < b then a + 1 else if b < a then a - 1 else a)
    (c.setTaps next).setCalib { c.calib with tapsTo := if next = t then none else some t }

/-! Items (R492 to R496). -/

/-- The end of the item at the head of the run. -/
def Chip.endItem (c : Chip) (r : CalRun) (item : Nat) (ok : Bool) : Chip :=
  let r := { r with items := r.items.drop 1, passed := if ok then r.passed ++ [item] else r.passed, failed := if ok then r.failed else r.failed ++ [item] }
  let c := c.setRun (some r)
  let c := if ok then c.put CAL_STATUS.PASSED_EVER (c.get CAL_STATUS.PASSED_EVER ||| 2 ^ item) else c.bump (calCnt 0x08) 1
  c.beginItem

/-- R495: the taps of `LANE_DESKEW` are applied; one outside 0 to 63 takes the nearest end and fails the item. Lanes fenced
or quiesced keep theirs (R494). -/
def Chip.applyDeskew (c : Chip) (l : List (Nat × Int)) : Chip × Bool :=
  let l := l.filter (fun t => decide (t.1 < 64) && !c.laneFenced t.1 && !c.laneGated t.1)
  let ok := l.all (fun t => decide (0 ≤ t.2 ∧ t.2 ≤ 63))
  let taps := (List.range 64).map (fun i =>
    match l.find? (fun t => t.1 == i) with
    | some t => (max 0 (min 63 t.2)).toNat
    | none => c.get (tapFld i))
  let c := c.aimTaps taps
  (if ok then c else c.latch CAL_EVENT.DESKEW_CLAMP, ok)

/-- R495, R496: `RB_DELAY` is judged: the largest delay at most 318.75 ns, and the spread as R315 requires. -/
def Chip.applyRbDelay (c : Chip) (l : List (Nat × Nat)) : Chip × Bool :=
  let l := (l.filter (fun t => decide (t.1 < 64) && c.laneOn t.1)).map (·.2)
  let hi := l.foldl max 0
  let lo := l.foldl min hi
  let b : Int := c.get CHN_RB.RB_DIV * 625
  let ok := decide (hi ≤ 318750) && decide ((((hi - lo : Nat) : Int)) ≤ b - 10000)
  if ok then
    (if c.bit CHN_CTRL.RB_AUTO && !l.isEmpty then c.put CHN_RB.RB_DELAY (nearest (hi : Int) 1250).toNat else c, true)
  else (c.latch CAL_EVENT.RB_RANGE, false)

/-- Whether `l` holds a measure of every enabled lane that is neither fenced nor quiesced (R315, R494). -/
def Chip.rbMeasured (c : Chip) (l : List (Nat × Nat)) : Bool :=
  (allLanes.filter c.laneOn).all (fun i => l.any (fun t => t.1 == i))

/-- `CAL_ITEM_DONE` (R492, R495): the item under way completes and is judged. -/
def Chip.calItemDone (c : Chip) (o : CalOutcome) : Chip :=
  match c.calib.run with
  | none => c
  | some r =>
    if !c.mayCalibrate then c
    else match r.items.head?, o with
      | some 0, .osc => if c.clk.trim.isSome then c else c.endItem r 0 c.clk.trimOk
      | some 1, .phase p0 p1 =>
        let a := p0.getD (c.getS CAL_PHASE_OFS0.PHASE_OFS)
        let b := p1.getD (c.getS CAL_PHASE_OFS1.PHASE_OFS)
        if mag a ≤ 5000 ∧ mag b ≤ 5000 then
          ((c.setPhase a b).putB TIM_STATUS.PHASE_VALID true).endItem r 1 true
        else (c.latch CAL_EVENT.PHASE_RANGE).endItem r 1 false
      | some 2, .adc ofs gain =>
        if mag ofs ≤ 512 ∧ mag ((gain : Int) - 32768) * 50 ≤ 32768 then (c.setAdc ofs gain).endItem r 2 true
        else (c.latch CAL_EVENT.ADC_RANGE).endItem r 2 false
      | some 3, .deskew taps =>
        if c.st = .running ∧ r.quads ≠ [] then c
        else
          let (c, ok) := c.applyDeskew (r.taps ++ taps)
          c.endItem r 3 ok
      | some 4, .rbDelay l =>
        if c.rbMeasured l then
          let (c, ok) := c.applyRbDelay l
          c.endItem r 4 ok
        else c
      | _, _ => c

/-- R493: whether the 40 µs of a step, t_x after `RB_NEED`, end before shifting for the next sub-frame begins (R296). -/
def Chip.deskewRoom (c : Chip) : Bool :=
  decide ((c.rbNeed : Int) + c.tGap + 32000 * tickQ < ((c.rows : Int) - 1) * c.tRow + c.wdStart)

/-- `DESKEW_STEP` (R493): in Running, one quad's lanes are measured in a readback window that is not blank and has room. -/
def Chip.deskewStep (c : Chip) (quad : Nat) (taps : List (Nat × Int)) : Chip :=
  match c.calib.run with
  | none => c
  | some r =>
    if c.st = .running ∧ c.scan.display = .showing ∧ c.deskewRoom = true ∧ r.items.head? = some 3
        ∧ c.bit CHN_STATUS.RB_READY = true ∧ quad ∈ r.quads then
      let l := taps.filter (fun t => t.1 / 4 == quad)
      (c.setRun (some { r with taps := r.taps ++ l, quads := r.quads.filter (· != quad) })).bump (calCnt 0x10) 1
    else c

/-- `DESKEW_NO_WINDOW` (R493). -/
def Chip.deskewNoWindow (c : Chip) : Chip :=
  match c.calib.run with
  | none => c
  | some r =>
    if c.st = .running ∧ r.items.head? = some 3 then (c.latch CAL_EVENT.DESKEW_NO_WINDOW).endItem r 3 false else c

/-- R494: a change of timing set, `DRIVERS` or `RB_DIV` restarts `LANE_DESKEW`. -/
def Chip.restartDeskew (c : Chip) : Chip :=
  match c.calib.run with
  | none => c
  | some r => if r.items.head? = some 3 then c.setRun (some { r with taps := [], quads := List.range 16 }) else c

/-! Sets (R497). -/

/-- R497: a set is stored: in place of one near it in temperature, else in a free place, else in place of the oldest. -/
def Chip.storeSet (c : Chip) (x : CalSet) : Chip :=
  let l := c.calib.sets
  let near := l.filter (fun s => decide (2 * mag (s.2.2.temp - x.temp) ≤ c.tempStep))
  let rest := l.filter (fun s => !near.any (fun n => n.1 == s.1))
  let oldest := (rest.map (fun s => s.2.1)).foldl min c.calib.nextSet
  let full := decide (8 ≤ rest.length)
  let c := if full then c.bump (calCnt 0x18) 1 else c
  let rest := if full then rest.filter (fun s => s.2.1 != oldest) else rest
  let place := ((near.map (·.1)).head?).getD (((List.range 8).find? (fun k => !rest.any (fun s => s.1 == k))).getD 0)
  let l := (place, c.calib.nextSet, x) :: rest
  ((c.setCalib { c.calib with sets := l, nextSet := c.calib.nextSet + 1 }).put CAL_STATUS.SETS l.length).putS
    CAL_TEMP.LAST_SET_TEMP x.temp

/-- `CAL_DONE` (R491, R497): the run ends, once its items are over or the device has left Stopped and Running. -/
def Chip.calDone (c : Chip) (nv : NonVol) : Chip :=
  match c.calib.run with
  | none => c
  | some r =>
    if c.mayCalibrate && !r.items.isEmpty then c
    else
      let failed := r.failed ++ r.items
      let c := (c.bump (calCnt 0x08) r.items.length).setRun none
      let c := (((c.put CAL_RESULT.DONE (itemBits r.passed)).put CAL_RESULT.FAILED (itemBits failed)).put
        CAL_RESULT.TRIGGER r.trigger).bump (calCnt 0x00) 1
      let c := c.latch CAL_EVENT.CAL_DONE
      let c := if r.items.isEmpty then c.setCalib { c.calib with lastC := c.time.c.toNat } else c
      let c := if failed.isEmpty then c else c.latch CAL_EVENT.CAL_FAIL
      let c := if [1, 2, 3].all (fun i => r.passed.contains i) && r.items.isEmpty then
          c.storeSet { temp := c.getS CAL_TEMP.DIE_TEMP, phase0 := c.getS CAL_PHASE_OFS0.PHASE_OFS, phase1 := c.getS CAL_PHASE_OFS1.PHASE_OFS, adcOfs := c.getS CAL_ADC.ADC_OFS, adcGain := c.get CAL_ADC.ADC_GAIN, taps := c.calib.tapsTo.getD c.taps }
        else c
      let c := match r.cmd with
        | some (cmd, key) =>
          c.finalReply nv cmd key cmd.opcode .ok 0 (bytesBE 2 (itemBits r.passed) ++ bytesBE 2 (itemBits failed))
        | none => c
      match c.calib.queued with
      | some (t, items) =>
        let c := c.setCalib { c.calib with queued := none }
        if c.mayCalibrate then c.startRun t items none else c
      | none => c

/-! Interpolation (R498). -/

/-- The sets next below and above a temperature. -/
def nearSets (l : List CalSet) (t : Int) : Option CalSet × Option CalSet :=
  l.foldl (fun (b : Option CalSet × Option CalSet) s =>
    (if s.temp ≤ t ∧ (b.1.all (fun x => decide (x.temp < s.temp))) = true then some s else b.1,
     if t ≤ s.temp ∧ (b.2.all (fun x => decide (s.temp < x.temp))) = true then some s else b.2)) (none, none)

/-- R498: a quantity at temperature `t` between two sets. -/
def interp (a b : CalSet) (t : Int) (va vb : Int) : Int :=
  if b.temp ≤ a.temp then va else va + nearest ((vb - va) * (t - a.temp)) (b.temp - a.temp).toNat

/-- R498: the values at the die temperature. -/
def interpSet (a b : CalSet) (t : Int) : CalSet :=
  { temp := t, phase0 := interp a b t a.phase0 b.phase0, phase1 := interp a b t a.phase1 b.phase1, adcOfs := interp a b t a.adcOfs b.adcOfs, adcGain := (interp a b t a.adcGain b.adcGain).toNat, taps := (List.range 64).map (fun l => (interp a b t (a.taps.getD l 32) (b.taps.getD l 32)).toNat) }

/-- `CAL_INTERPOLATE` (R498) at the die temperature `t` in 1/16 °C. -/
def Chip.calInterpolate (c : Chip) (t : Int) : Chip :=
  let c := c.putS CAL_TEMP.DIE_TEMP t
  let pick := match nearSets (c.calib.sets.map (fun s => s.2.2)) t with
    | (some a, some b) => some (interpSet a b t)
    | (some a, none) | (none, some a) => some a
    | (none, none) => none
  match pick with
  | none => c
  | some x =>
    (c.setCalib { c.calib with phaseTo := some (x.phase0, x.phase1), adcTo := some (x.adcOfs, x.adcGain) }).aimTaps x.taps

/-- `CAL_SET_READ` (R499): a snapshot of set `k`, its taps included. -/
def Chip.calSetRead (c : Chip) (k : Nat) : Chip :=
  if k < 8 then
    match c.calib.sets.find? (fun s => s.1 == k) with
    | none => (c.putWords (0xF0100 + 0x20 * k) [0, 0, 0, 0]).putWords (0xF0400 + 0x40 * k) (List.replicate 16 0)
    | some (_, _, x) =>
      let s32 := fun v => satSigned 32 v
      let c := c.putWords (0xF0100 + 0x20 * k)
        [satSigned 16 x.temp + 2 ^ 16, s32 x.phase0, s32 x.phase1, satSigned 16 x.adcOfs + x.adcGain * 2 ^ 16]
      c.putWords (0xF0400 + 0x40 * k) ((List.range 16).map (fun w =>
        ((List.range 4).map (fun j => x.taps.getD (4 * w + j) 32 % 64 * 2 ^ (8 * j))).sum))
  else c

end Sys2Proof.Machine
end

