-- ==== Sys2Proof/Machine/Firmware.lean ====
section
/-!
DEFINITION. Firmware update and life-cycle (R466 to R488): loading and verifying an image, activation and revert, settings,
key slots, and the life-cycle subcommands.
-/

namespace Sys2Proof.Machine

open Sys2Proof

def fwuCnt (o : Nat) : Nat := 0x100E00 + o

/-- The length of an image slot. -/
def slotLen : Nat := 7340032

/-- R487: the `FIRMWARE` event of bit `b` of `FWU_EVENT`; `slot` is the slot concerned. -/
def Chip.raiseFw (c : Chip) (b slot : Nat) : Chip :=
  c.raise ⟨0xE0038, b, 1⟩ (fun c => c.event 0x0012 2 (b + 1) slot 0 0 (c.get ID_FW.FW_VERSION))

/-! Images (R467). Bytes of an erased sector read 0xFF. -/

def imageByte (l : ImageRuns) (off : Nat) : Byte :=
  match l.find? (fun r => decide (r.1 ≤ off) && decide (off < r.1 + r.2.length)) with
  | some r => r.2.getD (off - r.1) 0xFF#8
  | none => 0xFF#8

def imageBytes (l : ImageRuns) (off n : Nat) : List Byte := (List.range n).map (fun i => imageByte l (off + i))
def imageField (l : ImageRuns) (off n : Nat) : Nat := natBE (imageBytes l off n)

def imgLen (l : ImageRuns) : Nat := imageField l 8 4
def imgVersion (l : ImageRuns) : Nat := imageField l 12 4
def imgSecurity (l : ImageRuns) : Nat := imageField l 16 4
def imgFormat (l : ImageRuns) : Nat := imageField l 22 2
def imgReadMin (l : ImageRuns) : Nat := imageField l 24 2
def imgBlocks (l : ImageRuns) : Nat := imageField l 26 2

/-- Whether a head is readable (R486: `VER_A`, `VER_B`). -/
def imgReadable (l : ImageRuns) : Bool := imageField l 0 4 == 0x554C5546

/-- The length of block `i` of an image of length `len`. -/
def blockLen (len i : Nat) : Nat := min 65536 (len - 65536 * (i + 1))

/-- R469: whether block `i` matches its entry of the block table. -/
def blockGood (l : ImageRuns) (i : Nat) : Bool :=
  sha256 (imageBytes l (65536 * (i + 1)) (blockLen (imgLen l) i)) == imageBytes l (256 + 32 * i) 32

/-- R467, R470: whether the fields of a head are right. -/
def headGood (l : ImageRuns) : Bool :=
  let len := imgLen l
  let n := imgBlocks l
  imgReadable l && imageField l 4 2 == 1 && decide (65540 ≤ len) && decide (len ≤ slotLen)
    && n == (len - 65536 + 65535) / 65536 && decide (imageField l 21 1 ≤ 3) && decide (imageField l 20 1 ≤ 3)
    && (imageBytes l 28 228).all (· == 0#8) && (imageBytes l (320 + 32 * n) (65536 - (320 + 32 * n))).all (· == 0#8)

/-- R470: the checks from `BAD_HEADER` onward; the code, and the first block that fails. -/
def checkImage (nv : NonVol) (l : ImageRuns) : Nat × Nat :=
  let n := imgBlocks l
  if !headGood l then (0x02, 0)
  else if !Config.ecdsaValid (imageField l 21 1) (sha256 (imageBytes l 0 (256 + 32 * n))) (imageBytes l (256 + 32 * n) 64) then
    (0x03, 0)
  else match (List.range n).find? (fun i => !blockGood l i) with
    | some i => (0x04, i)
    | none =>
      if imgSecurity l < nv.floor then (0x05, 0)
      else if nv.pinned && !(imageField l 20 1).testBit nv.profile then (0x06, 0)
      else if Config.silicon.toNat < imageField l 6 2 then (0x07, 0)
      else (0x00, 0)

def NonVol.image (n : NonVol) (slot : Nat) : ImageRuns := n.images.getD slot []

/-- The inactive slot (R468). -/
def NonVol.other (n : NonVol) : Nat := 1 - n.primary

/-- The versions in the image slots (R486). -/
def Chip.showSlots (c : Chip) (nv : NonVol) : Chip :=
  let ver := fun s => if imgReadable (nv.image s) then imgVersion (nv.image s) else 0
  (((c.put FWU_VER_A.VER_A (ver 0)).put FWU_VER_B.VER_B (ver 1)).put FWU_SEC_A.SEC_A (imgSecurity (nv.image 0))).put
    FWU_SEC_B.SEC_B (imgSecurity (nv.image 1))

/-! Loading (R468 to R470). -/

def Chip.setLoad (c : Chip) (l : Load) : Chip :=
  (c.setLoading l).put FWU_LOAD.LOAD_BYTES ((l.ranges.map (fun r => r.2)).sum)

/-- Whether the range meets one already written. -/
def meets (ranges : List (Nat × Nat)) (off n : Nat) : Bool :=
  ranges.any (fun r => decide (r.1 < off + n) && decide (off < r.1 + r.2))

/-- Whether every byte from `off` on, `n` of them, lies in a range (`fuel` ranges at most). -/
def covered (ranges : List (Nat × Nat)) : Nat → Nat → Nat → Bool
  | 0, _, n => n == 0
  | fuel + 1, off, n =>
    if n = 0 then true
    else match ranges.find? (fun r => decide (r.1 ≤ off) && decide (off < r.1 + r.2)) with
      | some r => covered ranges fuel (r.1 + r.2) (n - (r.1 + r.2 - off))
      | none => false

/-- The sectors of 64 KiB that a range reaches. -/
def sectorsOf (off n : Nat) : List Nat := (List.range ((off + n + 65535) / 65536)).drop (off / 65536)

/-- The ranges without those inside the sector `s`. -/
def cutRanges (ranges : List (Nat × Nat)) (s : Nat) : List (Nat × Nat) :=
  ranges.flatMap (fun r =>
    let lo := 65536 * s
    let hi := lo + 65536
    [(r.1, min r.2 (lo - r.1)), (max r.1 hi, (r.1 + r.2) - max r.1 hi)].filter (fun x => x.2 != 0))

/-- R468: the size of the write buffer. -/
def writeBuffer : Nat := 65536

/-- R468: `FW_BLOCK` after its length check: a status, with the write done on `OK`. How many of the bytes buffered before have
reached the flash by now is a free value (log entry 138). -/
def Chip.fwBlock (c : Chip) (nv : NonVol) (off : Nat) (data : List Byte) : Chip × Status :=
  let n := data.length
  let slot := nv.other
  let old := c.loading
  if off % 4 ≠ 0 ∨ slotLen < off + n then (c, .badAddress)
  else if c.bit FWU_STATUS.ACT_PENDING || old.toVerify.isSome then (c, .busy)
  else
    let redo := old.bad.find? (fun i => 65536 * (i + 1) == off)
    let ranges := if off = 0 then [] else match redo with | some i => cutRanges old.ranges (i + 1) | none => old.ranges
    let (c, d) := c.draw
    let buffered := if old.buffered = 0 then 0 else Config.choice d % (old.buffered + 1)
    if meets ranges off n then (c, .txnConflict)
    else if writeBuffer < buffered + n then (c.setLoad { old with buffered := buffered }, .busy)
    else
      let c := if off = 0 then (((c.nvOp (.eraseImage slot 0 slotLen)).nvOp (.otherValid false)).put FWU_STATUS.OTHER_VALID 0)
        else (sectorsOf off n).foldl (fun c s =>
          if meets ranges (65536 * s) 65536 then c else c.nvOp (.eraseImage slot (65536 * s) (65536 * s + 65536))) c
      let bad := if off = 0 then [] else match redo with | some i => old.bad.filter (· != i) | none => old.bad
      let c := c.setLoad { old with active := true, ranges := (off, n) :: ranges, buffered := buffered + n, bad := bad }
      let c := (c.nvOp (.writeImage slot off data)).put FWU_STATUS.LOAD_STATE 1
      let c := c.showSlots (c.nvOps.foldl NvOp.apply nv)
      (c.bump (fwuCnt 0x00) 1, .ok)

/-- `BLOCK_BAD` (R469): a complete block, with the head in place, fails its SHA-256. -/
def Chip.blockBad (c : Chip) (nv : NonVol) (i : Nat) : Chip :=
  let l := nv.image nv.other
  let r := c.loading.ranges
  if c.loading.active && covered r r.length 0 65536 && decide (i < imgBlocks l)
      && covered r r.length (65536 * (i + 1)) (blockLen (imgLen l) i) && !c.loading.bad.contains i && !blockGood l i then
    ((c.setLoad { c.loading with bad := i :: c.loading.bad }).bump (fwuCnt 0x08) 1).raiseFw 8 nv.other
  else c

/-- `FW_VERIFY` (R470). -/
def Chip.fwVerify (c : Chip) (nv : NonVol) (cmd : Cmd) (key : Option (List Byte)) : Chip :=
  if c.loading.toVerify.isSome then c.reply nv cmd key .busy cmd.txn 0 []
  else
    let c := c.reply nv cmd key .pending cmd.txn 0 []
    (c.setLoad { c.loading with buffered := 0, toVerify := some (cmd, key) }).put FWU_STATUS.LOAD_STATE 2

/-- The result of R470 for the load in the inactive slot. -/
def Chip.verifyResult (c : Chip) (nv : NonVol) : Nat × Nat :=
  let l := nv.image nv.other
  let r := c.loading.ranges
  if covered r r.length 0 65536 && covered r r.length 0 (imgLen l) then checkImage nv l else (0x01, 0)

/-- `VERIFY_DONE` (R470). An image that fails a check cannot be activated (R14), so `OTHER_VALID` becomes 0. `INCOMPLETE` is no
check of what the slot holds and leaves it (log entry 139). -/
def Chip.verifyDone (c : Chip) (nv : NonVol) : Chip :=
  match c.loading.toVerify with
  | none => c
  | some (cmd, key) =>
    let (code, blk) := c.verifyResult nv
    let c := c.setLoad { c.loading with toVerify := none }
    let c := (c.put FWU_VERIFY.RESULT code).put FWU_STATUS.LOAD_STATE (if code = 0 then 3 else 4)
    let c := if code = 4 then c.put FWU_VERIFY.BAD_BLOCK_IDX blk else c
    let c := if code = 1 then c else (c.nvOp (.otherValid (code == 0))).putB FWU_STATUS.OTHER_VALID (code == 0)
    (c.raiseFw 0 nv.other).finalReply nv cmd key cmd.opcode .ok 0 [byteOf code]

/-! Activation and revert (R473, R474, R478). -/

/-- `ACT_SEC_HI`, `ACT_SEC_LO`, `ACT_NS` and `ACT_PENDING`. -/
def Chip.setActTime (c : Chip) (t : Option FullTime) : Chip :=
  let g := t.getD ⟨0, 0⟩
  let c := c.setLoading { c.loading with actTime := t }
  (((c.putB FWU_STATUS.ACT_PENDING t.isSome).put FWU_ACT_SEC_HI.ACT_SEC_HI (g.sec / 2 ^ 32)).put
    FWU_ACT_SEC_LO.ACT_SEC_LO (g.sec % 2 ^ 32)).put FWU_ACT_NS.ACT_NS g.ns

/-- The time in a payload of `TXN_COMMIT` or `FW_ACTIVATE` (R362). -/
def payloadTime (l : List Byte) : FullTime := ⟨fieldBE l 2 6, fieldBE l 8 4⟩

/-- `FW_ACTIVATE` (R473) after its length check. With mode 0, or a G already past, it begins once the reply has left. -/
def Chip.fwActivate (c : Chip) (_nv : NonVol) (payload : List Byte) : Chip × Status :=
  let mode := fieldBE payload 0 1
  if c.get FWU_STATUS.OTHER_VALID = 0 then (c, .txnConflict)
  else if c.bit FWU_STATUS.ACT_PENDING then (c, .busy)
  else if 1 < mode then (c, .txnConflict)
  else if mode = 1 ∧ c.now < FullTime.at (payloadTime payload) then (c.setActTime (some (payloadTime payload)), .ok)
  else (c.setSel { c.sel with action := some .activate }, .ok)

/-- R33: the states from which an activation, or with `copy` false a revert, moves to Updating. -/
def Chip.mayUpdate (c : Chip) (copy : Bool) : Bool :=
  c.st == .stopped || c.st == .running || (copy && c.st == .recovery)

/-- R33, R474, R478, R479: activation, or with `copy` false a revert: Updating, the settings copy, the selector, and the reset. In a
state that R33 does not let move to Updating nothing happens, and a scheduled activation stays scheduled (log entry 126). -/
def Chip.activation (c : Chip) (nv : NonVol) (copy : Bool) : Chip :=
  if !c.mayUpdate copy then c else
  let running := c.st == .running
  let left := c.st != .recovery || (checkImage nv (nv.image nv.primary)).1 == 0
  let c := ((c.setActTime none).loseDisplay).setSt .updating
  let c := if copy then
      ((c.bump (fwuCnt 0x10) 1).nvOp (.copySettings nv.primary nv.other)).nvOp (.activated true)
    else c.setAon { c.aon with fallback := true }
  let c := ((c.nvOp (.primary nv.other)).nvOp (.otherValid left)).nvOp (.running running)
  c.takeReset causeCommand

/-- R473: whether a scheduled activation begins: a frame boundary at or after its G has come, or, while time is invalid, G. -/
def Chip.actDue (c : Chip) : Bool :=
  match c.loading.actTime with
  | none => false
  | some g =>
    decide (FullTime.at g ≤ (if c.timeValid then c.boundary (gridN c.period c.gridOffset c.now) else c.now))

/-- `ACTIVATION_START` (R473, R474). -/
def Chip.activationStart (c : Chip) (nv : NonVol) : Chip := if c.actDue then c.activation nv true else c

/-- `ACT_CANCEL` (R473). -/
def Chip.actCancel (c : Chip) (nv : NonVol) : Chip :=
  if c.loading.actTime.isSome then (c.setActTime none).raiseFw 6 nv.other else c

/-- `FW_REVERT` (R478). -/
def Chip.fwRevert (c : Chip) : Chip × Status :=
  if c.get FWU_STATUS.OTHER_VALID = 0 then (c, .txnConflict)
  else if c.bit FWU_STATUS.ACT_PENDING then (c, .busy)
  else (c.setSel { c.sel with action := some .revert }, .ok)

/-! Settings (R475 to R477). -/

/-- The read-write bits of the register at `a` that a settings copy holds: all but the profile, which has a record. -/
def savedMask (a : Nat) : Nat :=
  if a = 0x24 then 0 else match regInfo a with
    | some r => r.classS ||| r.classF ||| r.classL
    | none => 0

/-- The registers with a read-write field whose reset value the straps or the factory give: `GNG_CTRL` and the UID. A copy
always lists them. -/
def partReset : List Nat := [0xB0000, 0xA0108, 0xA010C]

/-- R475: the words of a settings copy: every read-write field in force that differs from its reset value. -/
def Chip.savedWords (c : Chip) : List (Nat × Word) :=
  partReset.map (fun a => (a, wordOf ((c.reg a).toNat &&& savedMask a))) ++
  c.regs.filterMap (fun e =>
    let m := savedMask e.1
    if m = 0 ∨ partReset.contains e.1 = true then none else some (e.1, wordOf (e.2.toNat &&& m)))

/-- R475, R477: the words of a copy come into force where `p` selects their address. -/
def Chip.loadWords (c : Chip) (p : Nat → Bool) (l : List (Nat × Word)) : Chip :=
  (l.filter (fun e => p e.1)).foldl (fun c e => c.applyWord ⟨e.1, savedMask e.1, e.2.toNat⟩) c

/-- `SAVE` (R476): the values in force are taken for the copy. -/
def Chip.save (c : Chip) : Chip :=
  if c.loading.saving.isSome then c.ans .busy []
  else (c.setLoading { c.loading with saving := some c.savedWords }).ok

/-- `SAVE_DONE` (R476): the copy is written, or the flash write failed. -/
def Chip.saveDone (c : Chip) (nv : NonVol) (good : Bool) : Chip :=
  match c.loading.saving with
  | none => c
  | some ws =>
    let c := c.setLoading { c.loading with saving := none }
    if good then
      let gen := (c.get FWU_SAVE_GEN.SAVE_GEN + 1) % 2 ^ 32
      let x : Settings := { generation := gen, format := c.get FWU_SETTINGS.FMT_OWN, words := ws }
      ((c.nvOp (.saveSettings nv.primary x)).put FWU_SAVE_GEN.SAVE_GEN gen).bump (fwuCnt 0x20) 1
    else c.raiseFw 7 nv.primary

/-! Life-cycle and keys (R364, R480 to R483). -/

/-- A command under key slot 0, or a keyless one in Blank (R364, R481). -/
def slotZero (nv : NonVol) (cmd : Cmd) (key : Option (List Byte)) : Bool :=
  cmd.key.val == 0 || (nv.lifecycle == 0 && key.isNone)

/-- `KEYS_SET`. -/
def keysSet (l : List (Option (List Byte))) : Nat := (l.zipIdx.map (fun k => if k.1.isSome then 2 ^ k.2 else 0)).sum

/-- `DEBUG_OPEN` of a life-cycle state (R480). -/
def debugOpen (lc : Nat) : Bool := lc == 0 || lc == 3

/-- R348, R483: a transition: the new state and what it erases; the reset follows once the reply has left. -/
def Chip.transition (c : Chip) (state : Nat) (erase : List NvOp) : Chip :=
  let c := erase.foldl Chip.nvOp (c.nvOp (.lifecycle state))
  ((c.setSel { c.sel with action := some .lifecycle }).put ID_LIFECYCLE.LC_STATE state).putB ID_LIFECYCLE.DEBUG_OPEN
    (debugOpen state)

/-- What a subcommand answers: a status and its result. -/
abbrev LcAnswer := Chip × Status × List Byte

/-- R481: the length that a subcommand's data must have, its number included. -/
def lcLength (sub : Nat) : Nat :=
  match sub with
  | 0x05 => 5 | 0x07 | 0x08 => 66 | 0x09 => 5 | 0x20 => 34 | 0x21 => 2 | _ => 1

/-- 0x01 `STATUS`. -/
def Chip.lcStatus (c : Chip) (nv : NonVol) : LcAnswer :=
  (c, .ok, [byteOf nv.lifecycle, if nv.pinned then byteOf nv.profile else 0xFF#8,
    if c.loading.armed.isSome then 1#8 else 0#8, 0#8] ++ bytesBE 4 nv.floor)

/-- 0x02 `OPEN`. -/
def Chip.lcOpen (c : Chip) (nv : NonVol) (zero : Bool) : LcAnswer :=
  if nv.lifecycle = 0 ∧ zero = true ∧ (nv.keyAt 0).isSome = true then (c.transition 1 [], .ok, [])
  else (c, .lifecycleDenied, [])

/-- 0x03 `SEAL`: the profile is pinned at once (R12). -/
def Chip.lcSeal (c : Chip) (nv : NonVol) (zero : Bool) : LcAnswer :=
  if nv.lifecycle = 1 ∧ zero = true then ((c.transition 2 [.pin true]).put ID_PROFILE.PINNED 1, .ok, [])
  else (c, .lifecycleDenied, [])

/-- 0x04 `PIN`. -/
def Chip.lcPin (c : Chip) (nv : NonVol) (zero : Bool) : LcAnswer :=
  if (nv.lifecycle = 0 ∨ nv.lifecycle = 1) ∧ zero = true then
    ((c.nvOp (.pin true)).put ID_PROFILE.PINNED 1, .ok, [])
  else (c, .lifecycleDenied, [])

/-- 0x05 `RAISE_FLOOR`: the other slot below the new floor is no longer `VALID` (R481). -/
def Chip.raiseFloor (c : Chip) (nv : NonVol) (zero : Bool) (v : Nat) : LcAnswer :=
  if (nv.lifecycle = 1 ∨ nv.lifecycle = 2) ∧ zero = true then
    if nv.floor < v ∧ v ≤ imgSecurity (nv.image nv.primary) then
      let c := (c.nvOp (.floor v)).put FWU_FLOOR.FLOOR v
      (if imgSecurity (nv.image nv.other) < v then (c.nvOp (.otherValid false)).put FWU_STATUS.OTHER_VALID 0 else c, .ok, [])
    else (c, .txnConflict, [])
  else (c, .lifecycleDenied, [])

/-- 0x06 `CONSENT`: the nonce is a free value. -/
def Chip.lcConsent (c : Chip) (nv : NonVol) (zero : Bool) : LcAnswer :=
  if 1 ≤ nv.lifecycle ∧ nv.lifecycle ≤ 3 ∧ zero = true then
    let (c, d) := c.draw
    let n := bytesBE 8 (Config.nonce d).toNat
    ((c.setLoading { c.loading with armed := some n }).put ID_LIFECYCLE.RETURN_ARMED 1, .ok, n)
  else (c, .lifecycleDenied, [])

/-- The arm of a return ends (R482). -/
def Chip.disarm (c : Chip) : Chip :=
  (c.setLoading { c.loading with armed := none }).put ID_LIFECYCLE.RETURN_ARMED 0

def uniqueBytes : List Byte := bytesBE 16 Config.uniqueId.toNat

/-- R482: whether a token is right for the armed nonce and the target state. -/
def tokenGood (nonce : List Byte) (target : Nat) (payload : List Byte) : Bool :=
  decide (fieldBE payload 1 1 ≤ 3)
    && Config.ecdsaValid (fieldBE payload 1 1) (sha256 (uniqueBytes ++ nonce ++ [byteOf target])) (sliceB payload 2 64)

/-- A token check, which ends the arm, with what a good token does. -/
def Chip.checkToken (c : Chip) (allowed : Bool) (target : Nat) (erase : List NvOp) (payload : List Byte) : LcAnswer :=
  match c.loading.armed with
  | none => (c, .lifecycleDenied, [])
  | some n =>
    if !allowed then (c, .lifecycleDenied, [])
    else if tokenGood n target payload then (c.disarm.transition target erase, .ok, [])
    else (c.disarm, .lifecycleDenied, [])

/-- 0x07 `RETURN`. -/
def Chip.lcReturn (c : Chip) (nv : NonVol) (payload : List Byte) : LcAnswer :=
  c.checkToken (nv.lifecycle == 1 || nv.lifecycle == 2) 3 [.pin false, .eraseSettings] payload

/-- 0x08 `REBLANK`. -/
def Chip.reblank (c : Chip) (nv : NonVol) (payload : List Byte) : LcAnswer :=
  c.checkToken (nv.lifecycle == 3) 0 [.eraseKeys, .eraseProfile, .eraseEpoch] payload

/-- 0x09 `DECOMMISSION`. -/
def Chip.decommission (c : Chip) (nv : NonVol) (zero : Bool) (payload : List Byte) : LcAnswer :=
  if 1 ≤ nv.lifecycle ∧ nv.lifecycle ≤ 3 ∧ zero = true then
    if sliceB payload 1 4 = uniqueBytes.drop 12 then
      (c.transition 4 [.eraseKeys, .eraseSettings, .eraseImage 0 0 slotLen, .eraseImage 1 0 slotLen, .eraseEpoch], .ok, [])
    else (c, .txnConflict, [])
  else (c, .lifecycleDenied, [])

/-- 0x20 `SET_KEY` and 0x21 `CLEAR_KEY` (R364); key slot 0 is fixed in Field-Sealed (R480). -/
def Chip.writeKey (c : Chip) (nv : NonVol) (zero : Bool) (slot : Nat) (k : Option (List Byte)) : LcAnswer :=
  if !zero || (nv.lifecycle == 2 && slot == 0) || nv.lifecycle == 4 then (c, .lifecycleDenied, [])
  else if 8 ≤ slot then (c, .badAddress, [])
  else ((c.nvOp (.key slot k)).put ID_SEL_STATUS.KEYS_SET (keysSet (nv.keys.set slot k)), .ok, [])

end Sys2Proof.Machine
end

