-- ==== Sys2Proof/Machine/Power.lean ====
section
/-!
DEFINITION. Power, reset and boot (R460, R466 to R478, R501 to R519): the rails, the reset causes, reset release, the steps
of Boot, the watchdog, and Dormant.
-/

namespace Sys2Proof.Machine

open Sys2Proof

/-! Rails and reset causes (R501 to R507). -/

/-- The bit of a rail in `PG_LOW`; VDD_AON has none. -/
def railBit : Rail → Option Nat
  | .vddAon => none
  | .vddio3v3 => some 0 | .vdda1v8 => some 1 | .vddSd => some 2 | .vddhSd => some 3 | .vddCore => some 4 | .vddSram => some 5

/-- Whether PWREN_MAIN switches the rail. -/
def railB : Rail → Bool
  | .vddCore | .vddSram => true
  | _ => false

/-- The part without power: nothing is held but the model's own latches. -/
def Chip.powerOff (c : Chip) : Chip :=
  let off := Chip.powerOn
  { off with st := .off, answer := c.answer, freeCtr := c.freeCtr }

/-- `GROUP_A_RAILS_GOOD` (R33, R503): the device leaves Off, and PWREN_MAIN is raised. -/
def Chip.railsGood (c : Chip) : Chip :=
  if c.power.groupAGood then c
  else
    let c := c.setPower { c.power with groupAGood := true, pwrenMain := true }
    if c.st = .off then c.setSt .reset else c

/-- `MAIN_RAIL_TIMEOUT` (R503): PWREN_MAIN falls for 100 ms and the power-up is tried again. Both edges lie within the
step, and PWREN_MAIN is high after it. -/
def Chip.mainTimeout (c : Chip) : Chip :=
  if c.st = .reset ∧ c.power.pwrenMain = true ∧ c.power.groupBGood = false then
    c.setAon { c.aon with mainRetry := min (c.aon.mainRetry + 1) 255 }
  else c

/-- `RAIL_LOST` (R501, R504): a reset with cause `POWER`. Losing VDD_AON takes the always-on domain with it; a lost rail of
group A waits for the group to become good again. The core has no group B rail to lose in Dormant. -/
def Chip.railLost (c : Chip) (r : Rail) : Chip :=
  if c.st = .off then c
  else match railBit r with
    | none => c.powerOff
    | some b =>
      if railB r then
        if c.st = .dormant ∨ c.power.pwrenMain = false then c
        else
          let held := if c.st = .reset ∧ c.aon.resetCause = causePower then c.aon.pgLow else 0
          (c.setAon { c.aon with pgLow := held ||| 2 ^ b }).takeReset causePower
      else
        let held := if c.st = .reset ∧ c.aon.resetCause = causePower then c.aon.pgLow else 0
        let c := (c.setAon { c.aon with pgLow := held ||| 2 ^ b, mainRetry := 0 }).takeReset causePower
        c.setPower { c.power with groupAGood := false, pwrenMain := false, groupBGood := false }

/-- `PIN_RESET` (R505, R507, R517): in Dormant it ends Dormant, and PWREN_MAIN goes high. -/
def Chip.pinReset (c : Chip) : Chip :=
  if c.st = .dormant then
    let c := (c.setSt .stopped).takeReset causePin
    (c.setAon { c.aon with fromDormant := true, wakeSrc := 2 }).setPower { c.power with pwrenMain := true }
  else c.takeReset causePin

/-! Reset release (R506, R508 to R510, R313, R339). -/

/-- The always-on record and the factory values in their registers (R485, R519, R140). -/
def Chip.showRecords (c : Chip) : Chip :=
  let a := c.aon
  let c := ((((c.put CLK_RESET.RESET_CAUSE a.resetCause).putB CLK_RESET.FROM_DORMANT a.fromDormant).put
    CLK_RESET.WAKE_SRC a.wakeSrc).put CLK_RESET.WAKE_PATTERN a.wakePattern).put CLK_RESET.RESET_COUNT a.resetCount
  let c := (c.put CLK_POWER.PG_LOW a.pgLow).put CLK_POWER.MAIN_RETRY a.mainRetry
  let mac := Config.macBase.toNat
  let c := ((c.put ID_SILICON.SILICON Config.silicon.toNat).put ID_MAC_HI.MAC_BASE_HI (mac / 2 ^ 32)).put
    ID_MAC_LO.MAC_BASE_LO (mac % 2 ^ 32)
  let c := (List.range 4).foldl (fun c w => c.put (ID_UNIQUE.UNIQUE_ID w) (Config.uniqueId.toNat / 2 ^ (96 - 32 * w))) c
  let port := fun (c : Chip) (p : PortIx) =>
    (c.put (PRTn_MAC_HI.MAC_HI p) (c.macOf p / 2 ^ 32)).put (PRTn_MAC_LO.MAC_LO p) (c.macOf p % 2 ^ 32)
  let c := port (port c 0) 1
  (c.put BRG_UID_HI.UID_HI (Config.brgUid.toNat / 2 ^ 32)).put BRG_UID_LO.UID_LO (Config.brgUid.toNat % 2 ^ 32)

/-- The bits of the banks that satisfy `p`. -/
def bankBits (p : BankSupply → Bool) (l : List BankSupply) : Nat :=
  ((List.range 4).map (fun q => if p (l.getD q .neither) then 2 ^ q else 0)).sum

/-- The registers at reset release: the drawn `BOOT_ID`, the kept records, the straps as `CLK_STRAPS` holds them, and the
supply of the banks. `d` is the free value drawn. -/
def Chip.showRelease (c : Chip) (d straps : Nat) (banks : List BankSupply) : Chip :=
  let c := (c.put ID_BOOT_ID.BOOT_ID (Config.bootId d).toNat).showRecords
  let c := c.setReg 0x10104 (wordOf (straps % 2 ^ 11))
  let c := (c.put GNG_CTRL.GANG_ADDR (straps / 2 ^ 4)).put ID_ROLES.ROLES straps
  let c := c.put CHN_STATUS.BANK_3V3 (bankBits (fun b => b == .v33) banks)
  if bankBits (fun b => b == .neither) banks = 0 then c else c.raiseChain 7 0

/-- `RESET_RELEASE` (R506): the straps and the banks are sensed, `BOOT_ID` is drawn, C starts at zero and the crystal start
window opens. With TEST_EN high the device stays in Reset (R532). `straps` holds `STRAP_ROLES`, `STRAP_GANG` and
`STRAP_HOST` as `CLK_STRAPS` does. -/
def Chip.release (c : Chip) (straps : Nat) (banks : List BankSupply) (testEn : Bool) : Chip :=
  if c.st = .reset ∧ c.power.groupAGood = true ∧ c.power.pwrenMain = true ∧ testEn = false then
    let power := { c.power with groupBGood := true, bankOff := bankBits (fun b => b == .neither) banks }
    let r := (((c.setSt .boot).setTime Time.start).setPower power).setFreeCtr (c.freeCtr + 1)
    let r := (r.showRelease c.freeCtr straps banks).openWindow false
    r.setSramOps (c.sramOps ++ [.resetCal, .zero 0 0x2800000])
  else c

/-! The boot ROM (R460, R471, R472, R483, R513, R514). -/

/-- The milliseconds since reset release. -/
def Chip.bootMs (c : Chip) : Nat := min (c.time.c.toNat / 800000) 0xFFFF

/-- What the boot ROM decided: the slot booted, or none for Recovery; whether it is the slot of a fallback (R472); the bad
primary slot that it passed over (R471); and `OTHER_VALID`. -/
structure BootChoice where
  slot : Option Nat
  fallback : Bool
  bad : Option Nat
  otherValid : Bool

/-- R472: whether the history holds three watchdog resets within 60 s. -/
def Aon.wdDue (a : Aon) : Bool :=
  match a.wdTimes with
  | [z, _, x] => decide (z - x ≤ 60000)
  | _ => false

/-- R471, R472, R514: the slot to boot. -/
def bootChoice (nv : NonVol) (records : Records) (wdDue : Bool) : BootChoice :=
  let good := fun s => (checkImage nv (nv.image s)).1 == 0
  if nv.lifecycle = 4 then ⟨none, false, none, nv.otherValid⟩
  else if records = .otherBad then ⟨none, false, some nv.primary, nv.otherValid⟩
  else if records = .selectorBad then
    if good 0 then ⟨some 0, false, none, good 1⟩
    else if good 1 then ⟨some 1, false, none, false⟩
    else ⟨none, false, none, false⟩
  else if wdDue then
    if good nv.other then ⟨some nv.other, true, none, true⟩ else ⟨none, false, none, false⟩
  else if good nv.primary then ⟨some nv.primary, false, none, nv.otherValid⟩
  else if good nv.other then ⟨some nv.other, false, some nv.primary, false⟩
  else ⟨none, false, some nv.primary, false⟩

/-- The boot records in their registers (R485, R486). `slot` is `PRIMARY`. -/
def Chip.showFlash (c : Chip) (nv : NonVol) (slot : Nat) (otherValid : Bool) : Chip :=
  let c := ((c.put FWU_STATUS.PRIMARY slot).putB FWU_STATUS.OTHER_VALID otherValid).put FWU_STATUS.WD_COUNT
    (min c.aon.wdTimes.length 2)
  let c := ((c.showSlots nv).put FWU_FLOOR.FLOOR nv.floor).put ID_PROFILE.PROFILE nv.profile
  let c := ((c.putB ID_PROFILE.PINNED nv.pinned).put ID_LIFECYCLE.LC_STATE nv.lifecycle).putB ID_LIFECYCLE.DEBUG_OPEN
    (debugOpen nv.lifecycle)
  ((c.put ID_SEL_STATUS.KEYS_SET (keysSet nv.keys)).put RED_EPOCH.EPOCH nv.epoch).put GNG_EPOCH.GANG_EPOCH nv.gangEpoch

/-- R460: the retained entries are marked, or, with a parity failure, the log is emptied. -/
def Chip.retainLog (c : Chip) (logOk : Bool) : Chip :=
  if logOk then (c.setErrs { c.errs with log := c.errs.log.map (fun e => { e with retained := true }) }).showLog
  else ((c.setErrs { c.errs with log := [] }).showLog).latch ERR_EVENT.LOG_LOST

/-- The event of a bit that Boot latched, once firmware runs (R464, R487). -/
def Chip.bootEvents (c : Chip) (nv : NonVol) (b : BootChoice) (slot : Nat) : Chip :=
  let c := if c.bit ERR_EVENT.LOG_LOST then c.event 0x10 6 0 0xF000 0 0 0x1001 else c
  let c := match b.bad with
    | some s => c.raiseFw 5 s
    | none => c
  let c := if b.fallback || c.aon.fallback then (c.raiseFw 4 slot).bump (fwuCnt 0x18) 1 else c
  let c := c.setAon { c.aon with fallback := false }
  let c := if nv.activated ∧ b.bad.isNone ∧ !b.fallback then c.raiseFw 1 slot else c
  match nv.previous with
  | some old => (c.event 0x13 2 (nv.lifecycle + 1) 0 0 0 old).nvOp .eventPlaced
  | none => c

/-- R33, R484, R514: Recovery. Both ports come up with `SPEED` `AUTO`, its reset value. In Decommissioned and without a valid
record only `PING` and `IDENTIFY` are answered. -/
def Chip.enterRecovery (c : Chip) (nv : NonVol) (records : Records) : Chip :=
  let c := c.setPower { c.power with portsUp := true, locked := nv.lifecycle == 4 || records == .otherBad }
  let c := c.putB CLK_RESET.RECORD_BAD (records != .intact)
  let c := (c.startPort (c.startMode 0) 0).startPort (c.startMode 1) 1
  c.setSt .recovery

/-- `IMAGE_START` (R513, R471, R472, R514): the boot ROM, with the crystal qualified and the trim over, starts an image or
enters Recovery. -/
def Chip.imageStart (c : Chip) (nv : NonVol) (records : Records) (logOk : Bool) : Chip :=
  if c.st = .boot ∧ c.power.imageRunning = false ∧ c.bit CLK_STATUS.XTAL_QUAL = true ∧ c.clk.trim = none then
    let due := c.aon.wdDue && decide (nv.lifecycle ≠ 4 ∧ records ≠ .otherBad)
    let b := bootChoice nv records due
    let c := c.setAon { c.aon with wdTimes := if due then [] else c.aon.wdTimes.take 2 }
    let c := if nv.lifecycle = 4 then c else c.retainLog logOk
    let slot := b.slot.getD nv.primary
    let c := if slot = nv.primary ∧ records ≠ .selectorBad then c else c.nvOp (.primary slot)
    let c := if b.otherValid = nv.otherValid then c else c.nvOp (.otherValid b.otherValid)
    let c := if nv.activated then c.nvOp (.activated false) else c
    let c := c.showFlash nv slot b.otherValid
    match b.slot with
    | none =>
      let c := if b.bad.isSome then c.latch FWU_EVENT.BOOT_SLOT_BAD else c
      c.enterRecovery nv records
    | some s =>
      let c := (c.putB CLK_RESET.RECORD_BAD (records != .intact)).setPower { c.power with imageRunning := true }
      let c := (c.put ID_FW.FW_VERSION (imgVersion (nv.image s))).put FWU_SETTINGS.FMT_OWN (imgFormat (nv.image s))
      let c := c.put CLK_BOOT_TIME.ROM_MS c.bootMs
      c.bootEvents nv b s
  else c

/-! The image (R434, R475, R477, R515). -/

/-- The copy of the running image's own settings slot. -/
def NonVol.ownSettings (nv : NonVol) : Option Settings := nv.settings.getD nv.primary none

/-- R477: whether the running image applies its copy, as it is or converted. -/
def NonVol.settingsGood (nv : NonVol) : Bool :=
  match nv.ownSettings with
  | some x => decide (imgReadMin (nv.image nv.primary) ≤ x.format) && decide (x.format ≤ imgFormat (nv.image nv.primary))
  | none => false

/-- Whether a register is one of the ports' (R515). -/
def isPortReg (a : Nat) : Bool := decide (0x30000 ≤ a) && decide (a < 0x40000)

/-- `PORTS_UP` (R515, R52): the stored port and addressing fields apply and the ports start. -/
def Chip.bringPortsUp (c : Chip) (nv : NonVol) : Chip :=
  if c.st = .boot ∧ c.power.imageRunning = true ∧ c.power.portsUp = false then
    let c := if nv.settingsGood then
        match nv.ownSettings with
        | some x => c.loadWords isPortReg x.words
        | none => c
      else c
    let c := (c.startPort (c.startMode 0) 0).startPort (c.startMode 1) 1
    (c.setPower { c.power with portsUp := true }).showCut
  else c

/-- The status that follows the fields in force: the row program, the pool, the chain, the live units, the loads and the
ports of the bridge. -/
def Chip.refresh (c : Chip) : Chip :=
  let c := ((c.showProgram).showPool).showChain
  let c := (c.recount).showEngine
  (List.range 4).foldl Chip.showDmx c

/-- R475: on an RGBW tile the identity of a record has `K_W` 1.0. -/
def Chip.whiteCal (c : Chip) : Chip :=
  if c.channels = 4 then
    (List.range 4).foldl (fun c q => (List.range (c.regionPixels q).length).foldl (fun c i =>
      c.sramOp (.store (allocBase q + 16 * i + 14) [0x40#8])) c) c
  else c

/-- `SETTINGS_APPLIED` (R477, R511, R508): the copy of the settings acts by its format. -/
def Chip.applySettings (c : Chip) (nv : NonVol) : Chip :=
  if c.st = .boot ∧ c.power.portsUp = true ∧ c.power.settingsIn = false then
    let slot := nv.primary
    let own := imgFormat (nv.image slot)
    let c := c.put FWU_SETTINGS.FMT_FOUND (match nv.ownSettings with | some x => x.format | none => 0xFFFF)
    let good := nv.settingsGood
    let old := c
    let c := match nv.ownSettings with
      | some x => if good then (c.loadWords (fun a => !isPortReg a) x.words).put FWU_SAVE_GEN.SAVE_GEN x.generation else c
      | none => c
    let found := match nv.ownSettings with | some x => x.format | none => own
    let write := fun (c : Chip) =>
      let gen := (match nv.ownSettings with | some x => x.generation + 1 | none => 1) % 2 ^ 32
      (c.nvOp (.saveSettings slot { generation := gen, format := own, words := c.savedWords })).put FWU_SAVE_GEN.SAVE_GEN gen
    let src := if !good then 2 else if found = own then 0 else 1
    let c := if src = 2 then (write c).raiseFw 2 slot else if src = 1 then (write c).raiseFw 3 slot else c
    let roles := if c.bit CLK_ROLE_CFG.ROLE_OVERRIDE then c.get CLK_ROLE_CFG.ROLE_SET else c.get CLK_STRAPS.STRAP_ROLES
    let c := c.put ID_ROLES.ROLES roles
    let c := if c.targetOk then c.placeGamut else c
    let c := ((((c.whiteCal).takeLayout).refresh).rebuildTables).ctxBoundary allCtx
    let c := c.setColour { c.colour with tableNew := true }
    let c := if old.get CLK_CTRL.SRC_MODE ≠ c.get CLK_CTRL.SRC_MODE then c.srcModeChanged else c
    let c := (List.range 4).foldl (fun c n => if c.trigMode n = 1 ∨ c.trigMode n = 2 then c.armTrig n else c) c
    let c := ((c.chooseMaster).revalidate).put FWU_STATUS.SETTINGS_SRC src
    c.setPower { c.power with settingsIn := true, outputsDriven := true }
  else c

/-- R200, R220, R229: whether the start command is accepted: the planner rule, the strip limits and the item rule hold, and
every enabled lane of a bank supplied at 3.3 V has the lane rate it needs (R36, R278, R313). -/
def Chip.startOk (c : Chip) : Bool :=
  c.planOk c.pMax && c.stripsOk && decide (c.itemDemand ≤ 4096)
    && (!c.slowBank || decide (16 ≤ c.get SCN_TSET1.SCLK_DIV))

/-- `BOOT_LISTEN_END` (R434, R515, R490, R474): the device leaves Boot for Fenced or Stopped, starts the Boot calibration
run, and goes on to Running when the selector or `AUTO_START` requires it. -/
def Chip.bootEnd (c : Chip) (nv : NonVol) : Chip :=
  if c.st = .boot ∧ c.power.settingsIn = true then
    let again := nv.wasRunning && decide (c.get FWU_STATUS.SETTINGS_SRC ≠ 2)
    let c := if nv.wasRunning then c.nvOp (.running false) else c
    if nv.fenceMark then (c.enterFenced).raiseRed 1 (c.get RED_ID.PAIR_ID) 0 0
    else
      let c := (c.setSt .stopped).put CLK_BOOT_TIME.BOOT_MS c.bootMs
      let c := (c.startPair).startRun 1 [1, 2, 3, 4] none
      if (again || (c.bit ID_STATE_CTRL.AUTO_START && c.get FWU_STATUS.SETTINGS_SRC != 2)) && c.startOk then c.enterRunning
      else c
  else c

/-! The watchdog and Dormant (R441, R472, R516). -/

/-- `WATCHDOG_EXPIRY` (R441, R445, R472): `at_` is the instant on the always-on delay line, in milliseconds. -/
def Chip.watchdog (c : Chip) (at_ : Nat) : Chip :=
  if c.st = .off ∨ c.st = .reset ∨ c.st = .dormant then c
  else
    let c := c.fatal 0x0405 0xF001 0 causeWatchdog
    c.setAon { c.aon with wdTimes := (at_ :: c.aon.wdTimes).take 3 }

/-- R32, R145, R365, R516: entry into Dormant. The wake patterns are copied, the error log is emptied, group B loses its supply,
and P0 restarts in 1000BASE-X whatever its `SPEED`. -/
def Chip.enterDormant (c : Chip) : Chip :=
  if c.st = .stopped ∨ c.st = .running then
    let masks := (List.range 16).map (fun k => c.get (PRT0_WAKEm_MASK.WAKE_MASK (k / 4) (k % 4)))
    let crcs := (List.range 4).map (fun m => c.get (PRT0_WAKEm_CRC.WAKE_CRC m))
    let fresh := Chip.powerOn
    let power := { fresh.power with groupAGood := true }
    let errs := { fresh.errs with nextSeq := c.errs.nextSeq }
    let aon := { c.aon with wakeEn := c.get PRT0_WAKE_CTRL.WAKE_EN, wakeMask := masks, wakeCrc := crcs }
    let d : Chip :=
      { fresh with
        st := .dormant, answer := c.answer, freeCtr := c.freeCtr, power := power, errs := errs, aon := aon,
        sramOps := c.sramOps, nvOps := c.nvOps }
    d.startPort 1 0
  else c

end Sys2Proof.Machine
end

