-- ==== Sys2Proof/Machine/Registers.lean ====
section
/-!
DEFINITION. Access to the configuration space (R4 to R6, R352, R353, R565): what a word's bits are, what a read of it
answers and does, and the checks of a write.
-/

namespace Sys2Proof.Machine

open Sys2Proof

/-! The bits of a word (R4, R5). -/

/-- The row of a word in the register index, with no bits at all for a word that no register names (R565). Entry 0 of the
address table reads as zero and ignores writes (R189). -/
def rowOf (a : Nat) : RegRow :=
  if 0x4C000 ≤ a ∧ a < 0x4C010 then ⟨a, 0, 1, 0, 1, 0, 0, 0, 0, 0, 0, 0⟩
  else (regInfo a).getD ⟨a, 0, 1, 0, 1, 0, 0, 0, 0, 0, 0, 0⟩

/-- The read-write bits of a word. -/
def RegRow.rw (r : RegRow) : Nat := r.classS ||| r.classF ||| r.classL

/-- The bits of a word that act on a 1. -/
def RegRow.acts (r : RegRow) : Nat := r.w1c ||| r.wo

/-- The bits of `a` outside `m`. -/
def without (a m : Nat) : Nat := a - (a &&& m)

/-- The mask of a field in its word. -/
def Fld.bits (f : Fld) : Nat := (2 ^ f.width - 1) * 2 ^ f.lo

/-- R431: the re-provisioning bits of a word. -/
def reprovBits (a : Nat) : Nat :=
  if a = 0x20 then ID_NODE.NODE_ID.bits
  else if a = 0xB0000 then GNG_CTRL.GANG_ADDR.bits ||| GNG_CTRL.APEX_MODE.bits ||| GNG_CTRL.APEX_PRIO.bits
  else if a = 0xB0004 then GNG_ID.GANG_ID.bits
  else if a = 0xC0000 ∨ a = 0xC0004 ∨ (0xC0018 ≤ a ∧ a < 0xC0028) then 0xFFFFFFFF
  else 0

/-- A word of a write, at the address that holds it (R301). -/
def stageWord (a mask value : Nat) : StagedWord := ⟨regHome a, mask % 2 ^ 32, value % 2 ^ 32⟩

/-- R356: a staged word is added to others in ascending address order; what its mask selects replaces earlier values. -/
def putStaged (w : StagedWord) : List StagedWord → List StagedWord
  | [] => [w]
  | x :: l =>
    if w.addr < x.addr then w :: x :: l
    else if w.addr = x.addr then
      ⟨w.addr, x.mask ||| w.mask, without x.value w.mask ||| (w.value &&& w.mask)⟩ :: l
    else x :: putStaged w l

/-- Whether a word lies in a range of addresses. -/
def StagedWord.within (w : StagedWord) (lo hi : Nat) : Bool := decide (lo ≤ w.addr) && decide (w.addr < hi)

/-! Reads (R4, R70, R144, R563). -/

/-- Whether a read of the word clears or pops what it shows (RC words). -/
def isRC (a : Nat) : Bool :=
  a == 0x20120 || (decide (0x200A0 ≤ a) && decide (a < 0x200E0) && a % 16 == 0) || a == 0x60040 || a == 0xD0010
    || (decide (0x100000 ≤ a) && decide (a < 0x118000) && a % 8 == 0)

/-- The `AGE` of a stamp in units of `unit` ticks, which saturates at 255, its value before the first. -/
def Chip.ageOf (c : Chip) (stamp : Option Nat) (unit : Nat) : Nat :=
  match stamp with
  | none => 0xFF
  | some s => min ((c.time.c.toNat - s) / unit) 0xFF

/-- R249: word 0 of the trace window is read: the oldest entry is latched in its four words, zero when there is none. -/
def Chip.tracePop (c : Chip) : Chip :=
  let (c, e) := c.popTrace
  c.putWords 0x60040 (e.getD [0, 0, 0, 0])

/-- What the read of a word does first: snapshots and pops (R70, R91, R111, R249, R324, R410, R459, R499). -/
def Chip.beforeRead (c : Chip) (a : Nat) : Chip :=
  if a = 0x20030 then c.snapNow
  else if a = 0x20120 then c.popTsq
  else if 0x200A0 ≤ a ∧ a < 0x200E0 ∧ a % 16 = 0 then c.popCap ((a - 0x200A0) / 16)
  else if a = 0x60040 then c.tracePop
  else if a = 0xD0010 then c.logPop
  else if 0x91000 ≤ a ∧ a < 0x99000 ∧ a % 8 = 0 then c.fmapRead ((a - 0x91000) / 8)
  else if 0xB0100 ≤ a ∧ a < 0xB0500 ∧ a % 16 = 0 then c.memberRead ((a - 0xB0100) / 16)
  else if 0xF0100 ≤ a ∧ a < 0xF0200 ∧ a % 32 = 0 then c.calSetRead ((a - 0xF0100) / 32)
  else c

/-- The value of a word whose fields count time since an instant (R72, R116, R331); any other word as it stands. -/
def Chip.shownWord (c : Chip) (a : Nat) : Nat :=
  let w := (c.reg a).toNat
  if a = 0x10024 then insertField w CLK_COSC_MEAS.AGE (c.ageOf c.clk.measuredAt 800000000)
  else if 0x900A0 ≤ a ∧ a < 0x900D0 then
    let s := (a - 0x900A0) / 4
    insertField w (CHN_TEMPs.AGE s) (c.ageOf (c.chains.sensedAt.getD s none) 80000000)
  else if a = 0x2001C then (BitVec.ofInt 32 c.rateNow).toNat
  else if a = 0x20014 then (if c.time.servo = .holdover then c.holdMs % 2 ^ 32 else w)
  else w

/-- `READ` of one word (R4, R144, R563, R565). The low word of a counter clears it, and its high word is the snapshot. -/
def Chip.readWord (c : Chip) (a : Nat) : Chip × Nat :=
  if 0x100000 ≤ a ∧ a < 0x118000 then
    if a % 8 = 0 then
      let (c, v) := c.takeCounter a
      (c, v % 2 ^ 32)
    else (c, smGet (fun _ => 0) c.snaps (a - 4))
  else
    let a := regHome a
    if 0x4C000 ≤ a ∧ a < 0x4C010 then (c, 0)
    else
      let c := c.beforeRead a
      (c, c.shownWord a)

/-- Several words, each at its own access (R563). -/
def readWords : Nat → Chip → Nat → Chip × List Nat
  | 0, c, _ => (c, [])
  | n + 1, c, a =>
    let (c, v) := c.readWord a
    let (c, l) := readWords n c (a + 4)
    (c, v :: l)

/-- Whether `n` words from `a` lie in the decoded configuration space (R352, R565): the place of the first that does
not. -/
def badWord : Nat → Nat → Option Nat
  | 0, _ => none
  | n + 1, a => if inDecoded a && decide (a < 0x1000000) then (badWord n (a + 4)).map (· + 1) else some 0

/-! The rules of R353. -/

/-- A rule over the configuration: the words whose fields it judges, and whether a configuration keeps it. -/
structure ConfigRule where
  judges : Nat → Bool
  holds : Chip → Bool

/-- Whether an address lies in one of some ranges. -/
def inRanges (l : List (Nat × Nat)) (a : Nat) : Bool := l.any (fun r => decide (r.1 ≤ a) && decide (a < r.2))

/-- The words of the stream contexts and their address table. -/
def ctxWords : List (Nat × Nat) := [(0x40000, 0x48000), (0x4C000, 0x50000)]

/-- The words of the feeds, the facets and the scan engines, from which the memory plan, the items and the load follow. -/
def planWords : List (Nat × Nat) :=
  [(0x4A010, 0x4A020), (0x50000, 0x50080), (0x70000, 0x70004), (0x70010, 0x70050), (0x80000, 0x90000)] ++ ctxWords

/-- R397: the ranges of the DMX ports and the send period of those that send. -/
def Chip.dmxOk (c : Chip) : Bool :=
  (List.range 4).all (fun p =>
    let slots := c.get (BRG_PORTp_CFG.SLOTS p)
    let brk := c.get (BRG_PORTp_TIME.BREAK_US p)
    let mab := c.get (BRG_PORTp_TIME.MAB_US p)
    let need := brk + mab + 44 * (slots + 1) + 176
    decide (1 ≤ slots ∧ slots ≤ 512) && decide (92 ≤ brk ∧ brk ≤ 1000) && decide (12 ≤ mab ∧ mab ≤ 100)
      && (dmxMode c p != 1 ||
        (if c.bit (BRG_PORTp_CFG.TX_SYNC p) then
          decide (need * c.period.2 ≤ max 1 (c.get (BRG_PORTp_TIME.TX_EVERY p)) * c.period.1 * 1000000)
         else decide (need ≤ c.get (BRG_PORTp_PERIOD.TX_PERIOD_US p)))))

/-- The destination slots of a rule, as port × 1024 + slot. -/
def Chip.ruleDst (c : Chip) (r : Nat) : List Nat :=
  let per := if c.bit (BRG_RULEi_W1.DST16 r) then 2 else 1
  (List.range (per * (c.get (BRG_RULEi_W0.COUNT r) + 1))).map (fun i =>
    c.get (BRG_RULEi_W1.DST_PORT r) * 1024 + c.get (BRG_RULEi_W1.DST_SLOT r) + i)

/-- R400: whether the enabled rules are valid. -/
def Chip.rulesOk (c : Chip) : Bool :=
  let en := (List.range 1024).filter (fun r => c.bit (BRG_RULEi_W0.EN r))
  en.all (fun r =>
    let src := c.get (BRG_RULEi_W0.SRC_SLOT r)
    let n := c.get (BRG_RULEi_W0.COUNT r) + 1
    let p := c.get (BRG_RULEi_W1.DST_PORT r)
    let dst := c.get (BRG_RULEi_W1.DST_SLOT r)
    c.ctxMaps (c.get (BRG_RULEi_W0.SRC_CTX r))
      && decide (1 ≤ src ∧ src + n * (if c.bit (BRG_RULEi_W0.SRC16 r) then 2 else 1) ≤ 513)
      && decide (1 ≤ dst ∧ dst + n * (if c.bit (BRG_RULEi_W1.DST16 r) then 2 else 1) ≤ c.get (BRG_PORTp_CFG.SLOTS p) + 1)
      && dmxMode c p == 1)
    && noRepeats (en.flatMap c.ruleDst)

/-- R410: entry 0 of the address table gives a re-send no group. -/
def Chip.resendOk (c : Chip) : Bool :=
  (List.range 16).all (fun k => !c.bit (GNG_RSk_W0.RS_EN k) || c.bit (GNG_RSk_W3.RS_GROUP k))

/-- Every rule of R353. -/
def configRules : List ConfigRule :=
  [⟨inRanges [(0x80000, 0x80020), (0x80100, 0x80200), (0x88100, 0x88200), (0x9000C, 0x90010)], Chip.tsetOk⟩,
   ⟨inRanges [(0x80000, 0x90000), (0x9000C, 0x90010)], fun c => c.mapOk && c.sizingOk⟩,
   ⟨inRanges [(0x80000, 0x80018), (0x90000, 0x90030)], Chip.chainOk⟩,
   ⟨inRanges [(0x80000, 0x80004), (0x70000, 0x70004), (0x70010, 0x70050)], Chip.masksOk⟩,
   ⟨inRanges ((0x80018, 0x8001C) :: ctxWords), Chip.contextsOk⟩,
   ⟨inRanges planWords, fun c => c.stripsOk && (List.range 4).all c.feedOk⟩,
   ⟨inRanges planWords, fun c => c.planOk c.pMax⟩,
   ⟨inRanges planWords, fun c => decide (c.itemDemand ≤ 4096)⟩,
   ⟨inRanges ([(0x60000, 0x60004), (0x90000, 0x90004), (0xA0000, 0xA0080), (0xA1000, 0xA5000)] ++ planWords),
     fun c => c.loadOk c.coresLive⟩,
   ⟨inRanges [(0x70060, 0x70070)], Chip.targetOk⟩,
   ⟨inRanges [(0x700E0, 0x700F0)], Chip.pointsOk⟩,
   ⟨inRanges [(0x80000, 0x80004), (0xA0000, 0xA0080)], Chip.dmxOk⟩,
   ⟨inRanges [(0x40000, 0x48000), (0xA0000, 0xA0080), (0xA1000, 0xA5000)], Chip.rulesOk⟩,
   ⟨inRanges [(0xB0800, 0xB0900)], Chip.resendOk⟩]

/-- The read-write bits of a word in force. -/
def Chip.putRw (c : Chip) (w : StagedWord) : Chip := c.applyWord { w with mask := w.mask &&& (rowOf w.addr).rw }

/-- The configuration with every word of pending commits in force. -/
def Chip.overlay (c : Chip) : Chip :=
  c.pend.foldl (fun d p => (p.lWords ++ p.fWords).foldl Chip.putRw d) c

/-! The checks of R353. -/

/-- The place of the first element that satisfies `p`. -/
def firstIdx {α : Type} (p : α → Bool) : List α → Option Nat
  | [] => none
  | x :: l => if p x then some 0 else (firstIdx p l).map (· + 1)

/-- R357: whether a transaction other than `own` holds a lock on the word. A word that no register names takes none
(R565). -/
def Chip.lockedBy (c : Chip) (own a : Nat) : Bool :=
  (regInfo a).isSome && c.sel.txns.any (fun t => t.id != own && t.words.any (fun x => x.addr == a))

/-- R351, R353, R357, R431: what refuses a word by itself: state, class or lock. -/
def Chip.wordRefusal (c : Chip) (own : Nat) (w : StagedWord) : Option Status :=
  let r := rowOf w.addr
  let changed := ((c.reg w.addr).toNat ^^^ w.value) &&& w.mask &&& r.rw
  let touched := changed ||| (w.value &&& w.mask &&& r.acts)
  if c.st = .fenced ∧ without touched (reprovBits w.addr) ≠ 0 then some .busy
  else if changed &&& r.classS ≠ 0 ∧ c.st ≠ .stopped ∧ c.st ≠ .fenced then some .fieldClass
  else if c.lockedBy own w.addr then some .txnConflict
  else none

/-- The first word that is refused by itself. -/
def Chip.firstRefused (c : Chip) (own : Nat) (ws : List StagedWord) : Option (Status × Nat) :=
  match firstIdx (fun w => (c.wordRefusal own w).isSome) ws with
  | none => none
  | some i => match ws[i]? with
    | none => none
    | some w => (c.wordRefusal own w).map (fun s => (s, i))

/-- Whether a word writes a 1 to a bit that acts. -/
def StagedWord.sets (w : StagedWord) (f : Fld) : Bool := w.addr == f.addr && (w.value &&& w.mask &&& f.bits) != 0

/-- What refuses a word for what it does (R12, R63, R66, R200, R325, R369, R428, R432, R476); `d` is the configuration
that would result. -/
def Chip.actionRefusal (c d : Chip) (w : StagedWord) : Option Status :=
  if w.addr = 0x124 then
    if w.sets ID_STATE_CTRL.START && w.sets ID_STATE_CTRL.STOP then some .txnConflict
    else if w.sets ID_STATE_CTRL.START && c.st == .stopped then (if d.startOk then none else some .txnConflict)
    else if w.sets ID_STATE_CTRL.START && c.st != .running then some .busy
    else none
  else if w.sets CLK_CTRL.XTAL_RESTART then
    if c.bit CLK_STATUS.WAIT_XTAL || (c.activeSrc == some .xtal && !c.qualified .p0 && !c.qualified .p1) then some .busy
    else none
  else if w.sets CLK_COSC_TRIM.TRIM_NOW then (if c.clk.trim.isSome then some .busy else none)
  else if w.sets CHN_CTRL.CFG_NOW then (if c.st = .stopped then none else some .busy)
  else if w.sets RED_CTRL.SWAP_NOW then (if c.swapReady then none else some .busy)
  else if w.sets FWU_CTRL.SAVE then (if c.loading.saving.isSome then some .busy else none)
  else if w.addr = 0x24 then
    if c.bit ID_PROFILE.PINNED && d.get ID_PROFILE.PROFILE != c.get ID_PROFILE.PROFILE then some .txnConflict else none
  else if w.within 0xC0100 0xC0180 then
    if d.reg w.addr != c.reg w.addr && !c.holdsSubst then some .txnConflict else none
  else none

/-- The earlier of two refusals. -/
def earlier (a b : Option (Status × Nat)) : Option (Status × Nat) :=
  match a, b with
  | some x, some y => if y.2 < x.2 then some y else some x
  | some x, none => some x
  | none, y => y

/-- The place of the first word whose rule `k` a write breaks that would make `d` of the configuration. A word that selects
no read-write bit breaks no rule. -/
def ConfigRule.judge (k : ConfigRule) (d : Chip) (ws : List StagedWord) : Option (Status × Nat) :=
  match firstIdx (fun w => k.judges w.addr && w.mask &&& (rowOf w.addr).rw != 0) ws with
  | none => none
  | some i => if k.holds d then none else some (.txnConflict, i)

/-- The first word that is refused for what it does. -/
def Chip.actionsRefusal (c d : Chip) (ws : List StagedWord) : Option (Status × Nat) :=
  match firstIdx (fun w => (c.actionRefusal d w).isSome) ws with
  | none => none
  | some i => match ws[i]? with
    | none => none
    | some w => (c.actionRefusal d w).map (fun s => (s, i))

/-- R353, R358: what refuses a write that would make `d` of the configuration: the broken rules and refused actions, and
of them the one that concerns the first word. -/
def Chip.ruleRefusal (c d : Chip) (ws : List StagedWord) : Option (Status × Nat) :=
  earlier (configRules.foldl (fun r k => earlier r (k.judge d ws)) none) (c.actionsRefusal d ws)

/-- R353: every check of a write: the status and the place of the first failing word, or none. -/
def Chip.writeRefusal (c : Chip) (own : Nat) (ws : List StagedWord) : Option (Status × Nat) :=
  match c.firstRefused own ws with
  | some r => some r
  | none => c.ruleRefusal (ws.foldl Chip.putRw c.overlay) ws

end Sys2Proof.Machine
end

