-- ==== Sys2Proof/Machine/Commit.lean ====
section
/-!
DEFINITION. Writes that take effect (R4, R5, R206, R305, R354): the effect boundary of a commit, what waits for it, and
what follows from a field that has changed.
-/

namespace Sys2Proof.Machine

open Sys2Proof

/-! Another grid (R104, R305). -/

/-- The first boundary of the grid in force at or after the time `t`. -/
def Chip.gridFirst (c : Chip) (t : Int) : Int :=
  let n := gridN c.period c.gridOffset t
  if c.boundary n = t then n else n + 1

/-- What a feed shows, with its frames numbered by `g`. -/
def Show.renumber (g : Int → Int) : Show → Show
  | .live s o => .live s (g o)
  | .rewind s o => .rewind s (g o)
  | x => x

/-- A feed with its frames numbered by `g`. -/
def Feed.renumber (g : Int → Int) (d : Feed) : Feed :=
  { d with
    frames := d.frames.map (fun x => { x with o := g x.o }), mark := d.mark.map (fun m => (m.1, g m.2)),
    ring := d.ring.renumber g, cur := d.cur.renumber g,
    decided := d.decided.map (fun x => (x.1.renumber g, x.2.renumber g)) }

/-- R305: the grid in force is another than in `old`: every frame kept by its number takes the number of the first boundary
of the new grid at or after its presentation boundary, and the last boundary passed that of the new grid's last one (log entry 28). -/
def Chip.regrid (c old : Chip) : Chip :=
  if old.period = c.period ∧ old.gridOffset = c.gridOffset then c
  else
    let g := fun n => c.gridFirst (old.boundary n)
    let at_ := old.boundary old.frameNow
    let last := gridN c.period c.gridOffset at_
    let done := decide (c.boundary (last + 1) - freezeU ≤ at_)
    let c := match old.time.lastFrame with
      | some _ => c.setTime { c.time with lastFrame := some last, freezeDone := done }
      | none => c
    let c := c.setPend (c.pend.map (fun p => { p with boundary := g p.boundary }))
    let c := match c.scan.display with
      | .blankUntil b => c.setDisplay (.blankUntil (g b))
      | _ => c
    let c := c.setScan { c.scan with sub := none, starved := [] }
    let c := c.setItems (c.sched.items.map (fun i => { i with frame := g i.frame }))
    (List.range 4).foldl (fun c f => c.setFeed f ((c.feed f).renumber (fun o => g (o + c.delay f) - c.delay f))) c

/-- R305: with another period, the frames of the old grid that have a slot are given up, but for the mark's (log
entry 28). -/
def Chip.giveUpOld (c old : Chip) : Chip :=
  if old.period = c.period then c
  else (List.range 4).foldl (fun c f =>
    let d := c.feed f
    let held := fun (x : FrameRec) => d.mark.map (·.1) == some x.slot
    let c := (d.frames.filter (fun x => !held x)).foldl (fun c x => c.abandon f (x.o + c.delay f)) c
    c.setFeed f { d with frames := d.frames.filter held }) c

/-! What follows from changed fields. `old` is the configuration before the words. -/

/-- Whether a word of the list lies in one of some ranges. -/
def hits (ws : List StagedWord) (l : List (Nat × Nat)) : Bool := ws.any (fun w => inRanges l w.addr)

/-- `SRC_MODE` (R54), `UPSTREAM` (R57), and `SWITCH_COUNT`, which `SRC_SWITCH` clears (R72). -/
def Chip.afterClk (c old : Chip) : Chip :=
  let c := if old.bit CLK_EVENT.SRC_SWITCH && !c.bit CLK_EVENT.SRC_SWITCH then c.put CLK_EVENT.SWITCH_COUNT 0 else c
  if old.get CLK_CTRL.SRC_MODE ≠ c.get CLK_CTRL.SRC_MODE then c.srcModeChanged else c.takeReference

/-- The time source, the role and the domain (R80 to R83, R98, R100). A change of `TIME_SRC` between `PTP` and `FSYNC` leaves
the servo state as it is until the new source moves it (DESIGN CHOICE, log entry 125). -/
def Chip.afterTim (c old : Chip) : Chip :=
  let was := fun (f : Fld) => old.get f != c.get f
  if was TIM_CTRL.TIME_SRC || was TIM_CTRL.PROFILE || was TIM_CTRL.PTP_ROLE || was TIM_CTRL.DOMAIN then
    let c := if was TIM_CTRL.DOMAIN then c.setTime { c.time with foreign := [] } else c
    let c := if c.get TIM_CTRL.TIME_SRC ≥ 2 ∧ c.time.servo ≠ .freerun then c.setServo .freerun else c
    (c.chooseMaster).revalidate
  else c

/-- R112: the trigger that a word belongs to, and whether the word arms it: a write to `TIME`, or one that sets `MODE` to
`ONCE` or `PERIODIC`. -/
def StagedWord.arms (w : StagedWord) : Option Nat :=
  let n := (w.addr - 0x200E0) / 16
  if !w.within 0x200E0 0x20120 then none
  else if w.addr % 16 = 0 then (if w.mask &&& (TIM_TRIGn_CTRL.MODE n).bits = 0 then none else some n)
  else if w.addr % 16 = 4 then (if w.mask = 0 then none else some n)
  else none

/-- R112: a trigger is armed, or, with its mode off or at another kind, has no target. -/
def Chip.afterTrig (c : Chip) (ws : List StagedWord) : Chip :=
  (List.range 4).foldl (fun c n =>
    if ws.any (fun w => w.arms == some n) then
      if c.trigMode n = 1 ∨ c.trigMode n = 2 then c.armTrig n else c.setTrig n { c.trig n with target := none }
    else c) c

/-- The settings of a port's link, with which it starts anew (R118, R119), `CUT_ACTIVE` (R126), and a write of 1 to `WM_HIT`,
whatever it holds (R138). -/
def Chip.afterPort (c old : Chip) (ws : List StagedWord) (p : PortIx) : Chip :=
  let was := fun (f : Fld) => old.get f != c.get f
  let c := if (was (PRTn_CTRL.SPEED p) || was (PRTn_CTRL.FEC p) || was (PRTn_CTRL.AN_EN p)) && c.portsStarted then
      (c.linkDown p).startPort (c.startMode p) p
    else c
  let c := if ws.any (fun w => w.sets (PRTn_EVENT.WM_HIT p)) then c.wmHitClear p else c
  c.showCut

/-- R186: whether the fields that name a context's packets have changed. -/
def Chip.keyChanged (c old : Chip) (x : Nat) : Bool :=
  [STC_CTRL.TYPE x, STC_CTRL.PATHS x, STC_MATCH.UDP_PORT x, STC_MATCH.STREAM_ID x, STC_ADDR_P.GROUP_IDX x 0,
    STC_ADDR_P.GROUP_IDX x 1, STC_ADDR_P.SOURCE_IDX x 0, STC_ADDR_P.SOURCE_IDX x 1].any (fun f => old.get f != c.get f)

/-- R186: the frames whose origin lies at or after the present boundary take the contexts' settings of their origin. -/
def Chip.retakeCtxs (c : Chip) : Chip :=
  (List.range 4).foldl (fun c f =>
    let d := c.feed f
    if d.frames.isEmpty then c
    else
      let now := c.frameNow
      d.frames.foldl (fun c x =>
        let l := c.ctxsAt f x.o
        if now ≤ x.o ∧ l ≠ x.ctxs then c.recover f x l else c) c) c

/-- The contexts (R186, R187). What the words held before stays in mind for the frames of earlier origin. -/
def Chip.afterStc (c old : Chip) (ws : List StagedWord) : Chip :=
  let mine := ws.filter (fun w => w.within 0x40000 0x48000)
  let touched := mine.map (fun w => (w.addr - 0x40000) / 0x40)
  if touched.isEmpty then c
  else
    let before := mine.map (fun w => { w with value := (old.reg w.addr).toNat })
    let c := c.setWas ((c.frameNow, before) :: c.was)
    ((c.retakeCtxs).ctxBoundary ((dedupSorted (sortNat touched)).filter (c.keyChanged old)))

/-- The words that the layout of the memory depends on (R200). -/
def layoutWords : List (Nat × Nat) :=
  [(0x40000, 0x48000), (0x50000, 0x50004), (0x50020, 0x50024), (0x50040, 0x50044), (0x50060, 0x50064),
   (0x70000, 0x70004), (0x80000, 0x80004), (0x80018, 0x8001C), (0x80100, 0x90000)]

/-- The words that the row program, the pool, the loads and the live units follow. -/
def shapeWords : List (Nat × Nat) :=
  layoutWords ++ [(0x4A010, 0x4A020), (0x60000, 0x60004), (0x70010, 0x70050), (0x80004, 0x80020), (0x90000, 0x90030),
    (0xA0000, 0xA0080), (0xA1000, 0xA5000)]

/-- Whether a timing set's fields have changed (R277). -/
def Chip.tsetChanged (c old : Chip) : Bool :=
  [0x80000, 0x80004, 0x80008, 0x8000C, 0x80010].any (fun a => old.reg a != c.reg a)

/-- Whether words have changed a register of the ranges `rs`. -/
def Chip.changedIn (c old : Chip) (ws : List StagedWord) (rs : List (Nat × Nat)) : Bool :=
  ws.any (fun w => hits [w] rs && old.reg w.addr != c.reg w.addr)

/-- Colour: the bin table, the temperature points and the rise of `BIN_EN`, after which the gains move at once (R264), the
target (R257) and the facets (R269). -/
def Chip.afterCol (c old : Chip) (ws : List StagedWord) : Chip :=
  let moved := c.changedIn old ws [(0x700E0, 0x700F0), (0x72000, 0x74000)]
  let c := if moved || (c.bit COL_CTRL.BIN_EN && !old.bit COL_CTRL.BIN_EN) then
      c.setColour { c.colour with tableNew := true }
    else c
  let c := if hits ws [(0x70060, 0x70070)] then c.placeGamut else c
  if c.timeValid && hits ws [(0x70000, 0x70004), (0x70010, 0x70050), (0x80000, 0x80010)] then c.showFacets else c

/-- The gang (R371, R378): another gang is left as apex and its senders are unknown; a device that may not be apex is
none. -/
def Chip.afterGng (c old : Chip) : Chip :=
  let other := old.get GNG_ID.GANG_ID != c.get GNG_ID.GANG_ID
  let bars := c.get GNG_CTRL.APEX_MODE == 0 || c.get GNG_CTRL.APEX_MODE == 3
  let c := if c.gang.role ≠ .member ∧ (other || bars) then c.leaveApex else c
  if other then
    ((c.setGang { c.gang with peers := [], members := [], signals := [], formed := [] }).put GNG_STATUS.APEX_KNOWN 0).showMembers
  else c

/-- The director pair (R420), and the substitution entries, whose change raises the epoch and is announced
(R432), by a device that is not Fenced (R34). -/
def Chip.afterRed (c old : Chip) (nv : NonVol) : Chip :=
  let c := if old.bit RED_CTRL.PAIR_EN && !c.bit RED_CTRL.PAIR_EN then c.setPairState 0
    else if !old.bit RED_CTRL.PAIR_EN && c.bit RED_CTRL.PAIR_EN && c.st == .stopped then c.startPair
    else c
  let new := (List.range 16).filter (fun i => old.reg (0xC0100 + 8 * i) != c.reg (0xC0100 + 8 * i))
  if new.isEmpty then c
  else
    let c := c.setEpoch ((c.epoch + 1) % 2 ^ 32)
    let c := new.foldl (fun c i => c.setReg (0xC0104 + 8 * i) (wordOf c.epoch)) c
    if c.st = .fenced then c else c.announce3 nv

/-- R200: while no frame boundary exists, a new layout is taken at once. -/
def Chip.layoutNow (c : Chip) : Chip :=
  if c.layoutOld && !c.timeValid then (if c.layoutDue then c.relayout else c.setLayoutOld false) else c

/-- What follows from words that have come into force. -/
def Chip.afterWords (c old : Chip) (nv : NonVol) (ws : List StagedWord) : Chip :=
  let c := if hits ws [(0x80000, 0x80004), (0x20020, 0x20024)] then (c.giveUpOld old).regrid old else c
  let c := if hits ws [(0x10000, 0x1000C)] then c.afterClk old else c
  let c := if hits ws [(0x20000, 0x20004)] then c.afterTim old else c
  let c := if hits ws [(0x200E0, 0x20120)] then c.afterTrig ws else c
  let c := if hits ws [(0x30000, 0x30010)] then c.afterPort old ws 0 else c
  let c := if hits ws [(0x38000, 0x38010)] then c.afterPort old ws 1 else c
  let c := c.afterStc old ws
  let c := if hits ws layoutWords then c.setLayoutOld true else c
  let c := c.afterCol old ws
  let c := if hits ws [(0x80000, 0x80014), (0x90010, 0x90014)]
      && (c.tsetChanged old || old.get CHN_RB.RB_DIV != c.get CHN_RB.RB_DIV) then c.restartDeskew else c
  let c := if hits ws shapeWords then c.refresh else c
  let c := if hits ws [(0xB0000, 0xB0008)] then c.afterGng old else c
  let c := if hits ws [(0xC0000, 0xC0004), (0xC0100, 0xC0180)] then c.afterRed old nv else c
  let c := if hits ws [(0x20000, 0x20004), (0x40000, 0x50000), (0xB0000, 0xB0018), (0xB0800, 0xB0900), (0xC0000, 0xC0028)] then c.rebuildTables
    else c
  let c := if old.get ID_PROFILE.PROFILE ≠ c.get ID_PROFILE.PROFILE then c.nvOp (.profile (c.get ID_PROFILE.PROFILE)) else c
  let c := if hits ws [(0xD0004, 0xD0008)] then c.derived c.halvesLost else c
  let shows := (List.range 4).any (fun f => old.get (FST_FEEDf_SHOW.SHOW_SRC f) != c.get (FST_FEEDf_SHOW.SHOW_SRC f))
  let c := if shows then c.message 0x01 (c.get GNG_CTRL.GANG_ADDR) (frame32 c.frameNow) else c
  c.layoutNow

/-! The actions of write-only bits (R4). -/

/-- The actions of one word, in the order of its bits. An action that its conditions refuse at the instant it is taken does
nothing. -/
def Chip.actWord (c : Chip) (nv : NonVol) (w : StagedWord) : Chip :=
  if w.sets CLK_CTRL.XTAL_RESTART then c.xtalRestart
  else if w.sets CLK_COSC_TRIM.TRIM_NOW then c.trimNow
  else if w.sets TIM_CTRL.SET_GO then c.setGo
  else if w.sets SCH_CTRL.PEAK_CLR then c.peakClear
  else if w.sets SCH_TRACE_CTRL.TR_CLEAR then c.clearTrace
  else if w.addr = 0x90000 then
    let c := if w.sets CHN_CTRL.CFG_NOW then c.cfgNow else c
    if w.sets CHN_CTRL.FMAP_CLEAR then c.fmapClear else c
  else if w.sets ID_STATE_CTRL.START then (if c.st == .stopped && c.startOk then c.enterRunning else c)
  else if w.sets ID_STATE_CTRL.STOP then (if c.st = .running then c.enterStopped else c)
  else if w.sets GNG_CTRL.FORGET then c.forget
  else if w.addr = 0xC0000 then
    let c := if w.sets RED_CTRL.SWAP_NOW then (c.swapNow nv).1 else c
    if w.sets RED_CTRL.REPROVISION then c.reprovision else c
  else if w.sets ERR_CTRL.LOG_CLEAR then c.logClear
  else if w.addr = 0xE0000 then
    let c := if w.sets FWU_CTRL.SAVE then c.save else c
    if w.sets FWU_CTRL.ACT_CANCEL then c.actCancel nv else c
  else c

/-- A write of 1 to a W1C bit clears it (R4). -/
def Chip.clearW1c (c : Chip) (w : StagedWord) : Chip :=
  let m := w.value &&& w.mask &&& (rowOf w.addr).w1c
  if m = 0 then c else c.setReg w.addr (wordOf (without (c.reg w.addr).toNat m))

/-- Whether a word selects a bit that holds a value: a read-write or a W1C bit. -/
def StagedWord.holds (w : StagedWord) : Bool := w.mask &&& ((rowOf w.addr).rw ||| (rowOf w.addr).w1c) != 0

/-- R243: a commit that leaves U at `SHED_AT` or below ends the cause of shed operation. -/
def Chip.noteLoad (c : Chip) : Chip :=
  if c.bit SCH_STATUS.SHED_ACTIVE && !c.overloaded then c.setSched { c.sched with shedEnd := true } else c

/-- The fields of words take their values, W1C bits clear, and what follows from them follows (R4). -/
def Chip.takeFields (c : Chip) (nv : NonVol) (ws : List StagedWord) : Chip :=
  if ws.isEmpty then c else ((ws.foldl Chip.clearW1c (ws.foldl Chip.putRw c)).afterWords c nv ws).noteLoad

/-- Words come into force (R4): first their fields, then the actions of their write-only bits. -/
def Chip.takeWords (c : Chip) (nv : NonVol) (ws : List StagedWord) : Chip :=
  let d := c.takeFields nv (ws.filter StagedWord.holds)
  let acts := ws.filter (fun w => w.value &&& w.mask &&& (rowOf w.addr).wo ≠ 0)
  (acts.foldl (fun c w => c.actWord nv w) d).setAnswer c.answer

/-! The effect boundary (R206, R305, R354). -/

/-- The class F bits of a word. -/
def StagedWord.partF (w : StagedWord) : StagedWord := { w with mask := w.mask &&& (rowOf w.addr).classF }

/-- The class L bits of a word, with its write-only bits. -/
def StagedWord.partL (w : StagedWord) : StagedWord :=
  { w with mask := w.mask &&& ((rowOf w.addr).classL ||| (rowOf w.addr).wo) }

/-- The bits of a word that act at once: class S and W1C. -/
def StagedWord.partNow (w : StagedWord) : StagedWord :=
  { w with mask := w.mask &&& ((rowOf w.addr).classS ||| (rowOf w.addr).w1c) }

/-- The parts of words that have any bit. -/
def parts (p : StagedWord → StagedWord) (ws : List StagedWord) : List StagedWord := (ws.map p).filter (fun w => w.mask ≠ 0)

/-- Whether words carry a timing set (R277). -/
def carriesTset (ws : List StagedWord) : Bool := hits ws [(0x80000, 0x80014)]

/-- Whether words carry `SHOW_SRC` (R206). -/
def carriesShow (ws : List StagedWord) : Bool :=
  hits ws [(0x50004, 0x50008), (0x50024, 0x50028), (0x50044, 0x50048), (0x50064, 0x50068)]

/-- R208, R306: `PENDING`, `PENDING_SHOW` and `TSET_PENDING`. -/
def Chip.showPending (c : Chip) : Chip :=
  let c := (List.range 4).foldl (fun c f =>
    let a := 0x50004 + 0x20 * f
    let bs := (c.pend.filter (fun p => p.fWords.any (fun w => w.addr == a))).map (·.boundary)
    match bs with
    | [] => (c.put (FST_FEEDf_STATUS.PENDING f) 0).put (FST_FEEDf_STATUS.PENDING_SHOW f) 0
    | b :: bs =>
      let n := bs.foldl min b
      (c.put (FST_FEEDf_STATUS.PENDING f) 1).put (FST_FEEDf_STATUS.PENDING_SHOW f)
        ((c.viewAt n).get (FST_FEEDf_SHOW.SHOW_SRC f))) c
  let t := c.pend.any (·.tset)
  (c.putB (SCN_x_STATUS.TSET_PENDING 0) t).putB (SCN_x_STATUS.TSET_PENDING 1) t

/-- R359, R367: the `TXN` event of a transaction: its key, its ID and the cause. -/
def Chip.txnEvent (c : Chip) (key id cause value : Nat) : Chip := c.event 8 3 cause key 0 id value

/-- The number of the effect boundary of a commit that carries the class F words `f`, with or without class L words (R206,
R305, R354). -/
def Chip.effectBoundary (c : Chip) (f : List StagedWord) (hasL : Bool) : Int :=
  let late := carriesShow f || (hasL && !carriesTset f)
  if late && c.pastFreeze then c.frameNow + 2 else c.frameNow + 1

/-- `EFFECT_FRAME` of a commit: with a timing set, the number of T_new on the new grid (R305). -/
def Chip.effectFrame (c : Chip) (f : List StagedWord) (n : Int) : Nat :=
  if carriesTset f then
    let d := f.foldl Chip.putRw c.overlay
    frame32 (d.gridFirst (c.boundary n))
  else frame32 n

/-- R305, R308: a timing set has taken effect, `frame` being the number of T_new. While time is invalid there is none. -/
def Chip.tsetApplied (c : Chip) (frame : Option Int) : Chip :=
  (List.range 2).foldl (fun c h =>
    let c := match frame with
      | some n => c.put (SCN_x_TSET_FRAME.TSET_FRAME h) (frame32 n)
      | none => c
    (c.bump (scanCnt h 0x18) 1).raiseScan SCN_x_EVENT.TSET_APPLIED h 2) c

/-- R354, R359: checked words are committed, with the event of a transaction committed at a given time. Answers
`EFFECT_FRAME`. -/
def Chip.commitWords (c : Chip) (nv : NonVol) (ws : List StagedWord) (ev : Option (Nat × Nat × Nat)) : Chip × Nat :=
  let f := parts StagedWord.partF ws
  let place := fun (c : Chip) => match ev with
    | some (key, id, cause) => c.txnEvent key id cause 0
    | none => c
  if f.isEmpty || !c.timeValid then
    let c := c.takeWords nv ws
    (place (if carriesTset f then c.tsetApplied none else c), 0xFFFFFFFF)
  else
    let l := parts StagedWord.partL ws
    let n := c.effectBoundary f (!l.isEmpty)
    let eff := c.effectFrame f n
    let lNow := carriesTset f && !carriesShow f && c.pastFreeze
    let now := parts StagedWord.partNow ws ++ (if lNow then l else [])
    let p : Pend := ⟨n, f, if lNow then [] else l, carriesTset f, ev⟩
    let c := c.takeWords nv now
    let c := c.setPend (c.pend ++ [p])
    ((if hits f [(0x40000, 0x48000)] then c.retakeCtxs else c).showPending, eff)

/-- R354, R359: pending commits come into force whole, with their events. -/
def Chip.takePends (c : Chip) (nv : NonVol) (ps : List Pend) : Chip :=
  if ps.isEmpty then c
  else
    let c := c.takeWords nv (ps.flatMap (fun p => p.lWords ++ p.fWords))
    ps.foldl (fun c p => match p.event with
      | some (key, id, cause) => c.txnEvent key id cause 0
      | none => c) c

/-- R354: time is invalid, and every pending commit comes into force at once. -/
def Chip.settle (c : Chip) (nv : NonVol) : Chip :=
  let ps := c.pend
  let tset := ps.any (·.tset)
  let c := ((c.setPend []).takePends nv ps).showPending
  if tset then c.tsetApplied none else c

/-- R5, R207, R353: a write outside a transaction: its status, `EFFECT_FRAME` and `FAIL_INDEX`. -/
def Chip.writeNow (c : Chip) (nv : NonVol) (ws : List StagedWord) : Chip × Status × Nat × Nat :=
  match c.writeRefusal 0 ws with
  | some (s, i) => (c, s, 0xFFFFFFFF, i)
  | none =>
    let (c, eff) := c.commitWords nv ws none
    (c, .ok, eff, 0xFFFF)

/-- Whether the state lets a write reach the configuration at all (R351). -/
def Chip.writable (c : Chip) : Bool := c.st == .stopped || c.st == .running || c.st == .fenced

/-- A write of one word by itself, as the rows about single fields have it: the masked bits of the word at `a`. The status
is latched as the answer. In a state without writes it does not take place. -/
def Chip.writeField (c : Chip) (nv : NonVol) (a mask value : Nat) : Chip :=
  if !c.writable then c
  else if (badWord 1 a).isSome || a % 4 ≠ 0 then c.ans .badAddress []
  else
    let (c, s, eff, _) := c.writeNow nv [stageWord a mask value]
    c.ans s [eff]

/-- A write of 1 to a write-only or W1C field. -/
def Chip.writeOne (c : Chip) (nv : NonVol) (f : Fld) : Chip := c.writeField nv f.addr f.bits f.bits

end Sys2Proof.Machine
end

