-- ==== Sys2Proof/Machine/Frames.lean ====
section
/-!
DEFINITION. Frame boundaries and freeze points (R104, R202 to R214, R243, R305, R354, R452, R456): the order in which a
boundary does its work, and what a freeze point takes and decides.
-/

namespace Sys2Proof.Machine

open Sys2Proof

/-! Core time (R250). -/

/-- `BUSY_LAST` and `BUSY_PEAK`: the share of live-core time since the last boundary, in units of 0.1 % to the nearest. -/
def Chip.takeBusy (c : Chip) : Chip :=
  let now := c.time.c.toNat
  let since := c.sched.busyFrom
  let running := (c.sched.items.map (fun i => match i.state with
    | .running _ => now - max i.grantC since
    | _ => 0)).sum
  let total := c.coresLive * (now - since)
  let v := if total = 0 then 0 else ((c.sched.busy + running) * 1000 + total / 2) / total
  let c := (c.put SCH_BUSY.BUSY_LAST v).put SCH_BUSY.BUSY_PEAK (max v (c.get SCH_BUSY.BUSY_PEAK))
  c.setSched { c.sched with busy := 0, busyFrom := now }

/-! Shed operation (R242, R243). -/

/-- R243: whether shed operation is to be in force. Under `AUTO` it ends only once a commit has brought U to `SHED_AT` or
below. -/
def Chip.shedDue (c : Chip) : Bool :=
  match c.get SCH_CTRL.SHED_MODE with
  | 1 => false
  | 2 => true
  | _ => c.overloaded || (c.bit SCH_STATUS.SHED_ACTIVE && !c.sched.shedEnd)

/-- A trace entry that concerns no item. -/
def Chip.traceFrame (c : Chip) (code : Nat) (n : Int) : Chip :=
  c.trace ⟨code, 0, 0x3F, 0, 0, 0, n, 0, 0, 0, 0xFFF⟩

/-- R243, R251: shed operation is entered or left at boundary `n`. -/
def Chip.shedStep (c : Chip) (n : Int) : Chip :=
  let due := c.shedDue
  let c := c.setSched { c.sched with shedEnd := false }
  if due = c.bit SCH_STATUS.SHED_ACTIVE then c
  else
    let c := c.putB SCH_STATUS.SHED_ACTIVE due
    if due then (c.raiseSched SCH_EVENT.SHED_ENTER 2).traceFrame 8 n
    else (c.raiseSched SCH_EVENT.SHED_EXIT 3).traceFrame 9 n

/-! Quiesced units that resume (R455, R456). -/

/-- The gate bit of a unit that `GATE` accepts (R463). -/
def gateBit (u : Nat) : Fld :=
  let i := unitIndex u
  match unitClass u with
  | 0x0 => bit32 i ERR_GATE_CORE.CORE_GATED
  | 0x1 => bit32 i ERR_GATE_LANE.LANE_GATED
  | 0x2 => bit32 i ERR_GATE_CTX.CTX_GATED
  | 0x8 => ERR_GATE_BLOCK.BLOCK_GATED.bit i
  | 0x9 => ERR_GATE_BLOCK.BLOCK_GATED.bit (16 + i)
  | 0xA => ERR_GATE_BLOCK.BLOCK_GATED.bit (18 + i)
  | 0xB => ERR_GATE_BLOCK.BLOCK_GATED.bit 20
  | _ => ERR_GATE_BLOCK.BLOCK_GATED.bit (24 + i)

/-- R195, R455: the calibration and the stills of region `q` hold free values: its share was lost. -/
def Chip.loseShares (c : Chip) (q : Nat) : Chip :=
  let (c, d) := c.draw
  let one := fun (c : Chip) (start len : Nat) =>
    let a := allocBase q + start * 4096
    c.sramOp (.store a ((List.range (len * 4096)).map (fun i => Config.sramByte d (a + i))))
  let c := one c (c.get FST_LAYOUT_CAL.CAL_OFS) (c.get FST_LAYOUT_CAL.CAL_GRAN)
  c.stillOffsets.foldl (fun c x => one c x.2.2 (c.get (FST_FEEDf_LAYOUT.SLOT_GRAN x.1))) c

/-- The units whose resume waited for a frame boundary resume. -/
def Chip.resumeUnits (c : Chip) : Chip :=
  match c.errs.resuming with
  | [] => c
  | l =>
    let c := l.foldl (fun c u => c.putB (gateBit u) false) (c.setErrs { c.errs with resuming := [] })
    let c := (l.filter (fun u => unitClass u == 0xC)).foldl (fun c u => c.loseShares (unitIndex u)) c
    let c := if l.any (fun u => unitClass u == 2) then (c.retakeCtxs).ctxBoundary [] else c
    ((c.recount).showRing 0).showRing 1

/-- R452: from a frame boundary on, the destination of a context that is fenced or quiesced counts as uncovered. -/
def Chip.dropDead (c : Chip) : Chip :=
  (List.range 4).foldl (fun c f =>
    (c.feed f).frames.foldl (fun c x =>
      if x.ctxs.all (fun k => c.ctxLive k.id) then c
      else
        let l := x.ctxs.filter (fun k => c.ctxLive k.id)
        if c.frozen (x.o + c.delay f) then c.putFrame f { x with ctxs := l } else c.recover f x l) c) c

/-- The settings of contexts before a boundary are of no more use once the freeze points of the frames before it have
passed. -/
def Chip.forgetCtxs (c : Chip) : Chip :=
  c.setWas (c.was.filter (fun e => !(List.range 4).all (fun f => c.frozen (e.1 - 1 + c.delay f))))

/-! Rings (R202, R213). -/

/-- Whether the engines show frames, or blank ones in their stead. -/
def Chip.engaged (c : Chip) : Bool :=
  match c.scan.display with
  | .showing | .blankUntil _ => true
  | _ => false

/-- R213: a feed that starts to be shown at boundary `n` shows its fallback, or what `SHOW_SRC` names. -/
def Chip.firstShown (c : Chip) (f : Nat) (n : Int) : Chip :=
  let d := c.feed f
  if d.running && d.cur == .off && d.decided.isNone && c.scan.display == .showing then
    let src := c.get (FST_FEEDf_SHOW.SHOW_SRC f)
    let eff := effective src d.ring
    let c := if src = 0 then c.countShown f n true d.ring else c
    let c := match eff with
      | .still v | .fbStill v => c.correctStill f n v
      | _ => c
    (c.setFeed f { c.feed f with cur := eff }).showStatus f
  else c

/-- R202, R273: the ring of a facet that is now enabled starts, and that of one now disabled ends. -/
def Chip.followFacet (c : Chip) (f : Nat) : Chip :=
  let d := c.feed f
  if c.facetEn f && !d.running && c.engaged then c.restartRing f
  else if !c.facetEn f && d.running then
    (d.frames.foldl (fun c x => c.abandon f (x.o + c.delay f)) c).stopRing f
  else c

/-- R200: the memory is laid out again where the fields in force ask for it. -/
def Chip.layoutStep (c : Chip) : Chip :=
  if !c.layoutOld then c else if c.layoutDue then c.relayout else c.setLayoutOld false

/-! The boundary. -/

/-- R305, R106: from the instant `t` of T_old the grid is another, and the frame that starts at T_new is blank. -/
def Chip.blankChange (c : Chip) (t : Int) : Chip :=
  let c := c.cancelWhere (fun i => i.type == .dither || i.type == .transpose || i.type == .detect) 8
  let c := c.setScan { c.scan with stg := [Staging.start, Staging.start], freed := [true, true], starved := [] }
  let c := c.setWas []
  if c.engaged then (c.setDisplay (.blankUntil (c.gridFirst t + 1))).writeConfig (toQ t) else c

/-- What follows at boundary T_old, at the instant `t`, from the commits taken there: a timing set (R305), or another
`GRID_OFFSET` (R106). `old` is the chip before them. -/
def Chip.afterGrid (c old : Chip) (tset : Bool) (t : Int) : Chip :=
  let c := if tset || old.gridOffset != c.gridOffset then c.blankChange t else c
  if tset then c.tsetApplied (some (c.gridFirst t)) else c

/-- What frame boundary `n` does once its commits are in force: releases before assignments (R203), what is shown from it
(R204, R240), relayout (R200), assignments (R202), shed operation (R243), display after a blank (R303, R305) and the lane
taps (R498). -/
def Chip.boundaryWork (c : Chip) (n : Int) : Chip :=
  let feeds := fun (c : Chip) (g : Chip → Nat → Chip) => (List.range 4).foldl g c
  let c := (c.resumeUnits).dropDead.forgetCtxs
  let c := feeds c (fun c f => c.releaseSlots f n)
  let c := feeds c Chip.presentFeed
  let c := feeds c (fun c f => c.dropFailed f n)
  let c := c.layoutStep
  let c := feeds c Chip.followFacet
  let c := feeds c (fun c f => c.assignAt f n)
  let c := (c.shedStep n).showFacets
  let c := match c.scan.display with
    | .blankUntil b => if b ≤ n then c.setDisplay .showing else c
    | _ => c
  let c := feeds c (fun c f => c.firstShown f n)
  let c := if c.bit SCH_STATUS.SHED_ACTIVE && c.scan.display == .showing then c.bump (schCnt 0x30) 1 else c
  c.moveTaps

/-- `FRAME_BOUNDARY` (R104): boundary `n` of the grid in force is reached. While time is invalid there is none. The commits
due at it come into force first (R354); where they change the grid, the work of the boundary is done if T_old is one of
the new grid's too (R305). -/
def Chip.frameBoundary (c : Chip) (nv : NonVol) (n : Int) : Chip :=
  if c.timeValid && (c.time.lastFrame.isNone || c.time.lastFrame == some (n - 1)) then
    let c := c.takeBusy
    let t := c.boundary n
    let c := c.setTime { c.time with lastFrame := some n, freezeDone := false }
    let due := c.pend.filter (fun p => decide (p.boundary ≤ n))
    let old := c
    let c := if due.isEmpty then c
      else ((c.setPend (c.pend.filter (fun p => !decide (p.boundary ≤ n)))).takePends nv due).showPending
    let c := c.afterGrid old (due.any (·.tset)) t
    if c.boundary c.frameNow = t then c.boundaryWork c.frameNow else c
  else c

/-- `FREEZE_POINT` (R205): the freeze point of frame `m`, before boundary `m` + 1, is reached. Class L fields due are taken
first (R354). -/
def Chip.freezePoint (c : Chip) (nv : NonVol) (m : Int) : Chip :=
  if c.timeValid && !c.time.freezeDone && (c.time.lastFrame.isNone || c.time.lastFrame == some m) then
    let n := m + 1
    let c := c.setTime { c.time with lastFrame := some m, freezeDone := true }
    let lw := (c.pend.filter (fun p => decide (p.boundary ≤ n))).flatMap (·.lWords)
    let c := c.setPend (c.pend.map (fun p => if p.boundary ≤ n then { p with lWords := [] } else p))
    let c := if lw.isEmpty then c else c.takeWords nv lw
    let c := c.traceFrame 0xA n
    let v := c.viewAt n
    let c := (List.range 4).foldl (fun c f => c.freezeFeed f n (v.get (FST_FEEDf_SHOW.SHOW_SRC f)) (v.fallback f)) c
    c.colourFreeze
  else c

end Sys2Proof.Machine
end

