-- ==== Sys2Proof/Machine/Txn.lean ====
section
/-!
DEFINITION. Transactions (R355 to R361): opening, staging, commit now or at a given time, the given time reached or stepped
over, rollback and the idle limit.
-/

namespace Sys2Proof.Machine

open Sys2Proof

/-- R355: the open or scheduled transaction `id` of a key slot. -/
def Selul.named (s : Selul) (key id : Nat) : Option Txn := s.txns.find? (fun t => t.id == id && t.key == key)

/-- R355: the transaction `id` of a key slot among the 16 most recently closed. -/
def Selul.recent (s : Selul) (key id : Nat) : Option Txn := s.closed.find? (fun t => t.id == id && t.key == key)

def Chip.setTxn (c : Chip) (t : Txn) : Chip :=
  c.setSel { c.sel with txns := c.sel.txns.map (fun x => if x.id = t.id then t else x) }

def Chip.showTxns (c : Chip) : Chip := c.put ID_SEL_STATUS.TXN_OPEN c.sel.txns.length

/-- R355: the ID after `n`, from 0x0001 to 0xFFFF. -/
def nextId (n : Nat) : Nat := n % 0xFFFF + 1

/-- R355: the first ID from `n` on that is not in use. -/
def freshId (used : List Nat) : Nat → Nat → Nat
  | 0, n => n
  | fuel + 1, n => if used.contains n then freshId used fuel (nextId n) else n

/-- R355: a transaction is opened for a key slot, unless 8 are open or scheduled. Answers its ID. -/
def Chip.txnBegin (c : Chip) (key : Nat) : Chip × Option Nat :=
  if 8 ≤ c.sel.txns.length then (c, none)
  else
    let used := c.sel.txns.map (·.id) ++ c.sel.closed.map (·.id)
    let id := freshId used 32 c.sel.nextTxn
    let t : Txn := { id := id, key := key, state := .isOpen, words := [], due := none, effect := 0xFFFFFFFF, since := c.time.c.toNat }
    ((c.setSel { c.sel with txns := c.sel.txns ++ [t], nextTxn := nextId id }).showTxns, some id)

/-- The most words that a transaction stages (R356). -/
def stageLimit : Nat := 16384

/-- R356: words are staged in an open transaction: a status and the place of the failing word. -/
def Chip.stageWrite (c : Chip) (t : Txn) (ws : List StagedWord) : Chip × Status × Nat :=
  if t.state ≠ .isOpen then (c, .txnConflict, 0xFFFF)
  else match c.firstRefused t.id ws with
    | some (s, i) => (c, s, i)
    | none =>
      let l := ws.foldl (fun l w => putStaged w l) t.words
      if stageLimit < l.length then (c, .txnConflict, 0xFFFF)
      else (c.setTxn { t with words := l }, .ok, 0xFFFF)

/-- The chip with the effect recorded of a transaction that has closed as applied. -/
def Chip.applyTxn (c : Chip) (nv : NonVol) (t : Txn) (ev : Option (Nat × Nat × Nat)) : Chip × Nat :=
  let c := c.moveTxn t.id .applied t.effect t.due
  let (c, eff) := c.commitWords nv t.words ev
  (c.setSel { c.sel with closed := c.sel.closed.map (fun x => if x.id = t.id then { x with effect := eff } else x) }, eff)

/-- R354, R358: `EFFECT_FRAME` of words that are scheduled for the instant `g`, as the grid in force gives it. -/
def Chip.effectAt (c : Chip) (ws : List StagedWord) (g : Int) : Nat :=
  let f := parts StagedWord.partF ws
  if f.isEmpty || !c.timeValid then 0xFFFFFFFF
  else
    let n := gridN c.period c.gridOffset g
    let past := decide (c.boundary (n + 1) - freezeU < g)
    let late := carriesShow f || (!(parts StagedWord.partL ws).isEmpty && !carriesTset f)
    c.effectFrame f (if late && past then n + 2 else n + 1)

/-- R358: a commit of an open transaction, at the full time `g` if one is given: the status, `EFFECT_FRAME`, `FAIL_INDEX`
and `LATE`. -/
def Chip.txnCommit (c : Chip) (nv : NonVol) (t : Txn) (g : Option FullTime) : Chip × Status × Nat × Nat × Bool :=
  if t.state ≠ .isOpen then (c, .txnConflict, 0xFFFFFFFF, 0xFFFF, false)
  else match c.writeRefusal t.id t.words with
    | some (s, i) => (c, s, 0xFFFFFFFF, i, false)
    | none =>
      match g with
      | none => let (c, eff) := c.applyTxn nv t none; (c, .ok, eff, 0xFFFF, false)
      | some g =>
        if FullTime.at g ≤ c.now then
          let (c, eff) := c.applyTxn nv t none
          (c, .ok, eff, 0xFFFF, true)
        else
          let eff := c.effectAt t.words (FullTime.at g)
          (c.moveTxn t.id .scheduled eff (some g), .ok, eff, 0xFFFF, false)

/-- R359, R360: a scheduled transaction reaches its time, or is passed by a step (`cause` 4), and is checked again. -/
def Chip.txnReached (c : Chip) (nv : NonVol) (t : Txn) (cause : Nat) : Chip :=
  match c.writeRefusal t.id t.words with
  | some (s, _) => (c.moveTxn t.id .refused 0xFFFFFFFF t.due).txnEvent t.key t.id 2 (statusCode s)
  | none => (c.applyTxn nv t (some (t.key, t.id, cause))).1

/-- The time that a transaction is scheduled for. -/
def Txn.dueAt (t : Txn) : Int := match t.due with | some g => FullTime.at g | none => 0

/-- `TXN_DUE` (R359, R391): the time of the scheduled transaction `id` is reached. The apex of a gang in polled mode then
asks the members. -/
def Chip.txnDue (c : Chip) (nv : NonVol) (id : Nat) : Chip :=
  match c.sel.txns.find? (fun t => t.id == id && t.state == .scheduled && decide (t.dueAt ≤ c.now)) with
  | none => c
  | some t => (c.txnReached nv t 1).checkGang nv id

/-- A transaction is put into a list in the order of the given times. -/
def putByTime (t : Txn) : List Txn → List Txn
  | [] => [t]
  | x :: l => if t.dueAt < x.dueAt then t :: x :: l else x :: putByTime t l

/-- R360: the scheduled transactions whose time a step has moved T past, in the order of their times. -/
def Chip.stepTxns (c : Chip) (nv : NonVol) (before : Int) : Chip :=
  let now := c.now
  let l := c.sel.txns.filter (fun t => t.state == .scheduled && decide (before < t.dueAt) && decide (t.dueAt ≤ now))
  (l.foldl (fun l t => putByTime t l) []).foldl (fun c t => (c.txnReached nv t 4).checkGang nv t.id) c

/-- R361: a rollback of the transaction `id` of a key slot. -/
def Chip.txnRollback (c : Chip) (key id : Nat) : Chip × Status :=
  match c.sel.named key id with
  | some t =>
    if t.state == .scheduled && decide (t.dueAt ≤ c.now) then (c, .txnConflict) else (c.moveTxn id .rolledBack t.effect t.due, .ok)
  | none =>
    match c.sel.recent key id with
    | some t => if t.due.isSome && (t.state == .applied || t.state == .refused) then (c, .txnConflict) else (c, .txnUnknown)
    | none => (c, .txnUnknown)

/-- R391: the members' parts of a gang transaction are rolled back. -/
def Chip.rollbackParts (c : Chip) (nv : NonVol) (id : Nat) (cmd : Cmd) (key : Option (List Byte)) : Chip :=
  match c.gang.txn id with
  | none => c
  | some t =>
    let c := (t.parts.filter (fun p => p.state == .opened || p.state == .scheduled)).foldl
      (fun c p => let x := apexCmd cmd 0x0022 p.tid []; c.sendRelay nv p.addr x x key .rollback) c
    c.dropGangTxn id

/-- A command that no requester has sent. -/
def ownCmd (key : Nat) : Cmd :=
  { src := .host, port := 0, key := Fin.ofNat 8 key, noReply := true, opcode := 0, gang := 0xFF, tag := 0, txn := 0,
    epoch := 0, seq := 0, node := 0, arg := 0, payload := [] }

/-- R361: a command that names an open transaction restarts the count of its 10 s. -/
def Chip.touchTxn (c : Chip) (cmd : Cmd) : Chip :=
  match c.sel.named cmd.key.val cmd.txn with
  | some t => c.setTxn { t with since := c.time.c.toNat }
  | none => c

/-- `TXN_TIMEOUT` (R361): an open transaction that no command has named for 10 s is rolled back. One that a command names at
that instant is not. -/
def Chip.txnTimeout (c : Chip) (nv : NonVol) (id : Nat) : Chip :=
  match c.sel.txns.find? (fun t => t.id == id && t.state == .isOpen && t.since != c.time.c.toNat) with
  | none => c
  | some t =>
    let c := ((c.moveTxn id .timedOut t.effect none).bump (selCnt 0x60) 1).rollbackParts nv id (ownCmd t.key) none
    c.txnEvent t.key id 3 0

/-- The state of a transaction as `TXN_STATUS` codes it (R362). -/
def txnCode : TxnState → Nat
  | .isOpen => 0 | .scheduled => 1 | .applied => 2 | .rolledBack => 3 | .timedOut => 4 | .refused => 5

/-- R355, R362: the 12 bytes of `TXN_STATUS`. -/
def Txn.status (t : Txn) : List Byte :=
  [byteOf (txnCode t.state), 0#8, 0#8, 0#8] ++ bytesBE 4 t.words.length ++ bytesBE 4 t.effect

end Sys2Proof.Machine
end

