-- ==== Sys2Proof/Machine/Opcodes.lean ====
section
/-!
DEFINITION. The Selul opcodes (R351 to R366): steps 7 to 10 of R342, from the epoch check to the reply, for every opcode
whose effect is not `GATE`'s.
-/

namespace Sys2Proof.Machine

open Sys2Proof

/-- What a command sees beyond the chip: flash, the SRAM window, and which of the words that it reads are poisoned
(R443). -/
structure RunEnv where
  nv : NonVol
  byte : Nat → Byte
  poisoned : List Nat

/-- What step 10 answers: the status, `TXN`, `ARG` and the payload. -/
structure OpAns where
  st : Status
  txn : Nat
  arg : Nat
  payload : List Byte

/-- R344: a command is accepted when step 10 has passed. -/
def Status.accepts (st : Status) : Bool := st == .ok || st == .pending || st == .poison

/-- The reply of step 10. A device that the command has reset sends none (R509). -/
def Chip.answerOp (c : Chip) (nv : NonVol) (cmd : Cmd) (key : Option (List Byte)) (a : OpAns) : Chip :=
  if c.st = .reset then c.ans a.st []
  else (if Status.accepts a.st then c.bump (selCnt 0x00) 1 else c).reply nv cmd key a.st a.txn a.arg a.payload

/-! The SRAM window (R215, R261, R570). -/

/-- A share of the window that software reaches: calibration, or a still of a feed. -/
inductive Share
  | cal
  | still (f v : Nat)
  deriving DecidableEq, Repr

/-- R455: whether a region is fenced or quiesced. -/
def Chip.regionOut (c : Chip) (q : Nat) : Bool := c.unitFenced (0xC000 + q) || c.bit (gateBit (0xC000 + q))

/-- R570: the share in which the range of `n` bytes from `a` lies whole, with its offset in the share. -/
def Chip.shareAt (c : Chip) (a n : Nat) : Option (Share × Nat) :=
  match (List.range 4).find? (fun q => decide (allocBase q ≤ a) && decide (a < allocBase q + 0x4C0000)) with
  | none => none
  | some q =>
    if c.regionOut q then none
    else
      let o := a - allocBase q
      let g := fun (start len : Nat) => decide (start * 4096 ≤ o) && decide (o + n ≤ (start + len) * 4096)
      if g (c.get FST_LAYOUT_CAL.CAL_OFS) (c.get FST_LAYOUT_CAL.CAL_GRAN) then
        some (.cal, o - c.get FST_LAYOUT_CAL.CAL_OFS * 4096)
      else
        match c.stillOffsets.find? (fun x => g x.2.2 (c.get (FST_FEEDf_LAYOUT.SLOT_GRAN x.1))) with
        | some x => some (.still x.1 x.2.1, o - x.2.2 * 4096)
        | none => none

/-- The still that a value of `SHOW_SRC` names. -/
def stillOf (src : Nat) : Option Nat := if 4 ≤ src then some (src - 4) else none

/-- R215: whether still `v` of feed `f` is shown, or is about to be. -/
def Chip.stillBusy (c : Chip) (f v : Nat) : Bool :=
  let d := c.feed f
  let is := fun (s : Show) => s == .still v || s == .fbStill v
  let fb := (d.cur == .fbBlack || (match d.cur with | .fbStill _ => true | _ => false))
    && c.bit (FST_FEEDf_CFG.FALLBACK f) && c.get (FST_FEEDf_CFG.FB_STILL f) == v
  let a := 0x50004 + 0x20 * f
  is d.cur || (match d.decided with | some x => is x.2 | none => false) || fb
    || (c.pend.filter (fun p => p.fWords.any (fun w => w.addr == a))).any (fun p =>
        stillOf ((c.viewAt p.boundary).get (FST_FEEDf_SHOW.SHOW_SRC f)) == some v)

/-- R570: whether a committed relayout is still to take effect. -/
def Chip.relayoutDue (c : Chip) : Bool :=
  (c.layoutOld && c.layoutDue) || (c.pend.any (fun p => hits (p.lWords ++ p.fWords) layoutWords) && c.overlay.layoutDue)

/-- `BULK_LOAD` of `data` at `a` (R215, R261, R570). -/
def Chip.bulkLoad (c : Chip) (a : Nat) (data : List Byte) : Chip × Status :=
  if a % 4 ≠ 0 then (c, .badAddress)
  else match c.shareAt a data.length with
    | none => (c, .badAddress)
    | some (.cal, o) =>
      if o % 16 ≠ 0 ∨ data.length % 16 ≠ 0 then (c, .badAddress)
      else if c.relayoutDue then (c, .busy)
      else (c.sramOp (.store a data), .ok)
    | some (.still f v, _) =>
      if c.stillBusy f v || c.relayoutDue then (c, .busy)
      else
        let d := c.feed f
        let c := c.setFeed f { d with stillNew := if d.stillNew.contains v then d.stillNew else v :: d.stillNew }
        (c.sramOp (.store a data), .ok)

/-! `READ`, `STATS_READ`, `EVENT_FETCH`, `EVENT_ACK`, `TRACE_READ`, `IDENTIFY`. -/

/-- The words of a reply, zero where poisoned, and the index of the first poisoned one (R362, R443). -/
def poisonWords (poisoned : List Nat) (l : List Nat) : List Nat × Option Nat :=
  ((l.zipIdx).map (fun w => if poisoned.contains w.2 then 0 else w.1),
    (List.range l.length).find? (fun i => poisoned.contains i))

/-- `READ` of `n` words from `a` (R352, R362, R570). -/
def Chip.readCmd (c : Chip) (e : RunEnv) (cmd : Cmd) : Chip × OpAns :=
  let a := cmd.arg
  let n := fieldBE cmd.payload 0 2
  let give := fun (c : Chip) (l : List Nat) =>
    let p := poisonWords e.poisoned l
    (c, { st := if p.2.isSome then Status.poison else .ok, txn := cmd.txn, arg := p.2.getD 0xFFFFFFFF,
          payload := p.1.flatMap (bytesBE 4) : OpAns })
  if a % 4 = 0 ∧ badWord n a = none then
    let (c, l) := readWords n c a
    give c l
  else if a % 4 = 0 ∧ (c.shareAt a (4 * n)).isSome then
    give c ((List.range n).map (fun i => natBE ((List.range 4).map (fun j => e.byte (a + 4 * i + j)))))
  else (c, ⟨.badAddress, cmd.txn, 0, []⟩)

/-- R567, R568: the counter blocks: base and length, the reserved offsets that a table lists included. -/
def counterBlocks : List (Nat × Nat) :=
  [(0x100000, 0x200), (0x100200, 0x200), (0x100400, 0x40), (0x100440, 0x40), (0x100480, 0x40), (0x1004C0, 0x40),
   (0x100500, 0x80), (0x100600, 0x80), (0x100700, 0x40), (0x100740, 0x40), (0x100800, 0x80), (0x100900, 0x80),
   (0x100A00, 0x80), (0x100B00, 0x40), (0x100B40, 0x40), (0x100B80, 0x40), (0x100BC0, 0x40), (0x100C00, 0x40),
   (0x100D00, 0x40), (0x100E00, 0x40), (0x100F00, 0x40)]

/-- The counter block of an address. -/
def counterBlock (a : Nat) : Option (Nat × Nat) :=
  if 0x108000 ≤ a ∧ a < 0x118000 then some (a / 0x80 * 0x80, 0x80)
  else counterBlocks.find? (fun b => decide (b.1 ≤ a) && decide (a < b.1 + b.2))

/-- `STATS_READ` (R144, R362): one snapshot of a block's counters, which clears them unless `PEEK` is set. -/
def Chip.statsRead (c : Chip) (cmd : Cmd) : Chip × OpAns :=
  let n := fieldBE cmd.payload 0 1
  let peek := fieldBE cmd.payload 1 1 % 2 = 1
  match counterBlock cmd.arg with
  | none => (c, ⟨.badAddress, cmd.txn, 0, []⟩)
  | some (base, len) =>
    if cmd.arg % 8 ≠ 0 ∨ base + len < cmd.arg + 8 * n then (c, ⟨.badAddress, cmd.txn, 0, []⟩)
    else
      let as := (List.range n).map (fun i => cmd.arg + 8 * i)
      let l := as.map c.count
      let c := if peek then c else c.setCounters (as.foldl (fun m a => smSet (fun _ => 0) m a 0) c.counters)
      (c, ⟨.ok, cmd.txn, n, l.flatMap (bytesBE 8)⟩)

/-- The event that `EVENT_FETCH` takes next: the oldest of the highest priority (R366). -/
def nextEvent (l : List EventRec) : Option EventRec :=
  let p := (l.map (·.prio)).foldl min 7
  l.find? (fun e => e.prio == p)

/-- R366: up to `n` events are removed and returned. -/
def fetchEvents : Nat → List EventRec → List EventRec × List EventRec
  | 0, l => ([], l)
  | n + 1, l =>
    match nextEvent l with
    | none => ([], l)
    | some e =>
      let r := fetchEvents n (dropFirst (fun x => x.id == e.id) l)
      (e :: r.1, r.2)

/-- The answer with `n` records, of bytes `l`, read from control memory: a word bad in both copies is returned as zero, with
status `POISON` (R193, R349, R443). -/
def recordAns (e : RunEnv) (cmd : Cmd) (n : Nat) (l : List Byte) : OpAns :=
  { st := if (List.range (l.length / 4)).any e.poisoned.contains then .poison else .ok, txn := cmd.txn, arg := n,
    payload := l.zipIdx.map (fun b => if e.poisoned.contains (b.2 / 4) then 0#8 else b.1) }

/-- `EVENT_FETCH` (R366): an empty queue gives the idle event. -/
def Chip.eventFetch (c : Chip) (e : RunEnv) (cmd : Cmd) : Chip × OpAns :=
  let n := min (max (fieldBE cmd.payload 0 1) 1) 10
  let (got, rest) := fetchEvents n c.evq
  if got.isEmpty then (c, ⟨.ok, cmd.txn, 1, List.replicate 24 0#8⟩)
  else (c.setEvq rest, recordAns e cmd got.length (got.flatMap EventRec.bytes))

/-- `EVENT_ACK` (R366). -/
def Chip.eventAck (c : Chip) (cmd : Cmd) : Chip × OpAns :=
  let id := fieldBE cmd.payload 0 4
  let there := c.evq.any (fun e => e.id == id)
  (c.setEvq (c.evq.filter (fun e => e.id != id)), ⟨.ok, cmd.txn, 0, [if there then 1#8 else 0#8]⟩)

/-- R249: up to `n` trace entries are removed and returned, oldest first. -/
def popTraces : Nat → Chip → Chip × List (List Nat)
  | 0, c => (c, [])
  | n + 1, c =>
    match c.popTrace with
    | (c, none) => (c, [])
    | (c, some e) => let r := popTraces n c; (r.1, e :: r.2)

/-- `TRACE_READ` (R249, R362). -/
def Chip.traceRead (c : Chip) (e : RunEnv) (cmd : Cmd) : Chip × OpAns :=
  let n := min (max (fieldBE cmd.payload 0 1) 1) 16
  let (c, l) := popTraces n c
  (c, recordAns e cmd l.length (l.flatMap (fun w => w.flatMap (bytesBE 4))))

/-- R363: the identity record. -/
def Chip.identity (c : Chip) : List Byte :=
  let r := fun (a : Nat) => bytesBE 4 (c.reg a).toNat
  let flags := c.get ERR_STATUS.DEGRADED + (if c.timeValid then 2 else 0) + 4 * c.get FWU_STATUS.PRIMARY
  bytesBE 4 0x8170 ++ bytesBE 2 (c.get ID_SILICON.SILICON) ++ [byteOf (c.reg 0x24).toNat, byteOf (c.get ID_ROLES.ROLES)]
    ++ r 0x2C ++ bytesBE 2 (nodeId c) ++ [if c.get GNG_ID.GANG_ID = 0 then 0xFF#8 else byteOf (gangAddr c)]
    ++ [byteOf (stateCode c.st), byteOf (c.reg 0x28).toNat % 8#8, byteOf flags, 0#8, 0#8] ++ bytesBE 4 c.epoch
    ++ bytesBE 4 (bootId c) ++ bytesBE 2 (c.reg 0x18).toNat ++ r 0x1C ++ [0#8, 0#8]
    ++ r 0x8 ++ r 0xC ++ r 0x10 ++ r 0x14 ++ List.replicate 12 0#8

/-! Writes and transactions (R352 to R361). -/

/-- The words that a `WRITE` or `WRITE_MASKED` carries. -/
def writeWords (cmd : Cmd) : List StagedWord :=
  let p := cmd.payload
  if cmd.opcode = 0x0011 then
    (List.range (p.length / 4)).map (fun i => stageWord (cmd.arg + 4 * i) 0xFFFFFFFF (fieldBE p (4 * i) 4))
  else
    (List.range (p.length / 8)).map (fun i => stageWord (cmd.arg + 4 * i) (fieldBE p (8 * i) 4) (fieldBE p (8 * i + 4) 4))

def failed (cmd : Cmd) (st : Status) (i : Nat) : OpAns := ⟨st, cmd.txn, 0, writeResult 0xFFFFFFFF i false⟩

/-- `WRITE` and `WRITE_MASKED` (R352, R353, R356). -/
def Chip.writeCmd (c : Chip) (nv : NonVol) (cmd : Cmd) : Chip × OpAns :=
  let ws := writeWords cmd
  if cmd.arg % 4 ≠ 0 then (c, failed cmd .badAddress 0)
  else match badWord ws.length cmd.arg with
    | some i => (c, failed cmd .badAddress i)
    | none =>
      if cmd.txn = 0 then
        let (c, st, eff, i) := c.writeNow nv ws
        (c, ⟨st, 0, 0, writeResult eff i false⟩)
      else match c.sel.named cmd.key.val cmd.txn with
        | none => (c, failed cmd .txnUnknown 0xFFFF)
        | some t => let (c, st, i) := c.stageWrite t ws; (c, failed cmd st i)

/-- R372, R391: whether a command names the gang as a whole. -/
def forGang (cmd : Cmd) : Bool := cmd.gang == 0xFE

/-- `TXN_BEGIN` (R355, R391). -/
def Chip.beginCmd (c : Chip) (cmd : Cmd) : Chip × OpAns :=
  match c.txnBegin cmd.key.val with
  | (c, none) => (c, ⟨.busy, 0, 0, []⟩)
  | (c, some id) =>
    let g : GangTxn := { id := id, key := cmd.key.val, parts := [], commit := none, effect := 0xFFFFFFFF, refusal := none, tag := 0 }
    (if forGang cmd then c.setGang { c.gang with txns := c.gang.txns ++ [g] } else c, ⟨.ok, id, 0, []⟩)

/-- The time that a `TXN_COMMIT` names, if it is one. -/
def commitTime (cmd : Cmd) : Option FullTime :=
  let t := payloadTime cmd.payload
  if fieldBE cmd.payload 0 1 = 1 ∧ t.ns < 1000000000 then some t else none

/-- `TXN_COMMIT` (R358) of a transaction of the device's own. -/
def Chip.commitCmd (c : Chip) (nv : NonVol) (cmd : Cmd) : Chip × OpAns :=
  let mode := fieldBE cmd.payload 0 1
  match c.sel.named cmd.key.val cmd.txn with
  | none => (c, failed cmd .txnUnknown 0xFFFF)
  | some t =>
    if (c.gang.txn t.id).isSome ∨ (mode ≠ 0 ∧ commitTime cmd = none) then (c, failed cmd .txnConflict 0xFFFF)
    else
      let (c, st, eff, i, late) := c.txnCommit nv t (commitTime cmd)
      (c, ⟨st, cmd.txn, 0, writeResult eff i late⟩)

/-- R391: what refuses the commit of a gang transaction, with `FAIL_INDEX`. -/
def Chip.gangCommitBar (c : Chip) (cmd : Cmd) (t : Txn) (g : GangTxn) : Option (Status × Nat) :=
  if t.state ≠ .isOpen ∨ g.commit.isSome = true then some (.txnConflict, 0xFFFF)
  else match commitTime cmd with
    | none => some (.txnConflict, 0xFFFF)
    | some due =>
      if FullTime.at due < c.now + (c.get GNG_COMMIT.COMMIT_LEAD : Int) * 1000 * usU then some (.txnConflict, 0xFFFF)
      else if g.parts.any (fun p => p.state == .opening) then some (.busy, 0xFFFF)
      else c.writeRefusal t.id t.words

/-- `TXN_COMMIT` of a gang transaction (R391): the commit is relayed to every member involved. -/
def Chip.gangCommit (c : Chip) (nv : NonVol) (cmd : Cmd) (key : Option (List Byte)) : Chip :=
  match c.sel.named cmd.key.val cmd.txn, c.gang.txn cmd.txn with
  | some t, some g =>
    match c.gangCommitBar cmd t g with
    | some (st, i) => c.answerOp nv cmd key (failed cmd st i)
    | none =>
      let c := c.answerOp nv cmd key ⟨.pending, cmd.txn, 0, []⟩
      let eff := c.effectAt t.words (FullTime.at (payloadTime cmd.payload))
      let parts := g.parts.map (fun p => { p with state := .committing })
      let c := c.setGangTxn { g with commit := some (cmd, key), effect := eff, refusal := none, parts := parts }
      let c := parts.foldl (fun c p => let x := apexCmd cmd 0x0021 p.tid cmd.payload; c.sendRelay nv p.addr x x key (.commit g.id)) c
      c.judgeGangCommit nv g.id
  | _, _ => c.answerOp nv cmd key (failed cmd .txnUnknown 0xFFFF)

/-- `TXN_ROLLBACK` (R361, R391). -/
def Chip.rollbackCmd (c : Chip) (nv : NonVol) (cmd : Cmd) (key : Option (List Byte)) : Chip × OpAns :=
  if forGang cmd && (c.gang.txn cmd.txn).isNone then (c, ⟨.txnUnknown, cmd.txn, 0, []⟩)
  else
    let (c, st) := c.txnRollback cmd.key.val cmd.txn
    (if st = .ok then c.rollbackParts nv cmd.txn cmd key else c, ⟨st, cmd.txn, 0, []⟩)

/-- `TXN_STATUS` (R355). -/
def Chip.statusCmd (c : Chip) (cmd : Cmd) : OpAns :=
  match (c.sel.named cmd.key.val cmd.txn).orElse (fun _ => c.sel.recent cmd.key.val cmd.txn) with
  | some t => ⟨.ok, cmd.txn, 0, t.status⟩
  | none => ⟨.txnUnknown, cmd.txn, 0, []⟩

/-! `RESET`, `DORMANT`, activation and revert (R365). -/

/-- `COMMAND_ACTION_START`: what a reply held back begins. -/
def Chip.beginAction (c : Chip) (nv : NonVol) : Chip :=
  match c.sel.action with
  | none => c
  | some a =>
    let c := c.setSel { c.sel with action := none }
    match a with
    | .reset => c.loseDisplay.takeReset causeCommand
    | .dormant => c.loseDisplay.enterDormant
    | .activate => c.activation nv true
    | .revert => c.activation nv false
    | .lifecycle => c.loseDisplay.takeReset causeLifecycle

/-- R365: with `NO_REPLY` the action begins at acceptance. -/
def Chip.actAtOnce (c : Chip) (nv : NonVol) (cmd : Cmd) : Chip :=
  match cmd.src with
  | .gang .. => c
  | _ => if cmd.noReply then c.beginAction nv else c

/-- R365: the opcode that an action follows. -/
def actionOpcode : Action → Nat
  | .reset => 0x00D0 | .dormant => 0x00E0 | .activate => 0x0072 | .revert => 0x0073 | .lifecycle => 0x00A0

/-- Whether a reply waits to leave with this opcode. -/
def Chip.replyWaits (c : Chip) (opcode : Nat) : Bool :=
  let is := fun (f : TxFrame) => match f.body with | .reply r => r.opcode == opcode | _ => false
  c.sel.hostOut.any (fun r => r.opcode == opcode) || [(0 : PortIx), 1].any (fun p =>
    (c.port p).txq.any is || (match (c.port p).sending with | .localFrame f => is f | _ => false))

/-- `COMMAND_ACTION_START` (R365): it begins once its reply has left the ball. -/
def Chip.actionStart (c : Chip) (nv : NonVol) : Chip :=
  match c.sel.action with
  | none => c
  | some a => if c.replyWaits (actionOpcode a) then c else c.beginAction nv

/-! `LIFECYCLE` (R364, R481). -/

/-- R364, R480, R481: whether the life-cycle state, or the key slot, forbids a subcommand. -/
def lcForbids (lc : Nat) (zero armed : Bool) (sub : Nat) : Bool :=
  match sub with
  | 0x01 => lc == 4
  | 0x02 => !(lc == 0 && zero)
  | 0x03 => !(lc == 1 && zero)
  | 0x04 => !((lc == 0 || lc == 1) && zero)
  | 0x05 => !((lc == 1 || lc == 2) && zero)
  | 0x06 | 0x09 => !(decide (1 ≤ lc) && decide (lc ≤ 3) && zero)
  | 0x07 => !((lc == 1 || lc == 2) && armed)
  | 0x08 => !(lc == 3 && armed)
  | _ => !zero || lc == 4

/-- Whether R364 or R481 lists a subcommand. -/
def lcKnown (sub : Nat) : Bool := (decide (1 ≤ sub) && decide (sub ≤ 9)) || sub == 0x20 || sub == 0x21

/-- A subcommand that is allowed and of the right length. -/
def Chip.lcDo (c : Chip) (nv : NonVol) (zero : Bool) (p : List Byte) : LcAnswer :=
  match fieldBE p 0 1 with
  | 0x01 => c.lcStatus nv
  | 0x02 => c.lcOpen nv zero
  | 0x03 => c.lcSeal nv zero
  | 0x04 => c.lcPin nv zero
  | 0x05 => c.raiseFloor nv zero (fieldBE p 1 4)
  | 0x06 => c.lcConsent nv zero
  | 0x07 => c.lcReturn nv p
  | 0x08 => c.reblank nv p
  | 0x09 => c.decommission nv zero p
  | 0x20 => c.writeKey nv zero (fieldBE p 1 1) (some (sliceB p 2 32))
  | _ => c.writeKey nv zero (fieldBE p 1 1) none

/-- `LIFECYCLE` with a listed subcommand. -/
def Chip.lifecycle (c : Chip) (nv : NonVol) (cmd : Cmd) (key : Option (List Byte)) : Chip × OpAns :=
  let (c, st, l) := c.lcDo nv (slotZero nv cmd key) cmd.payload
  (c, ⟨st, cmd.txn, 0, l⟩)

/-! Steps 7 to 9 (R349, R351, R362). -/

/-- Whether R362 lists an opcode that can be sent as a command. -/
def opKnown (o : Nat) : Bool :=
  [0x0001, 0x0002, 0x0010, 0x0011, 0x0012, 0x0020, 0x0021, 0x0022, 0x0023, 0x0030, 0x0040, 0x0050, 0x0051, 0x0070, 0x0071,
   0x0072, 0x0073, 0x0080, 0x0090, 0x00A0, 0x00B0, 0x00C0, 0x00D0, 0x00E0].contains o

/-- R351: what the state says to an opcode. -/
def Chip.barred (c : Chip) (o : Nat) : Option Status :=
  if !opKnown o then some .badOpcode
  else match c.st with
    | .stopped | .running => none
    | .fenced =>
      if [0x0001, 0x0002, 0x0010, 0x0011, 0x0012, 0x0020, 0x0021, 0x0022, 0x0023, 0x0040, 0x0050, 0x0051, 0x00B0].contains o then none
      else some .busy
    | .recovery =>
      if o = 0x0001 ∨ o = 0x0002 then none
      else if c.power.locked then some .lifecycleDenied
      else if [0x0070, 0x0071, 0x0072, 0x00A0, 0x00D0].contains o then none else some .badOpcode
    | _ => some .busy

/-- Step 8 of R342: the state, and for `LIFECYCLE` the life-cycle state. -/
def Chip.stepEight (c : Chip) (nv : NonVol) (cmd : Cmd) (key : Option (List Byte)) : Option Status :=
  match c.barred cmd.opcode with
  | some s => some s
  | none =>
    let sub := fieldBE cmd.payload 0 1
    if cmd.opcode ≠ 0x00A0 ∨ cmd.payload = [] then none
    else if !lcKnown sub then some .badOpcode
    else if lcForbids nv.lifecycle (slotZero nv cmd key) c.loading.armed.isSome sub then some .lifecycleDenied
    else none

/-- Step 9 of R342: the sizes and counts of R362, and the sizes of the kinds of R403. -/
def lengthOk (cmd : Cmd) : Bool :=
  let n := cmd.payload.length
  let b0 := fieldBE cmd.payload 0 1
  match cmd.opcode with
  | 0x0001 => decide (n ≤ 64)
  | 0x0010 =>
    let k := fieldBE cmd.payload 0 2
    n == 2 && decide (1 ≤ k) && decide (k ≤ 2048)
      && (decide (k ≤ 64) || !(List.range k).any (fun i => isRC (cmd.arg + 4 * i)))
  | 0x0011 | 0x0030 => decide (4 ≤ n) && decide (n ≤ 8192) && n % 4 == 0
  | 0x0012 => decide (8 ≤ n) && decide (n ≤ 8192) && n % 8 == 0
  | 0x0021 | 0x0072 => n == 12
  | 0x0040 => n == 2 && decide (1 ≤ b0) && decide (b0 ≤ 18)
  | 0x0050 | 0x00B0 | 0x00D0 => n == 1
  | 0x0051 | 0x00C0 => n == 4
  | 0x0070 => decide (4 ≤ n) && decide (n ≤ 8192)
  | 0x0080 => n == 2
  | 0x0090 => decide (2 ≤ n) && decide (n ≤ 256) && bridgeLength cmd.payload
  | 0x00A0 => decide (1 ≤ n) && (n == lcLength b0)
  | _ => n == 0

/-- Step 7 of R342: whether the epoch is older than the device's (R349). -/
def Chip.staleEpoch (c : Chip) (cmd : Cmd) : Bool :=
  cmd.opcode != 0x0001 && cmd.opcode != 0x0002 && decide (cmd.epoch < c.epoch)

/-- R349: a higher epoch is adopted before the command runs. -/
def Chip.adoptEpoch (c : Chip) (cmd : Cmd) : Chip := if c.epoch < cmd.epoch then c.seeEpoch cmd.epoch else c

/-- Step 10 of R342, and the reply: what the opcode does, `GATE` being given as `gate`. -/
def Chip.opcode (c : Chip) (e : RunEnv) (gate : Chip → Cmd → Chip × OpAns) (cmd : Cmd) (key : Option (List Byte)) : Chip :=
  let nv := e.nv
  let give := fun (r : Chip × OpAns) => r.1.answerOp nv cmd key r.2
  let plain := fun (r : Chip × Status) => give (r.1, ⟨r.2, cmd.txn, 0, []⟩)
  let split := fun (c' : Chip) => if c'.answer.status = .pending then c'.bump (selCnt 0x00) 1 else c'
  match cmd.opcode with
  | 0x0001 => give (c, ⟨.ok, cmd.txn, 0, cmd.payload⟩)
  | 0x0002 => give (c, ⟨.ok, cmd.txn, 0, c.identity⟩)
  | 0x0010 => give (c.readCmd e cmd)
  | 0x0011 | 0x0012 => give (c.writeCmd nv cmd)
  | 0x0020 => give (c.beginCmd cmd)
  | 0x0021 => if forGang cmd then c.gangCommit nv cmd key else give (c.commitCmd nv cmd)
  | 0x0022 => give (c.rollbackCmd nv cmd key)
  | 0x0023 => give (c, c.statusCmd cmd)
  | 0x0030 => if cmd.txn ≠ 0 then plain (c, .txnConflict) else plain (c.bulkLoad cmd.arg cmd.payload)
  | 0x0040 => give (c.statsRead cmd)
  | 0x0050 => give (c.eventFetch e cmd)
  | 0x0051 => give (c.eventAck cmd)
  | 0x0070 => plain (c.fwBlock nv cmd.arg cmd.payload)
  | 0x0071 => split (c.fwVerify nv cmd key)
  | 0x0072 => (plain (c.fwActivate nv cmd.payload)).actAtOnce nv cmd
  | 0x0073 => (plain c.fwRevert).actAtOnce nv cmd
  | 0x0080 => split (c.calRun nv cmd key)
  | 0x0090 => split (c.bridgeReq nv cmd key)
  | 0x00A0 =>
    let c := give (c.lifecycle nv cmd key)
    if c.sel.action = some .lifecycle then c.actAtOnce nv cmd else c
  | 0x00B0 => give (c.traceRead e cmd)
  | 0x00C0 => give (gate c cmd)
  | 0x00D0 => (plain (c.setSel { c.sel with action := some .reset }, .ok)).actAtOnce nv cmd
  | _ =>
    if c.st = .stopped ∨ c.st = .running then
      (plain (c.setSel { c.sel with action := some .dormant }, .ok)).actAtOnce nv cmd
    else plain (c, .busy)

/-- R355: whether a command names a transaction that is neither open nor scheduled under its key. The opcodes of transactions
and `BULK_LOAD` (R356) say what they answer themselves. -/
def Chip.namesUnknown (c : Chip) (cmd : Cmd) : Bool :=
  cmd.txn != 0 && !([0x0011, 0x0012, 0x0021, 0x0022, 0x0023, 0x0030].contains cmd.opcode)
    && (c.sel.named cmd.key.val cmd.txn).isNone

/-- Steps 7 to 10 of R342. -/
def Chip.runCmd (c : Chip) (e : RunEnv) (gate : Chip → Cmd → Chip × OpAns) (cmd : Cmd) (key : Option (List Byte)) : Chip :=
  let refuse := fun (c : Chip) (s : Status) => c.reply e.nv cmd key s cmd.txn 0 []
  if c.staleEpoch cmd then refuse c .staleEpoch
  else
    let c := c.adoptEpoch cmd
    match c.stepEight e.nv cmd key with
    | some s => refuse c s
    | none =>
      if !lengthOk cmd then refuse c .badLength
      else if c.namesUnknown cmd then refuse c .txnUnknown
      else (c.touchTxn cmd).opcode e gate cmd key

end Sys2Proof.Machine
end

