-- ==== Sys2Proof/Machine/Gate.lean ====
section
/-!
DEFINITION. `GATE` (R453 to R457): quiescing units and resuming them.
-/

namespace Sys2Proof.Machine

open Sys2Proof

/-- R453: the units that `GATE` accepts at a level. -/
def gateable (level u : Nat) : Bool :=
  isUnit u && !essential u && (match level with
    | 0 => decide (unitClass u ≤ 2)
    | 1 => unitClass u == 8 || unitClass u == 9 || unitClass u == 0xA || u == 0xB000
    | 2 => unitClass u == 0xC
    | _ => false)

/-- The cores that lie in a unit. -/
def unitCores (u : Nat) : List Nat := (List.range 64).filter (fun k => within k u)

/-- R454: whether a core of the unit runs an item. -/
def Chip.unitBusy (c : Chip) (u : Nat) : Bool :=
  (unitCores u).any (fun k => c.sched.items.any (fun i => i.state == .running k))

/-- R457: whether a handler acts on the unit, or an error of it is being handled. -/
def Chip.unitInError (c : Chip) (u : Nat) : Bool := c.fencePending u || c.errs.jobs.any (fun j => j.unit == u)

/-- R457: whether the configuration, in force or committed, breaks a rule of R353. -/
def Chip.rulesBroken (c : Chip) : Bool :=
  configRules.any (fun r => !r.holds c) || (!c.pend.isEmpty && configRules.any (fun r => !r.holds c.overlay))

/-- R457: what forbids a quiesce of `u` that `cmd` asks for. -/
def Chip.gateConflict (c : Chip) (cmd : Cmd) (u : Nat) : Bool :=
  let d := c.putB (gateBit u) true
  let partner := 0xC000 + (unitIndex u + 2) % 4
  (unitClass u == 0xA && cmd.src != .host && unitIndex u == cmd.port.val)
    || (unitClass u == 0xC && (c.unitFenced partner || c.bit (gateBit partner)))
    || d.rulesBroken

/-- R455: a unit is quiesced. -/
def Chip.quiesceUnit (c : Chip) (u : Nat) : Chip :=
  let i := unitIndex u
  let c := c.putB (gateBit u) true
  let dropLanes := fun (c : Chip) (p : Nat → Bool) => c.setScan { c.scan with lanes := c.scan.lanes.filter (fun x => !p x.1) }
  let c := match unitClass u with
    | 0x1 => dropLanes c (fun l => l == i)
    | 0x2 => c.put (STC_CSTAT.STATE i) 0
    | 0x9 => dropLanes c (fun l => l / 32 == i)
    | 0xA => c.linkDown (Fin.ofNat 2 i)
    | 0xB => (List.range 4).foldl Chip.showDmx c.cancelMaps
    | 0xC => ((dropLanes c (fun l => l / 16 == i)).showRing 0).showRing 1
    | _ => c
  c.recount

/-- R456: a resume that takes effect at once, or waits for a frame boundary. -/
def Chip.resumeUnit (c : Chip) (u : Nat) : Chip :=
  if unitClass u = 1 ∨ unitClass u = 2 ∨ unitClass u = 9 ∨ unitClass u = 0xC then
    if c.errs.resuming.contains u then c else c.setErrs { c.errs with resuming := c.errs.resuming ++ [u] }
  else
    let c := (c.putB (gateBit u) false).recount
    if unitClass u = 0xB then (List.range 4).foldl Chip.showDmx c else c

/-- R454, R457: a quiesce. `done` tells that the outstanding handshakes complete within 2 µs. -/
def Chip.quiesce (c : Chip) (cmd : Cmd) (u : Nat) (done : Bool) : Chip × Status :=
  if c.unitFenced u then (c, .txnConflict)
  else if c.bit (gateBit u) then
    (c.setErrs { c.errs with resuming := c.errs.resuming.filter (· != u) }, .ok)
  else if c.gateConflict cmd u then (c, .txnConflict)
  else if c.unitInError u || c.unitBusy u || !done then (c, .busy)
  else (c.quiesceUnit u, .ok)

/-- R456, R457: a resume. -/
def Chip.resume (c : Chip) (u : Nat) : Chip × Status :=
  if c.unitFenced u then (c, .txnConflict)
  else if !c.bit (gateBit u) then (c, .ok)
  else if c.unitInError u then (c, .busy)
  else (c.resumeUnit u, .ok)

/-- `GATE` (R453 to R457). -/
def Chip.gate (done : Bool) (c : Chip) (cmd : Cmd) : Chip × OpAns :=
  let level := fieldBE cmd.payload 0 1
  let act := fieldBE cmd.payload 1 1
  let u := fieldBE cmd.payload 2 2
  if !gateable level u || decide (1 < act) then (c, ⟨.badAddress, cmd.txn, 0, []⟩)
  else
    let (c, st) := if act = 0 then c.quiesce cmd u done else c.resume u
    let c := if st = .ok then c else c.bump (errCnt 0x20) 1
    (c, ⟨st, cmd.txn, 0, []⟩)

end Sys2Proof.Machine
end

