-- ==== Sys2Proof/Machine/Selul.lean ====
section
/-!
DEFINITION. Selul packets (R334 to R348, R387): steps 1 to 6 of R342, requesters, repeats, relays at the apex, the command
queue, and the host port's transactions.
-/

namespace Sys2Proof.Machine

open Sys2Proof

/-- The states in which Selul runs (R32, R351). -/
def Chip.takesSelul (c : Chip) : Bool :=
  c.st == .stopped || c.st == .running || c.st == .updating || c.st == .fenced || c.st == .recovery

/-- The fields of a packet's header, with its payload (R338). -/
def parseCmd (src : Source) (port : PortIx) (b : List Byte) : Cmd :=
  let flags := fieldBE b 3 1
  { src := src, port := port, key := Fin.ofNat 8 (flags / 8), noReply := decide (flags / 2 % 2 = 1), opcode := fieldBE b 4 2,
    gang := fieldBE b 7 1, tag := fieldBE b 8 2, txn := fieldBE b 10 2, epoch := fieldBE b 12 4, seq := fieldBE b 16 4,
    node := fieldBE b 20 2, arg := fieldBE b 24 4, payload := sliceB b 32 (fieldBE b 22 2) }

/-- R340: whether a header is readable. -/
def readable (b : List Byte) : Bool := decide (32 ≤ b.length) && fieldBE b 0 2 == 0x4753 && fieldBE b 2 1 == 1

/-- R340: whether a packet's size is right. -/
def sizeRight (b : List Byte) : Bool :=
  decide (48 ≤ b.length) && decide (b.length ≤ 8240) && b.length == 48 + fieldBE b 22 2

/-- R339, R343, R484: step 3. A keyless command is taken in Blank and in Decommissioned. -/
def Chip.authentic (c : Chip) (nv : NonVol) (cmd : Cmd) (b : List Byte) : Bool :=
  let mac := b.drop (b.length - 16)
  match nv.keyAt cmd.key.val with
  | some k => mac == macOf16 (some k) (c.macBoot cmd.opcode) (b.take (b.length - 16))
  | none => (nv.lifecycle == 0 || nv.lifecycle == 4) && mac == zeroMac

/-! Bare replies (R342). -/

def Chip.bareTimes (c : Chip) (cmd : Cmd) : List Nat :=
  let l := match cmd.src with | .host => c.sel.bareHost | _ => (c.port cmd.port).bareTimes
  l.filter (fun t => decide (c.time.c.toNat < t + secTicks))

def Chip.setBareTimes (c : Chip) (cmd : Cmd) (l : List Nat) : Chip :=
  match cmd.src with
  | .host => c.setSel { c.sel with bareHost := l }
  | _ => c.setPort cmd.port { c.port cmd.port with bareTimes := l }

/-- R342, R348: a bare reply, of which each port sends at most 16 in any second. -/
def Chip.bare (c : Chip) (nv : NonVol) (cmd : Cmd) (st : Status) : Chip :=
  let l := c.bareTimes cmd
  let c := c.ans st []
  if cmd.noReply then c
  else if 16 ≤ l.length then c.bump (selCnt 0x18) 1
  else
    let c := (c.setBareTimes cmd (c.time.c.toNat :: l)).bump (selCnt 0x08) 1
    let c := if st = .badLength then c.bump (selCnt 0x18) 1 else c
    c.sendReply nv (c.bareReply cmd st)

/-! Requesters (R345, R346). -/

/-- Whether the opcode table keeps the reply of a command (R362). Commands that the apex relays are all kept (R389). -/
def Chip.heldKind (c : Chip) (cmd : Cmd) : Bool :=
  let p := cmd.payload
  if c.gang.role == .apex && decide (cmd.gang < 64) && cmd.gang != gangAddr c then true
  else match cmd.opcode with
    | 0x0001 | 0x0002 | 0x0023 | 0x0091 => false
    | 0x0010 => p.length == 2 && (List.range (min 2048 (fieldBE p 0 2))).any (fun i => isRC (cmd.arg + 4 * i))
    | 0x0040 => !(decide (2 ≤ p.length) && fieldBE p 1 1 % 2 == 1)
    | o => opKnown o

/-- A requester has sent an authenticated command: it is the most recently used. -/
def Chip.touch (c : Chip) (cmd : Cmd) : Chip :=
  match cmd.src with
  | .net _ _ =>
    let mine := fun (r : Requester) => r.key == cmd.key.val && r.src == cmd.src
    c.setSel { c.sel with requesters := c.sel.requesters.filter mine ++ c.sel.requesters.filter (fun r => !mine r) }
  | _ => c

/-- R345, R346: what the window of its requester says of a command. -/
def Chip.judgeCmd (c : Chip) (cmd : Cmd) : SeqJudge :=
  match c.sel.requester cmd.key.val cmd.src with
  | some r => (judgeSeq r.high r.bitmap cmd.seq).1
  | none =>
    match c.sel.floors.getD cmd.key.val none with
    | none => .fresh
    | some f => if 0 < signedMod 32 ((cmd.seq : Int) - (f : Int)) then .fresh else .old

/-- R346: the floor of a key rises to the H of an evicted entry. -/
def raisedFloor (old : Option Nat) (h : Nat) : Option Nat :=
  match old with
  | none => some h
  | some f => if 0 < signedMod 32 ((h : Int) - (f : Int)) then some h else some f

/-- R346: the table keeps 16 network requesters; the least recently used makes room. -/
def Chip.trimRequesters (c : Chip) : Chip :=
  let l := c.sel.requesters
  match l.drop 16 with
  | [] => c
  | v :: _ =>
    let floors := c.sel.floors.set v.key (raisedFloor (c.sel.floors.getD v.key none) v.high)
    c.setSel { c.sel with requesters := l.take 16, floors := floors }

/-- R345, R346: a new command enters the window of its requester. -/
def Chip.recordSeq (c : Chip) (cmd : Cmd) : Chip :=
  match c.sel.requester cmd.key.val cmd.src with
  | some r =>
    let j := judgeSeq r.high r.bitmap cmd.seq
    c.setSel (c.sel.editRequester cmd.key.val cmd.src (fun r => { r with high := j.2.1, bitmap := j.2.2 }))
  | none =>
    let r : Requester := { key := cmd.key.val, src := cmd.src, high := cmd.seq, bitmap := 1, held := [] }
    match cmd.src with
    | .host => c.setSel { c.sel with hostReq := some r }
    | _ =>
      let c := (c.setSel { c.sel with requesters := r :: c.sel.requesters }).trimRequesters
      c.put ID_SEL_STATUS.REQUESTERS c.sel.requesters.length

/-- R348: a place for the reply of a command among the 16 most recent; a tag that is used again replaces its reply. -/
def Chip.openPlace (c : Chip) (cmd : Cmd) : Chip :=
  if c.heldKind cmd then
    let h : Held := { opcode := cmd.opcode, tag := cmd.tag, seq := cmd.seq, reply := none, again := false }
    c.setSel (c.sel.editRequester cmd.key.val cmd.src (fun r =>
      { r with held := (h :: r.held.filter (fun x => x.tag != cmd.tag)).take 16 }))
  else c

/-- A command that is taken: a new one enters its window and has a place for its reply. -/
def Chip.enterCmd (c : Chip) (cmd : Cmd) (isNew : Bool) : Chip := if isNew then (c.recordSeq cmd).openPlace cmd else c

/-! The command queue (R344). -/

/-- `CMDQ_USED`, and the packets in the host input buffer (R336). -/
def Chip.showQueue (c : Chip) : Chip :=
  let q := c.sel.cmdq
  (c.setSel { c.sel with hostIn := (q.filter (fun x => x.1.src == .host)).length }).put ID_SEL_STATUS.CMDQ_USED q.length

/-- R194, R344: a command joins the queue. The ring buffers that carried its packet stay held until it has run. -/
def Chip.pushCmd (c : Chip) (cmd : Cmd) (key : Option (List Byte)) : Chip :=
  let c := (c.setSel { c.sel with cmdq := c.sel.cmdq ++ [(cmd, key)] }).showQueue
  if cmd.src = .host then c else c.keepFrame cmd.port

/-- R344: the command `x` leaves the head of the queue to run, before the commands `l`; its ring buffers are free again. -/
def Chip.popCmd (c : Chip) (x : Cmd) (l : List (Cmd × Option (List Byte))) : Chip :=
  let c := (c.setSel { c.sel with cmdq := l }).showQueue
  if x.src = .host then c else c.freeKept x.port

/-- Step 6 of R342. -/
def Chip.enqueue (c : Chip) (cmd : Cmd) (key : Option (List Byte)) (isNew : Bool) : Chip :=
  if 64 ≤ c.sel.cmdq.length then (c.latch ID_SEL_EVENT.CMDQ_OVERRUN).bump (selCnt 0x48) 1
  else
    (c.enterCmd cmd isNew).pushCmd cmd key

/-! Relaying at the apex (R372, R387, R391). -/

/-- A command that is answered without running. -/
def Chip.answerEarly (c : Chip) (nv : NonVol) (cmd : Cmd) (key : Option (List Byte)) (isNew : Bool) (st : Status) : Chip :=
  (c.enterCmd cmd isNew).reply nv cmd key st cmd.txn 0 []

/-- R391, step 1: a write into the member's part of a gang transaction. -/
def Chip.relayStaged (c : Chip) (nv : NonVol) (cmd : Cmd) (key : Option (List Byte)) (isNew : Bool) (g : GangTxn) : Chip :=
  let open_ := match c.sel.named cmd.key.val g.id with | some t => t.state == .isOpen | none => false
  if g.key ≠ cmd.key.val then c.answerEarly nv cmd key isNew .txnUnknown
  else if !open_ || g.commit.isSome then c.answerEarly nv cmd key isNew .txnConflict
  else match g.parts.find? (fun p => p.addr == cmd.gang) with
    | some p =>
      match p.state with
      | .opening =>
        let c := c.answerEarly nv cmd key isNew .pending
        c.setGangTxn (g.setPart { p with waiting := p.waiting ++ [(cmd, key)] })
      | .opened =>
        let c := c.answerEarly nv cmd key isNew .pending
        c.sendRelay nv cmd.gang cmd { cmd with txn := p.tid } key (.stage g.id)
      | _ => c.answerEarly nv cmd key isNew .txnConflict
    | none =>
      let c := c.answerEarly nv cmd key isNew .pending
      let p : GangPart := { addr := cmd.gang, tid := 0, state := .opening, waiting := [(cmd, key)] }
      let c := c.setGangTxn { g with parts := g.parts ++ [p] }
      let x := apexCmd cmd 0x0020 0 []
      c.sendRelay nv cmd.gang x x key (.start g.id)

/-- R387: a command for a member. -/
def Chip.relayIn (c : Chip) (nv : NonVol) (cmd : Cmd) (key : Option (List Byte)) (isNew : Bool) : Chip :=
  let a := cmd.gang
  match c.relayBar a with
  | some reason =>
    if cmd.noReply then (c.enterCmd cmd isNew).farFailed true cmd.tag cmd.txn (c.gang.nodeOf a) reason a a
    else c.answerEarly nv cmd key isNew .badAddress
  | none =>
    if !c.relayFits cmd then c.answerEarly nv cmd key isNew .badLength
    else if 32 ≤ c.gang.relays.length then c.answerEarly nv cmd key isNew .busy
    else
      let staged := if cmd.opcode = 0x0011 ∨ cmd.opcode = 0x0012 then c.gang.txn cmd.txn else none
      match staged with
      | some g => c.relayStaged nv cmd key isNew g
      | none => (c.answerEarly nv cmd key isNew .pending).sendRelay nv a cmd cmd key .direct

/-- R347: whether `NODE` addresses this device. -/
def Chip.nodeMine (c : Chip) (cmd : Cmd) : Bool :=
  cmd.node == 0 || cmd.node == nodeId c || (cmd.node == 0xFFFF && (cmd.opcode == 0x0001 || cmd.opcode == 0x0002))

/-- Whether `GANG` names the device itself (R347, R372). -/
def Chip.gangMine (c : Chip) (cmd : Cmd) : Bool := cmd.gang == 0xFF || (c.inGang && cmd.gang == gangAddr c)

/-- Steps 5 and 6 of R342. -/
def Chip.takeIn (c : Chip) (nv : NonVol) (cmd : Cmd) (key : Option (List Byte)) (isNew : Bool) : Chip :=
  let apex := c.gang.role == .apex
  if apex && !c.gangMine cmd && decide (cmd.gang < 64) then c.relayIn nv cmd key isNew
  else if !c.nodeMine cmd || (!c.gangMine cmd && !apex) then c.bump (selCnt 0x40) 1
  else if c.gangMine cmd || (forGang cmd && decide (0x0020 ≤ cmd.opcode) && decide (cmd.opcode ≤ 0x0023)) then
    c.enqueue cmd key isNew
  else c.answerEarly nv cmd key isNew .badAddress

/-- R348: a repeat of a command. -/
def Chip.repeated (c : Chip) (nv : NonVol) (cmd : Cmd) (key : Option (List Byte)) : Chip :=
  match c.heldPlace cmd with
  | some h =>
    match h.reply with
    | some r => (c.bump (selCnt 0x38) 1).sendReply nv { r with port := cmd.port.val }
    | none =>
      c.setSel (c.sel.editRequester cmd.key.val cmd.src (fun q =>
        { q with held := q.held.map (fun x => if x.tag = cmd.tag ∧ x.seq = cmd.seq then { x with again := true } else x) }))
  | none => if c.heldKind cmd then c.bump (selCnt 0x30) 1 else c.takeIn nv cmd key false

/-- R340 to R348, R351: a packet arrives. -/
def Chip.arrive (c : Chip) (nv : NonVol) (src : Source) (port : PortIx) (b : List Byte) : Chip :=
  if c.st = .boot then (if c.power.portsUp then c.bump (selCnt 0x48) 1 else c)
  else if !c.takesSelul then c
  else if !readable b then c.bump (selCnt 0x10) 1
  else
    let cmd := parseCmd src port b
    if !sizeRight b then c.bare nv cmd .badLength
    else if !c.authentic nv cmd b then
      ((c.bump (selCnt 0x20) 1).latch ID_SEL_EVENT.AUTH_FAIL_SEEN).bare nv cmd .authFail
    else
      let c := c.touch cmd
      let key := nv.keyAt cmd.key.val
      match c.judgeCmd cmd with
      | .old => c.bump (selCnt 0x28) 1
      | .again => c.repeated nv cmd key
      | .fresh => c.takeIn nv cmd key true

/-- `SELUL_PACKET` (R334): a UDP packet for the device arrives at a port. -/
def Chip.selulPacket (c : Chip) (nv : NonVol) (p : PortIx) (ip : IpHdr) (b : List Byte) : Chip :=
  if ip.dport ≠ 47800 ∨ c.linkUp p = false ∨ c.ownsIp p ip.dst = false then c
  else if ip.frag then c.bump (selCnt 0x50) 1
  else c.arrive nv (.net ip.src ip.sport) p b

/-! Running queued commands (R344). -/

/-- The command `cmd` leaves the head of the queue, with the key that it was checked under. On an empty queue it is taken as
just accepted by steps 1 to 6. -/
def Chip.takeCmd (c : Chip) (nv : NonVol) (cmd : Cmd) : Option (Chip × Option (List Byte)) :=
  if !c.takesSelul then none
  else match c.sel.cmdq with
    | [] => some (c, nv.keyAt cmd.key.val)
    | (x, key) :: l => if x = cmd then some (c.popCmd x l, key) else none

/-- Whether a command is one of a row's: its opcode, and the first bytes of its payload where rows differ by them. -/
structure RowOf where
  opcode : Nat
  sub : Option Nat
  place : Nat

def RowOf.has (r : RowOf) (cmd : Cmd) : Bool :=
  cmd.opcode == r.opcode && (match r.sub with | none => true | some s => decide (r.place < cmd.payload.length) && fieldBE cmd.payload r.place 1 == s)

/-- The effect of an opcode's row. -/
def Chip.opRow (c : Chip) (e : RunEnv) (r : RowOf) (done : Bool) (cmd : Cmd) : Chip :=
  if !r.has cmd then c
  else match c.takeCmd e.nv cmd with
    | none => c
    | some (c, key) => c.runCmd e (Chip.gate done) cmd key

/-- A command that no row carries: an unknown opcode or subcommand, or a `GATE` without an action. -/
def oddCmd (cmd : Cmd) : Bool :=
  (!opKnown cmd.opcode && cmd.opcode != 0x0091)
    || (cmd.opcode == 0x00A0 && (cmd.payload.isEmpty || !lcKnown (fieldBE cmd.payload 0 1)))
    || (cmd.opcode == 0x00C0 && (decide (cmd.payload.length < 2) || decide (1 < fieldBE cmd.payload 1 1)))

/-- The commands that no row carries run as they reach the head of the queue. -/
def Chip.flushOdd (e : RunEnv) : Nat → Chip → Chip
  | 0, c => c
  | n + 1, c =>
    match c.sel.cmdq with
    | (x, key) :: l =>
      if oddCmd x && c.takesSelul then
        flushOdd e n ((c.popCmd x l).runCmd e (Chip.gate true) x key)
      else c
    | [] => c

/-- `RELAY_RECEIVED` (R377, R380, R388): a member takes a `RELAY` from step 5 on. With no command queued it runs at once;
behind others it waits for its turn (R344). A repeat draws the reply formed. A `RELAY` of a lower gang epoch is answered
`STALE_EPOCH` and not run; one of a higher gang epoch is adopted and its sender followed. -/
def Chip.relayReceived (c : Chip) (e : RunEnv) (p : PortIx) (done : Bool) (bytes : List Byte) : Chip :=
  match c.gangIn e.nv 0x04 bytes with
  | (c, some (m, .fresh)) =>
    let cmd := { parseCmd (.gang m.src m.gseq) p (m.body ++ zeroMac) with gang := 0xFF }
    let stale := decide (m.epoch < c.gangEpoch)
    let c := if c.gangEpoch < m.epoch then c.hearApex m.epoch m.src none else c
    if !c.takesSelul then c
    else if stale then c.reply e.nv cmd none .staleEpoch cmd.txn 0 []
    else if !c.nodeMine cmd then c.bump (selCnt 0x40) 1
    else if 64 ≤ c.sel.cmdq.length then (c.latch ID_SEL_EVENT.CMDQ_OVERRUN).bump (selCnt 0x48) 1
    else if c.sel.cmdq.isEmpty then c.runCmd e (Chip.gate done) cmd (e.nv.keyAt cmd.key.val)
    else c.pushCmd cmd (e.nv.keyAt cmd.key.val)
  | (c, some (m, .again)) =>
    match c.gang.formed.find? (fun x => x.1 == m.src && x.2.1 == m.gseq) with
    | some x => c.sendGang x.2.2
    | none => c
  | (c, _) => c

/-- `BROADCAST_REPLY` (R347): the oldest delayed reply is sent. -/
def Chip.broadcastReply (c : Chip) (nv : NonVol) : Chip :=
  match c.sel.delayed with
  | [] => c
  | r :: l => (c.setSel { c.sel with delayed := l }).sendReply nv r

/-! The host port (R335 to R337). -/

/-- Whether the host port serves a host (R452, R508, R510). -/
def Chip.hostServed (c : Chip) : Bool :=
  c.bit CLK_STRAPS.STRAP_HOST && c.power.imageRunning && !c.unitFenced 0xB005
    && (c.st == .boot || c.st == .stopped || c.st == .running || c.st == .updating || c.st == .fenced)

/-- `HQ_PUT` (R336): a packet from the host. -/
def Chip.hqPut (c : Chip) (nv : NonVol) (b : List Byte) : Chip :=
  if !c.hostServed || c.emulates then c
  else if 2 ≤ c.sel.hostIn then c.setSel { c.sel with hqOverrun := true }
  else c.arrive nv .host 0 b

/-- `HQ_GET` (R336): `n` bytes are clocked out; a reply clocked out whole is removed. -/
def Chip.hqGet (c : Chip) (n : Nat) : Chip :=
  if !c.hostServed || c.emulates then c
  else match c.sel.hostOut with
    | [] => c.ans .ok (List.replicate n 0)
    | r :: l =>
      let b := r.bytes
      let c := c.ans .ok ((List.range n).map (fun i => (b.getD i 0#8).toNat))
      if b.length ≤ n then c.setSel { c.sel with hostOut := l } else c

/-- The status byte of `HQ_STAT` (R335). -/
def Chip.hqStatus (c : Chip) : Nat :=
  (if c.sel.hostOut.isEmpty then 0 else 1) + (if c.sel.hostIn < 2 then 2 else 0) + (if c.evq.isEmpty then 0 else 4)
    + (if c.sel.hqOverrun then 8 else 0)

/-- `HQ_STAT` (R335). -/
def Chip.hqStat (c : Chip) : Chip :=
  if !c.hostServed || c.emulates then c
  else (c.ans .ok [c.hqStatus]).setSel { c.sel with hqOverrun := false }

/-- R337, R408: whether IRQ_N is driven low. -/
def Chip.irqLow (c : Chip) : Bool :=
  c.hostServed && (if c.emulates then !c.emul.msgs.isEmpty
    else !c.sel.hostOut.isEmpty || (!c.evq.isEmpty && c.bit ID_SEL_CTRL.IRQ_EVT))

end Sys2Proof.Machine
end

