-- ==== Sys2Proof/Machine/Emulation.lean ====
section
/-!
DEFINITION. The AM6140 emulation of profile 0 on the host port (R406 to R408).
-/

namespace Sys2Proof.Machine

open Sys2Proof

/-- What an AM6140 register is (R407). -/
inductive EmulReg
  | part | firmware | run | bright | source | faults
  | temp (s : Nat)
  | present (w : Nat)
  | none
  deriving DecidableEq, Repr

/-- The register at an AM6140 address (R407). -/
def emulReg (a : Nat) : EmulReg :=
  if a = 0x0000 then .part
  else if a = 0x0004 then .firmware
  else if a = 0x0010 then .run
  else if a = 0x0020 then .bright
  else if a = 0x0030 then .source
  else if a = 0x0040 then .faults
  else if 0x0100 ≤ a ∧ a ≤ 0x012C ∧ a % 4 = 0 then .temp ((a - 0x0100) / 4)
  else if 0x0200 ≤ a ∧ a < 0x0240 ∧ a % 4 = 0 then .present ((a - 0x0200) / 4)
  else .none

/-- Whether the emulation takes instructions. -/
def Chip.emulServed (c : Chip) : Bool := c.hostServed && c.emulates

/-- Whether later accesses go to this device itself (R406). -/
def Chip.emulOwn (c : Chip) : Bool := c.emul.sel == 0xFF || (c.inGang && c.emul.sel == gangAddr c)

/-- R407: a refused write sends a `WRITE_FAIL` message with its status. -/
def Chip.writeFail (c : Chip) (st : Status) : Chip := (c.ans st []).message 0x06 c.emul.sel (statusCode st)

/-- The masked word of AM8170 fields that a write of `v` to an AM6140 register stands for, if it writes any (R407). -/
def emulWrite (r : EmulReg) (v : Nat) : Option StagedWord :=
  match r with
  | .run => if v % 4 = 0 then none else some ⟨0x124, v % 4, v % 4⟩
  | .bright => some ⟨COL_BRIGHT.BRIGHT.addr, COL_BRIGHT.BRIGHT.bits, (2 * (v % 256) * 32768 + 255) / 510⟩
  | .source => some ⟨(FST_FEEDf_SHOW.SHOW_SRC 0).addr, (FST_FEEDf_SHOW.SHOW_SRC 0).bits,
      if v ≤ 1 then v else if v ≤ 4 then v + 2 else 2⟩
  | _ => none

/-- A command of the emulation for a member: posted, with the host as its source (R387, R392). -/
def Chip.emulCmd (c : Chip) (opcode arg : Nat) (payload : List Byte) : Cmd :=
  { src := .host, port := 0, key := 0, noReply := true, opcode := opcode, gang := c.emul.sel, tag := 0, txn := 0,
    epoch := c.epoch, seq := 0, node := 0, arg := arg, payload := payload }

/-- R387, R406: the apex relays a command of the emulation to the member selected. -/
def Chip.emulRelay (c : Chip) (nv : NonVol) (cmd : Cmd) : Chip :=
  if c.gang.role ≠ .apex ∨ 64 ≤ cmd.gang then c.writeFail .badAddress
  else match c.relayBar cmd.gang with
    | some reason => c.farFailed true cmd.tag cmd.txn (c.gang.nodeOf cmd.gang) reason cmd.gang cmd.gang
    | none =>
      if !c.relayFits cmd then c.writeFail .badLength
      else if 32 ≤ c.gang.relays.length then c.writeFail .busy
      else c.sendRelay nv cmd.gang cmd cmd none .direct

/-- R407: a word written to an AM6140 register. -/
def Chip.emulWord (c : Chip) (nv : NonVol) (a v : Nat) : Chip :=
  match emulWrite (emulReg a) v with
  | none => c
  | some w =>
    if !c.emulOwn then c.emulRelay nv (c.emulCmd 0x0012 w.addr (bytesBE 4 w.mask ++ bytesBE 4 w.value))
    else if !c.writable then c.writeFail .busy
    else match c.writeNow nv [w] with
      | (c, .ok, _, _) => c.ans .ok []
      | (c, st, _, _) => c.writeFail st

/-- `WR` (R406). -/
def Chip.emulWr (c : Chip) (nv : NonVol) (a : Nat) (l : List Nat) : Chip :=
  if c.emulServed then (l.zipIdx).foldl (fun c w => c.emulWord nv ((a + 4 * w.2) % 2 ^ 16) (w.1 % 2 ^ 32)) c.ok else c

/-- The value of an AM6140 register of this device (R407). A member's registers, and what has no AM6140 value, are free
values. -/
def Chip.emulValue (c : Chip) (a : Nat) : Chip × Nat :=
  let free := fun (c : Chip) => let (c, d) := c.draw; (c, Config.choice d % 2 ^ 32)
  match emulReg a with
  | .none => (c, 0)
  | .part => if c.emulOwn then (c, 0x6140) else free c
  | r =>
    if !c.emulOwn then free c
    else match r with
      | .firmware => (c, c.get ID_FW.FW_VERSION)
      | .bright => (c, (2 * c.get COL_BRIGHT.BRIGHT * 255 + 32768) / 65536)
      | .source =>
        let s := c.get (FST_FEEDf_SHOW.SHOW_SRC 0)
        if s ≤ 1 then (c, s) else if 4 ≤ s ∧ s ≤ 6 then (c, s - 2) else free c
      | .faults => (c, c.get CHN_FMAP_STAT.FMAP_COUNT)
      | .temp s => (c, c.shownWord (0x900A0 + 4 * s))
      | .present w => if w < 2 then (c, c.get (GNG_PRESENT.PRESENT w)) else free c
      | _ => (c, 0)

def emulReads : Nat → Chip → Nat → Chip × List Nat
  | 0, c, _ => (c, [])
  | n + 1, c, a =>
    let (c, v) := c.emulValue (a % 2 ^ 16)
    let r := emulReads n c (a + 4)
    (r.1, v :: r.2)

/-- `RD` of `n` words (R406). -/
def Chip.emulRd (c : Chip) (a n : Nat) : Chip :=
  if c.emulServed then let (c, l) := emulReads n c a; c.ans .ok l else c

/-- `STAT` (R406). The manual does not say when the busy bit is 1. -/
def Chip.emulStat (c : Chip) : Chip :=
  if c.emulServed then
    let (c, d) := c.draw
    let s := (if c.emul.msgs.isEmpty then 0 else 1) + 2 * (Config.choice d % 2) + (if c.emul.overrun then 8 else 0)
    (c.ans .ok [s]).setEmul { c.emul with overrun := false }
  else c

/-- `MSG` (R406, R408): `n` bytes are clocked out; a message clocked out whole is removed. -/
def Chip.emulMsg (c : Chip) (n : Nat) : Chip :=
  if !c.emulServed then c
  else match c.emul.msgs with
    | [] => c.ans .ok (List.replicate n 0)
    | (type, addr, seq, value) :: l =>
      let b := [byteOf type, byteOf addr] ++ bytesBE 2 seq ++ bytesBE 4 value
      let c := c.ans .ok ((List.range n).map (fun i => (b.getD i 0#8).toNat))
      if 8 ≤ n then c.setEmul { c.emul with msgs := l } else c

/-- `BLK` (R406): data for the SRAM window, as `BULK_LOAD` has it. -/
def Chip.emulBlk (c : Chip) (nv : NonVol) (a : Nat) (data : List Byte) : Chip :=
  if !c.emulServed then c
  else if data.length < 4 ∨ data.length % 4 ≠ 0 then c.writeFail .badLength
  else if !c.emulOwn then c.emulRelay nv (c.emulCmd 0x0030 a data)
  else if c.st ≠ .stopped ∧ c.st ≠ .running then c.writeFail .busy
  else match c.bulkLoad a data with
    | (c, .ok) => c.ans .ok []
    | (c, st) => c.writeFail st

/-- `SEL` (R406). -/
def Chip.emulSel (c : Chip) (a : Nat) : Chip := if c.emulServed then c.ok.setEmul { c.emul with sel := a % 256 } else c

/-- `RST` (R406). -/
def Chip.emulRst (c : Chip) : Chip := if c.emulServed then c.loseDisplay.takeReset causeCommand else c

end Sys2Proof.Machine
end

