-- ==== Sys2Proof/Machine/Jtag.lean ====
section
/-!
DEFINITION. The IEEE 1149.1 TAP (R538, R539): its controller, the instruction register and the registers that its
instructions select.
-/

namespace Sys2Proof.Machine

open Sys2Proof

/-- The controller's next state at a rising edge of TCK. -/
def TapState.next : TapState → Bool → TapState
  | .reset, tms => if tms then .reset else .idle
  | .idle, tms => if tms then .selectDr else .idle
  | .selectDr, tms => if tms then .selectIr else .captureDr
  | .captureDr, tms => if tms then .exit1Dr else .shiftDr
  | .shiftDr, tms => if tms then .exit1Dr else .shiftDr
  | .exit1Dr, tms => if tms then .updateDr else .pauseDr
  | .pauseDr, tms => if tms then .exit2Dr else .pauseDr
  | .exit2Dr, tms => if tms then .updateDr else .shiftDr
  | .updateDr, tms => if tms then .selectDr else .idle
  | .selectIr, tms => if tms then .reset else .captureIr
  | .captureIr, tms => if tms then .exit1Ir else .shiftIr
  | .shiftIr, tms => if tms then .exit1Ir else .shiftIr
  | .exit1Ir, tms => if tms then .updateIr else .pauseIr
  | .pauseIr, tms => if tms then .exit2Ir else .pauseIr
  | .exit2Ir, tms => if tms then .updateIr else .shiftIr
  | .updateIr, tms => if tms then .selectDr else .idle

/-- The data register that an instruction selects (R538). -/
inductive TapReg
  | boundary | idcode | debug | bypass
  deriving DecidableEq, Repr

/-- The register that the instruction in force selects; `open_` tells that control-processor debug is open (R480). -/
def tapReg (open_ : Bool) (ir : Nat) : TapReg :=
  if ir = 0x00 ∨ ir = 0x01 then .boundary
  else if ir = 0x02 then .idcode
  else if ir = 0x3C ∧ open_ = true then .debug
  else .bypass

/-- R538: the IDCODE, with the silicon stepping in bits 31:28. -/
def idcode : Nat := 0x081701E7 + Config.silicon.toNat % 16 * 2 ^ 28

/-- The rising edge of TCK: the register of the state captures or shifts, and the controller moves. `d` draws what the manual
leaves open: the levels of captured balls, bits 7:2 that the instruction register captures, and the debug register. -/
def Tap.rise (t : Tap) (open_ : Bool) (d : Nat) (tms tdi : Bool) : Tap :=
  let bit := fun (b : Bool) (n : Nat) => if b then n else 0
  let t := match t.state with
    | .captureIr => { t with irShift := 1 + Config.choice d % 64 * 4 }
    | .shiftIr => { t with irShift := t.irShift / 2 + bit tdi 128 }
    | .captureDr =>
      match tapReg open_ t.ir with
      | .boundary => { t with boundary := (List.range cellCount).map (Config.ballLevel d) }
      | .idcode => { t with idShift := idcode }
      | .debug => { t with bypass := Config.ballLevel d 0 }
      | .bypass => { t with bypass := false }
    | .shiftDr =>
      match tapReg open_ t.ir with
      | .boundary => { t with boundary := t.boundary.drop 1 ++ [tdi] }
      | .idcode => { t with idShift := t.idShift / 2 + bit tdi (2 ^ 31) }
      | .debug => { t with bypass := Config.ballLevel d 0 }
      | .bypass => { t with bypass := tdi }
    | _ => t
  { t with state := t.state.next tms, tck := true }

/-- The bit that leaves on TDO in a shift state. -/
def Tap.out (t : Tap) (open_ : Bool) : Bool :=
  if t.state = .shiftIr then decide (t.irShift % 2 = 1)
  else match tapReg open_ t.ir with
    | .boundary => t.boundary.headD false
    | .idcode => decide (t.idShift % 2 = 1)
    | _ => t.bypass

/-- The falling edge of TCK: TDO changes in a shift state, the update states take effect, and Test-Logic-Reset returns the
balls to the device (R539). -/
def Tap.fall (t : Tap) (open_ : Bool) : Tap :=
  let t := { t with tck := false }
  match t.state with
  | .shiftIr | .shiftDr => { t with tdo := t.out open_ }
  | .updateIr => { t with ir := t.irShift }
  | .updateDr => if tapReg open_ t.ir = .boundary then { t with held := t.boundary } else t
  | .reset => { t with ir := 2 }
  | _ => t

/-- Test-Logic-Reset: at a reset release, and whenever TRST_N is low (R538, R539). -/
def Tap.toReset (t : Tap) : Tap := { t with state := .reset, ir := 2 }

/-- What the balls with a boundary cell show (R539). -/
inductive BallDrive
  | device | boundary | highZ
  deriving DecidableEq, Repr

def Tap.balls (t : Tap) : BallDrive :=
  if t.ir = 0x00 ∨ t.ir = 0x04 then .boundary else if t.ir = 0x03 then .highZ else .device

end Sys2Proof.Machine
end

