-- ==== Sys2Proof/Machine/Order.lean ====
section
/-!
DEFINITION. The order of commands that fall at one instant (R571). The commands in the queue fall at one instant of C. Where a
rule gives the order of two of them, the later one is put off until the earlier one has taken place; every other pair is taken
as it stands in the queue.
-/

namespace Sys2Proof.Machine

open Sys2Proof

/-! Groups of commands. -/

/-- The Selul command of a row: one that names it, or that brings it in a packet. -/
def cmdOf : Instr → Option Cmd
  | .ping c | .identify c | .read c _ | .write c | .writeMasked c | .txnBegin c | .txnCommit c | .txnRollback c | .txnStatus c
  | .bulkLoad c | .statsRead c | .eventAck c | .gateQuiesce c _ | .gateResume c | .reset c
  | .dormant c | .fwBlock c | .fwVerify c | .fwActivate c | .fwRevert c | .lcStatus c | .lcOpen c | .lcSeal c | .lcPin c
  | .raiseFloor c | .consent c | .lcReturn c | .reblank c | .decommission c | .setKey c | .clearKey c | .calRun c
  | .bridgeReq c | .bridgeResultCommand c => some c
  | .eventFetch x | .traceRead x => some x.cmd
  | .selulPacket p _ b => some (parseCmd (.net 0 0) p b)
  | _ => none

/-- Commands to the control processor, which run in their order of arrival (R344). -/
def toSelul (i : Instr) : Bool :=
  (cmdOf i).isSome || (match i with
    | .hqPut _ | .relayReceived .. => true
    | _ => false)

/-- Rows that may commit words of the configuration. -/
def commits (i : Instr) : Bool :=
  match i with
  | .registerWrite .. | .trigArm .. | .srcModeWrite _ | .txnDue _ | .wr .. | .blk .. | .hqPut _ | .relayReceived .. => true
  | _ => match cmdOf i with
    | some c => [0x0011, 0x0012, 0x0021].contains c.opcode
    | none => false

/-- Whether a row writes a word of the range `lo` to `hi` at once. -/
def writesIn (lo hi : Nat) (i : Instr) : Bool :=
  let here := fun (a : Nat) => decide (lo ≤ a) && decide (a < hi)
  match i with
  | .registerWrite a _ _ => here a
  | _ => match cmdOf i with
    | some c => c.opcode / 16 == 1 && c.opcode != 0x0010 && (writeWords c).any (fun w => here w.addr)
    | none => false

/-- Rows that read a counter and clear it (R144). -/
def clearsCounter (i : Instr) : Bool :=
  match i with
  | .statsCounterRead _ => true
  | _ => match cmdOf i with
    | some c => c.opcode == 0x0040 || (c.opcode == 0x0010 && (counterBlock c.arg).isSome)
    | none => false

/-- Rows by which the control processor reaches the SRAM: `BULK_LOAD`, and a `READ` of the SRAM window (R25). -/
def reachesSram (i : Instr) : Bool :=
  match cmdOf i with
  | some c => c.opcode == 0x0030 || (c.opcode == 0x0010 && decide (allocBase 0 ≤ c.arg))
  | none => false

/-- Rows that report what happens outside the control processor, any of which may count. -/
def counts (i : Instr) : Bool :=
  match i with
  | .rxFrame .. | .egressIdle _ | .fwdStart _ | .localTxEnqueue .. | .linkDown _ | .dmxRxPacket .. | .dmxSendInstant _
  | .rdmResponse .. | .freezePoint _ | .frameBoundary _ | .subframeEdge .. | .itemDeadline .. | .itemRetire .. | .coreRequest _
  | .readbackWindow .. | .readbackDone .. | .detectionWindow .. | .lockFrame _ | .sensorPoll .. | .sensorReadDone ..
  | .ntcConversion .. | .syncReceived _ | .delayReqReceived .. | .syncSend .. | .xtalGrossFreqTrip | .p0Loss _ | .p0Freq _
  | .errorDetected .. | .itemHang _ | .hbMiss | .relayTimeout _ | .sourceLost _ | .sacnSourceTimeout .. => true
  | _ => false

/-- Losses of the reference (R43, R45). -/
def losesSource (i : Instr) : Bool :=
  match i with
  | .xtalStall | .xtalGrossFreqTrip | .p0Loss _ | .p0Freq _ => true
  | _ => false

/-- Rows that cancel items (R235). -/
def cancels (i : Instr) : Bool :=
  match i with
  | .freezePoint _ | .itemDeadline .. | .frameBoundary _ | .stop | .syncLoss | .holdExpired | .gateQuiesce .. => true
  | _ => losesSource i

/-- The rank of a cause of reset that a row brings, the earlier first (R507). A power failure stands after the pin: the later of
these two causes is the one recorded. -/
def resetRank : Instr → Option Nat
  | .pinReset => some 0
  | .railLost _ => some 1
  | .errorDetected .. | .handlerComplete _ => some 2
  | .waitXtalDeadline => some 3
  | .watchdogExpiry _ => some 4
  | .commandActionStart => some 5
  | .rst => some 6
  | _ => none

/-! The pairs. -/

/-- The classes of R25: reads of staging, slicer writes, core accesses, and those of the control processor. -/
def accessClass (i : Instr) : Option Nat :=
  match i with
  | .rowSlotStart .. => some 0
  | .rxFrame .. => some 1
  | .itemRetire .. => some 2
  | _ => if reachesSram i then some 3 else none

/-- The turn of core `k` in the round robin of its class, after the core last served (R25). -/
def Chip.coreTurn (c : Chip) (k : Nat) : Nat := (k + 63 - c.sched.lastCore) % 64

/-- R25, R26: whether the access of `j` is granted before that of `i`. A frame's cancel in the same instant settles first what
cores deliver (R238). -/
def Chip.granted (c : Chip) (freezing : Bool) (j i : Instr) : Bool :=
  match j, i with
  | .itemRetire a _, .itemRetire b _ => decide (c.coreTurn a.val < c.coreTurn b.val)
  | _, _ => match accessClass j, accessClass i with
    | some a, some b => decide (a < b) && !(freezing && a == 1 && b == 2)
    | _, _ => false

/-- Whether a rule gives that `j` is taken before `i` at one instant; `freezing` tells whether a freeze point falls at it too. -/
def Chip.precedes (c : Chip) (freezing : Bool) (j i : Instr) : Bool :=
  c.granted freezing j i
    || (clearsCounter j && counts i)
    || (match resetRank j, resetRank i with
        | some a, some b => decide (a < b)
        | _, _ => false)
    || (match j, i with
        | .rxFrame p _ _, .rxFrame q _ _ => decide (p < q)
        | .xtalQualified, .p0Loss _ | .xtalQualified, .p0Freq _ | .xtalQualified, .waitXtalDeadline => true
        | .recoveredQualified _, .xtalStall | .recoveredQualified _, .xtalGrossFreqTrip
        | .recoveredQualified _, .waitXtalDeadline => true
        | .recoveredQualified p, .p0Loss q | .recoveredQualified p, .p0Freq q => p != q
        | .ringBufferRelease p _, .rxFrame q _ _ | .wmHitClear p, .rxFrame q _ _ => p == q
        | .fwdStart p, .localTxEnqueue q _ | .rxFrame p _ _, .localTxEnqueue q _ => q == otherPort p && !c.localFirst q
        | .freezePoint _, .rxFrame .. | .freezePoint _, .dmxRxPacket .. | .freezePoint _, .subframeRelease .. => true
        | .stagingBufferFree .., .subframeRelease .. => true
        | .frameBoundary _, .subframeEdge .. | .frameBoundary _, .rowSlotStart .. | .subframeEdge .., .rowSlotStart .. => true
        | .coreRequest a, .coreRequest b => decide (a < b)
        | .dmxSendInstant _, .itemRetire .. => true
        | .fmapRead _, .readbackDone .. | .fmapClear, .readbackDone .. | .read .., .readbackDone .. => true
        | .txnDue x, .txnRollback d => x == d.txn
        | _, .txnTimeout x => (cmdOf j).any (fun d => d.txn == x)
        | .relayReplyReceived _, .relayTimeout _ => true
        | .bridgeReq _, .semTimeout _ => true
        | .semExpired p, .semTimeout q => p == q
        | .heartbeatReceived _, .hbMiss => true
        | .handlerComplete _, .errorDetected .. => true
        | .errorDetected a u _, .errorDetected b v _ =>
          decide (errSeverity b < errSeverity a) || (errSeverity a == errSeverity b && decide (u < v))
        | .errorDetected .., .gateQuiesce .. | .errorDetected .., .gateResume _ | .itemHang _, .gateQuiesce .. => true
        | .activationStart, .actCancel | .lcReturn _, .consentExpiry | .reblank _, .consentExpiry => true
        | .calRun _, .calTrigger _ => true
        | .calInterpolate _, .calItemDone _ | .calInterpolate _, .calDone => true
        | .calSetRead _, .calDone | .calSetRead _, .calItemDone _ | .read .., .calDone | .read .., .calItemDone _ => true
        | .pinReset, .wakeMatch .. => true
        | .trigFire _, _ | .frameBoundary _, _ | .subframeRelease .., _ | .activationStart, _ => commits i
        | .announceReceived _, _ => toSelul i
        | .syncReceived _, _ => false
        | _, .syncReceived _ => losesSource j || (match j with | .syncLoss => true | _ => false)
        | .itemRetire .., _ => cancels i
        | .rxFrame p _ _, _ => writesIn (0x30000 + 0x8000 * p.val) (0x30004 + 0x8000 * p.val) i
        | _, .rxFrame p _ _ => writesIn (0x3000C + 0x8000 * p.val) (0x30010 + 0x8000 * p.val) j
        | _, .freezePoint _ => commits j
        | _, .readbackDone .. => writesIn 0x90000 0x90004 j
        | _, _ => false)

/-! Turns. -/

def isFreeze (i : Instr) : Bool :=
  match i with
  | .freezePoint _ => true
  | _ => false

/-- Whether no command of `waiting`, of the same instant, goes before `i` (R571), and none of `earlier` does as a command to
the control processor that came before it (R344). -/
def Chip.free (c : Chip) (waiting earlier : List Instr) (i : Instr) : Bool :=
  let freezing := isFreeze i || waiting.any isFreeze
  !waiting.any (fun j => c.precedes freezing j i) && !(toSelul i && earlier.any toSelul)

/-- Whether it is the turn of `i`, among the commands that wait in the queue or are put off, or because it is being taken from
these. -/
def State.turn (s : State) (i : Instr) : Bool := s.taking || s.chip.free (s.pending ++ s.late) s.late i

/-- A command is put off. -/
def State.putOff (s : State) (i : Instr) : State := { s with late := s.late ++ [i] }

/-- Whether a command that cancels items waits at this instant (R238). -/
def State.canceling (s : State) : Bool := (s.pending ++ s.late).any cancels

/-- The first command of `l` whose turn it is, with the others in their order; `seen` are those before it, the last first. -/
def Chip.pick (c : Chip) (seen : List Instr) : List Instr → Option (Instr × List Instr)
  | [] => none
  | i :: l =>
    if c.free (seen.reverse ++ l) seen i then some (i, seen.reverse ++ l) else c.pick (i :: seen) l

end Sys2Proof.Machine
end

