-- ==== Sys2Proof/Machine/Run.lean ====
section
/-!
DEFINITION. How the effect of a command on the volatile chip becomes a step of the whole machine: the SRAM window and the
flash as the effect sees them, what follows at once from an effect (R231, R344, R354, R360, R385), and the effects owed to
memory, flash and fuses.
-/

namespace Sys2Proof.Machine

open Sys2Proof

abbrev Result := Host.Outcome State Fault Refusal

/-! The SRAM window (R569, R259, R475). -/

/-- Byte `a` of a calibration share that nothing has loaded: the identity matrix with `BIN` 0 and `DEAD` 0 (R475). -/
def calDefault (a : Nat) : Byte := if a % 16 = 1 ∨ a % 16 = 7 ∨ a % 16 = 13 then 0x04#8 else 0

/-- Byte `a` of the rest of the window before anything has been stored: black (R475, log entry 3). -/
def sramDefault (_a : Nat) : Byte := 0

/-- Whether an address lies in the calibration share of a region, `gran` granules long. -/
def isCal (gran a : Nat) : Bool := decide (allocBase 0 ≤ a) && decide ((a - allocBase 0) % 0x600000 < gran * 4096)

/-- The two parts of the window after one effect. -/
def SramOp.apply (gran : Nat) (m : SMap Byte × SMap Byte) : SramOp → SMap Byte × SMap Byte
  | .store a bytes =>
    if isCal gran a then (smSetList calDefault 1 m.1 a bytes, m.2) else (m.1, smSetList sramDefault 1 m.2 a bytes)
  | .zero lo hi => (m.1, smKeep (fun a => !(decide (lo ≤ a) && decide (a < hi))) m.2)
  | .resetCal => ([], m.2)

/-- One byte of the window. -/
def State.byteAt (s : State) (a : Nat) : Byte :=
  if isCal (s.chip.get FST_LAYOUT_CAL.CAL_GRAN) a then smGet calDefault s.cal a else smGet sramDefault s.sram a

/-- The calibration record of a driven pixel: 16 bytes, little-endian, in its region's share (R259). -/
def State.record (s : State) (regions : List (List Nat)) (k : Nat) : Nat :=
  match homeIn regions k with
  | some (q, i) =>
    let a := allocBase q + s.chip.get FST_LAYOUT_CAL.CAL_OFS * 4096 + 16 * i
    natBE ((List.range 16).map (fun j => s.byteAt (a + 15 - j)))
  | none => 0

/-- What the items read of the window. -/
def State.view (s : State) : MemView :=
  let regions := s.chip.regions
  { record := s.record regions, byte := s.byteAt }

/-- What a command sees beyond the chip. -/
def State.env (s : State) (poisoned : List Nat) : RunEnv := { nv := s.nv, byte := s.byteAt, poisoned := poisoned }

/-! What follows at once from an effect. -/

/-- A feed whose display has gone has no ring (R304). -/
def Chip.quietRings (c : Chip) : Chip :=
  match c.scan.display with
  | .blank | .waitLock => (List.range 4).foldl (fun c f => if (c.feed f).running then c.stopRing f else c) c
  | _ => c

/-- What follows at once from an effect that began with the local time `before`: commits without a grid come into force
(R354), scheduled transactions that a step has passed are taken (R360), rings without a display stop (R304), commands that
no row carries run as they come to the head of the queue (R344), ready items are granted (R231) unless a command that may
cancel them waits at this instant (`held`, R238), a calibration run in a state that allows none ends (R491), and
events are signalled (R385). -/
def Chip.finish (c : Chip) (e : RunEnv) (before : Int) (held : Bool) : Chip :=
  let c := if c.pend.isEmpty || c.timeValid then c else c.settle e.nv
  let c := c.stepTxns e.nv before
  let c := c.quietRings
  let c := c.flushOdd e 65
  let c := if held || c.sched.items.isEmpty then c else c.grant
  let c := if c.calib.run.isNone || c.mayCalibrate then c else c.calDone e.nv
  c.flushSignals e.nv

/-- The machine after a step whose effect on the chip is `c`: memory, flash and fuses take what the effect owes them. -/
def State.put (s : State) (c : Chip) : State :=
  let m := c.sramOps.foldl (SramOp.apply (c.get FST_LAYOUT_CAL.CAL_GRAN)) (s.cal, s.sram)
  { s with chip := (c.setSramOps []).setNvOps [], cal := m.1, sram := m.2, nv := c.nvOps.foldl NvOp.apply s.nv }

/-- The machine after an effect `c` and what follows from it. -/
def State.run (s : State) (c : Chip) : State := s.put (c.finish (s.env []) s.chip.now s.canceling)

/-- A command `i` with the result `r`; out of its turn it is put off (R571). -/
def State.inTurn (s : State) (i : Instr) (r : State) : Result := .next (if s.turn i then r else s.putOff i)

/-- A command with the effect `f`. -/
def State.act (s : State) (i : Instr) (f : Chip → Chip) : Result := s.inTurn i (s.run (f s.chip))

/-- A command that takes place where `p` holds; elsewhere it leaves the state as it is (log entry 2). -/
def State.when (s : State) (i : Instr) (p : Bool) (f : Chip → Chip) : Result := s.inTurn i (if p then s.run (f s.chip) else s)

/-! The states in which commands take place (R32). -/

/-- The core runs. -/
def Chip.awake (c : Chip) : Bool := !(c.st == .off || c.st == .reset || c.st == .dormant)

/-- The time unit, the pixel path and the chains are in use. -/
def Chip.timed (c : Chip) : Bool := c.awake && c.st != .recovery

/-! Accesses to one register (R4, R5). -/

/-- A write of one field by itself. -/
def Chip.writeFld (c : Chip) (nv : NonVol) (f : Fld) (v : Nat) : Chip := c.writeField nv f.addr f.bits (v * 2 ^ f.lo)

/-- R112: a write that arms a trigger. -/
def Chip.trigWrite (c : Chip) (nv : NonVol) (n : Nat) : TrigWrite → Chip
  | .time v => c.writeFld nv (TIM_TRIGn_TIME.TIME n) (v % 2 ^ 32)
  | .mode m => c.writeFld nv (TIM_TRIGn_CTRL.MODE n) (m % 4)

/-- A read of one word by itself, answered with its value, in the states in which `READ` runs (R351). -/
def Chip.readRow (c : Chip) (a : Nat) : Chip :=
  if c.writable then
    let (c, v) := c.readWord a
    c.ans .ok [v]
  else c

/-- R144: a read of a counter's low word. -/
def Chip.readCounter (c : Chip) (a : Nat) : Chip := if (counterBlock a).isSome && a % 8 == 0 then c.readRow a else c

/-- The time of the next tick, before which every instant belongs to the present one (R78, R112: edges are placed within a
tick). -/
def Chip.nextTick (c : Chip) : Int := ({ c.time with c := c.time.c + 1 } : Time).now 0

/-- R78, R112, R114, R274: the target for which trigger `n` fires in this tick: its compare has become zero or negative, or an
edge of its kind with its `OFFSET` falls into the tick. A target that has fired is none. -/
def Chip.trigDue (c : Chip) (n : Nat) : Option Int :=
  let offset := c.getS (TIM_TRIGn_OFFSET.OFFSET n) * 65536 / 10
  let now := c.now
  let fresh := fun (g : Int) => decide (now ≤ g) && decide (g < c.nextTick) &&
    (match (c.trig n).fired with | some x => decide (x < g) | none => true)
  let m := gridN c.period c.gridOffset (now - offset)
  match c.trigMode n with
  | 1 | 2 => match (c.trig n).target with
    | some g => if g < c.nextTick then some g else none
    | none => none
  | 3 =>
    let f := c.get (TIM_TRIGn_CTRL.FACET n)
    [m - 1, m, m + 1].findSome? (fun i =>
      let v := c.viewAt i
      if v.facetEn f then
        (List.range v.subframes).findSome? (fun k =>
          let g := v.edgeAt i k + offset
          if (v.get (COL_FACETf_WIN.WIN_MASK f)).testBit k && fresh g then some g else none)
      else none)
  | 4 => [m - 1, m, m + 1].findSome? (fun i =>
      let g := c.edgeAt i 0 + offset
      if fresh g then some g else none)
  | _ => none

/-- R112: trigger `n` fires if a target of its falls into this tick. -/
def Chip.fireDue (c : Chip) (n : Nat) : Chip :=
  match c.trigDue n with
  | some g => c.fireTrig n g
  | none => c

/-- One tick of the timebase (R73): the counter C counts where the time unit is in use (R32), edges held on the capture inputs
are taken (R111), and the edges planned on the lines to the drivers take place up to the instant reached (R291 to R293). -/
def State.tick (s : State) : State :=
  if s.chip.timed then
    let c := s.chip.setTime { s.chip.time with c := s.chip.time.c + 1 }
    let c := c.takeCaps
    { s with chip := c.edgesTo (toQ c.now + 1) }
  else s

end Sys2Proof.Machine
end

