-- ==== Sys2Proof/Machine/PowerCmds.lean ====
section
/-!
DEFINITION. The commands of supplies, reset, boot and clocks (R37 to R68, R441, R501 to R519).
-/

namespace Sys2Proof.Machine

open Sys2Proof

/-- `GROUP_A_RAILS_GOOD` (R503): The last group A rail becomes good, and PWREN_MAIN is raised 100 µs later. -/
def execGroupARailsGood (s : State) : Result := s.act .groupARailsGood (fun c => c.railsGood)

/-- `MAIN_RAIL_TIMEOUT` (R503): VDD_CORE and VDD_SRAM are not both good within 20 ms of PWREN_MAIN, so PWREN_MAIN is
driven low for 100 ms and the power-up is retried. -/
def execMainRailTimeout (s : State) : Result := s.act .mainRailTimeout (fun c => c.mainTimeout)

/-- `RAIL_LOST` (R504): A group A rail, VDD_CORE or VDD_SRAM stays below its falling threshold for 1 µs and causes a
POWER reset. -/
def execRailLost (r : Rail) (s : State) : Result :=
  let t := s.run (s.chip.railLost r)
  s.inTurn (.railLost r) (if r = .vddAon then { t with tap := Tap.reset } else t)

/-- `PIN_RESET` (R505): RST_N is held low for 1 µs or more, which causes a pin reset, or ends Dormant when the
device is Dormant. -/
def execPinReset (s : State) : Result := s.when .pinReset (s.chip.st != .off) (fun c => c.pinReset)

/-- `RESET_RELEASE` (R506): 200 µs after the latest reset condition clears, the straps are sampled, BOOT_ID is
drawn, C starts at zero and the crystal start window opens. -/
def execResetRelease (straps : BitVec 11) (banks : List BankSupply) (testEn : Bool) (s : State) : Result :=
  let c := s.chip.release straps.toNat banks testEn
  .next (if s.chip.st == .reset && c.st != .reset then { s.run c with tap := s.tap.toReset } else s.run c)

/-- `IMAGE_START` (R513): The boot ROM finishes its steps and starts the verified image, or enters Recovery. -/
def execImageStart (records : Records) (logOk : Bool) (s : State) : Result :=
  s.act (.imageStart records logOk) (fun c => c.imageStart s.nv records logOk)

/-- `PORTS_UP` (R515): The image has applied the stored port and addressing fields and brings the ports up. -/
def execPortsUp (s : State) : Result := s.act .portsUp (fun c => c.bringPortsUp s.nv)

/-- `SETTINGS_APPLIED` (R477): The image reads its settings slot and applies, converts or resets the settings
according to their format. -/
def execSettingsApplied (s : State) : Result := s.act .settingsApplied (fun c => c.applySettings s.nv)

/-- `BOOT_LISTEN_END` (R434): The 1.5 s listen on RED_GROUP at the end of Boot ends, and the device leaves Boot for
Fenced or Stopped. -/
def execBootListenEnd (s : State) : Result := s.act .bootListenEnd (fun c => c.bootEnd s.nv)

/-- `WATCHDOG_EXPIRY` (R441): The control processor's watchdog expires and the device resets with reset cause
WATCHDOG. -/
def execWatchdogExpiry (ms : Nat) (s : State) : Result := s.act (.watchdogExpiry ms) (fun c => c.watchdog ms)

/-- `XTAL_STALL` (R50): The crystal stall monitor trips, and the crystal is restarted once. -/
def execXtalStall (s : State) : Result := s.when .xtalStall (s.chip.awake) (fun c => c.xtalStall)

/-- `XTAL_GROSS_FREQ_TRIP` (R43): The crystal frequency lies outside ±2 % of the trimmed control oscillator over a 1
ms gate. -/
def execXtalGrossFreqTrip (s : State) : Result := s.when .xtalGrossFreqTrip (s.chip.awake) (fun c => c.xtalGrossFreq)

/-- `P0_LOSS` (R43): A port's recovered-loss monitor trips, which can switch the reference or start WAIT_XTAL. -/
def execP0Loss (p : PortIx) (s : State) : Result := s.when (.p0Loss p) (s.chip.awake) (fun c => c.recoveredLoss p)

/-- `P0_FREQ` (R45): A port's recovered clock differs from the crystal by more than FREQ_LIMIT over a gate and is
disqualified. -/
def execP0Freq (p : PortIx) (s : State) : Result := s.when (.p0Freq p) (s.chip.awake) (fun c => c.recoveredFreq p)

/-- `XTAL_QUALIFIED` (R44): The crystal completes 65,536 good cycles and becomes qualified. -/
def execXtalQualified (s : State) : Result := s.when .xtalQualified (s.chip.awake) (fun c => c.xtalQualified)

/-- `RECOVERED_QUALIFIED` (R44): A recovered clock stays free of trips for QUAL_TIME and becomes qualified. -/
def execRecoveredQualified (p : PortIx) (s : State) : Result :=
  s.when (.recoveredQualified p) (s.chip.awake) (fun c => c.recoveredQualified p)

/-- `XTAL_QUAL_FAIL` (R49): The crystal start window closes without qualification and the crystal is marked lost. -/
def execXtalQualFail (s : State) : Result := s.when .xtalQualFail (s.chip.awake) (fun c => c.xtalQualFail)

/-- `WAIT_XTAL_DEADLINE` (R59): 20 ms after the trip no source has qualified, and the device resets with reset cause
CLK_NONE. -/
def execWaitXtalDeadline (s : State) : Result := s.when .waitXtalDeadline (s.chip.awake) (fun c => c.waitXtalDeadline)

/-- `PLL_LOCK` (R62): The timebase PLL locks to the qualified source after a WAIT_XTAL. -/
def execPllLock (s : State) : Result := s.when .pllLock (s.chip.awake) (fun c => c.pllLocked)

/-- `REVERT_HOLD_EXPIRY` (R56): A more preferred candidate has stayed qualified for REVERT_HOLD and the device
switches back to it. -/
def execRevertHoldExpiry (s : State) : Result := s.when .revertHoldExpiry (s.chip.awake) (fun c => c.revert)

/-- `SRC_MODE_WRITE` (R54): A write that changes SRC_MODE takes effect at once and switches the reference within 10
µs as the new mode requires. -/
def execSrcModeWrite (mode : Fin 4) (s : State) : Result :=
  s.act (.srcModeWrite mode) (fun c => c.writeFld s.nv CLK_CTRL.SRC_MODE mode.val)

/-- `XTAL_RESTART` (R63): A write of 1 to XTAL_RESTART restarts the crystal and opens a start window, or returns
BUSY. -/
def execXtalRestart (s : State) : Result := s.act .xtalRestart (fun c => c.writeOne s.nv CLK_CTRL.XTAL_RESTART)

/-- `FOFS_UPDATE` (R47): Each 100 ms gate ends and updates a port's FOFS. -/
def execFofsUpdate (p : PortIx) (ppb : Int) (s : State) : Result :=
  s.when (.fofsUpdate p ppb) (s.chip.awake) (fun c => c.fofsUpdate p ppb)

/-- `TRIM_NOW` (R66): A write of 1 to TRIM_NOW starts a control-oscillator trim. -/
def execTrimNow (s : State) : Result := s.act .trimNow (fun c => c.writeOne s.nv CLK_COSC_TRIM.TRIM_NOW)

/-- `TRIM_GATE_END` (R66): A trim measurement gate ends, and the trim adjusts COARSE or FINE or finishes. -/
def execTrimGateEnd (refLost : Bool) (cycles : Nat) (s : State) : Result :=
  s.when (.trimGateEnd refLost cycles) (s.chip.awake) (fun c => c.trimGate refLost cycles)

/-- `AUTO_RETRIM` (R67): 10 s pass or the die temperature moves by 10 °C, and firmware starts a re-trim. -/
def execAutoRetrim (s : State) : Result := s.when .autoRetrim (s.chip.awake) (fun c => c.autoRetrim)

end Sys2Proof.Machine
end

