-- ==== Sys2Proof/Machine/TimeCmds.lean ====
section
/-!
DEFINITION. The commands of the time unit (R73 to R116).
-/

namespace Sys2Proof.Machine

open Sys2Proof

/-- `SYNC_RECEIVED` (R97): A Sync on the slave port runs one servo update, with outlier rejection, slewing or
stepping. -/
def execSyncReceived (m : SyncMsg) (s : State) : Result :=
  s.when (.syncReceived m) (s.chip.timed && s.chip.power.portsUp && s.chip.linkUp m.port) (fun c => c.syncReceived m)

/-- `ANNOUNCE_RECEIVED_PTP` (R83): A PTP Announce enters the foreign master table and feeds the best master clock
algorithm. -/
def execAnnounceReceivedPtp (a : PtpAnnounce) (s : State) : Result :=
  s.when (.announceReceivedPtp a) (s.chip.timed && s.chip.power.portsUp && s.chip.linkUp a.port)
    (fun c => c.ptpAnnounce a)

/-- `FOREIGN_MASTER_AGEOUT` (R83): A foreign master entry ages out after 4 Announce intervals. -/
def execForeignMasterAgeout (p : PortIx) (sender : Nat) (s : State) : Result :=
  s.when (.foreignMasterAgeout p sender) (s.chip.timed) (fun c => c.foreignAgeout p sender)

/-- `DELAY_REQ_RECEIVED` (R83): A Delay_Req is answered, or dropped and counted beyond 4,096 per second. -/
def execDelayReqReceived (p : PortIx) (requester seq frac10 : Nat) (s : State) : Result :=
  s.when (.delayReqReceived p requester seq frac10) (s.chip.timed && s.chip.power.portsUp && s.chip.linkUp p)
    (fun c => c.delayReqReceived p requester seq frac10)

/-- `PDELAY_EXCHANGE` (R85): A peer delay exchange completes and updates a port's meanLinkDelay. -/
def execPdelayExchange (m : PdelayMsg) (s : State) : Result :=
  s.when (.pdelayExchange m) (s.chip.timed && s.chip.power.portsUp && s.chip.linkUp m.port) (fun c => c.pdelay m)

/-- `SYNC_SEND` (R82): A master sends a one-step Sync at its Sync interval. -/
def execSyncSend (p : PortIx) (frac10 : Nat) (s : State) : Result :=
  s.when (.syncSend p frac10) (s.chip.timed && s.chip.power.portsUp) (fun c => c.syncSend p frac10)

/-- `SYNC_LOSS` (R98): Sync is lost for 3 intervals, or the upstream reference is lost, and the servo enters
HOLDOVER. -/
def execSyncLoss (s : State) : Result := s.when .syncLoss (s.chip.timed) (fun c => c.syncLost)

/-- `HOLD_EXPIRED` (R101): HOLD_TIME reaches HOLD_MAX, which latches HOLD_EXPIRED or makes time invalid. -/
def execHoldExpired (s : State) : Result := s.when .holdExpired (s.chip.timed) (fun c => c.holdExpired)

/-- `FSYNC_IN_EDGE` (R107): An active edge on FSYNC_IN is captured and accepted, rejected or used to step the grid. -/
def execFsyncInEdge (rising : Bool) (frac10 : Nat) (s : State) : Result :=
  s.when (.fsyncInEdge rising frac10) (s.chip.timed) (fun c => c.fsyncEdge rising frac10)

/-- `FSYNC_MISS_LIMIT` (R108): FS_MISS consecutive expected pulses are missing, and the servo enters HOLDOVER. -/
def execFsyncMissLimit (s : State) : Result := s.when .fsyncMissLimit (s.chip.timed) (fun c => c.fsyncMissLimit)

/-- `SET_GO` (R116): A write of 1 to SET_GO loads TIM_SET into B, or latches SET_REFUSED. -/
def execSetGo (s : State) : Result := s.act .setGo (fun c => c.writeOne s.nv TIM_CTRL.SET_GO)

/-- `TIM_NOW_READ` (R70): Reading word 0 of a time record takes one snapshot for the reads of words 1 to 3. -/
def execTimNowRead (s : State) : Result := s.act .timNowRead (fun c => c.readRow 0x20030)

/-- `TSQ_POP` (R91): Reading word 0 of TIM_TSQ pops the head timestamp entry. -/
def execTsqPop (s : State) : Result := s.act .tsqPop (fun c => c.readRow 0x20120)

/-- `CAP_EDGE` (R111): An enabled edge on CAPn is timestamped and queued, or dropped. -/
def execCapEdge (n : Fin 4) (rising : Bool) (frac10 : Nat) (s : State) : Result :=
  s.when (.capEdge n rising frac10) (s.chip.timed) (fun c => c.capEdge n.val rising frac10)

/-- `CAP_POP` (R111): Reading word 0 of TIM_CAPn pops the head capture entry. -/
def execCapPop (n : Fin 4) (s : State) : Result := s.act (.capPop n) (fun c => c.readRow (0x200A0 + 16 * n.val))

/-- `TRIG_ARM` (R112): A write to TIME, or a write that sets MODE to ONCE or PERIODIC, arms a trigger. -/
def execTrigArm (n : Fin 4) (w : TrigWrite) (s : State) : Result :=
  s.act (.trigArm n w) (fun c => c.trigWrite s.nv n.val w)

/-- `TRIG_FIRE` (R112): A trigger compare fires and TRIGn is asserted for WIDTH ticks. -/
def execTrigFire (n : Fin 4) (s : State) : Result := s.when (.trigFire n) (s.chip.timed) (fun c => c.fireDue n.val)

/-- `TRIG_PULSE_END` (R112): The asserted width of a trigger pulse ends and TRIGn returns to its idle level. -/
def execTrigPulseEnd (n : Fin 4) (s : State) : Result :=
  s.when (.trigPulseEnd n) (s.chip.timed) (fun c => c.trigPulseEnd n.val)

/-- `FRAME_BOUNDARY` (R104): A frame boundary T_n of the grid is reached: slots are assigned, frames are presented,
and class F fields and timing sets take effect. -/
def execFrameBoundary (n : Int) (s : State) : Result :=
  s.when (.frameBoundary n) (s.chip.timed) (fun c => c.frameBoundary s.nv n)

/-- `FREEZE_POINT` (R205): The start of vertical blanking takes commits, judges completeness, decides what each feed
shows and checks assignments. -/
def execFreezePoint (n : Int) (s : State) : Result :=
  s.when (.freezePoint n) (s.chip.timed) (fun c => c.freezePoint s.nv n)

/-- `DELAY_REQ_SEND` (R80): At each Delay_Req or Pdelay_Req interval, the time unit sends a delay request on the
port that needs one. -/
def execDelayReqSend (p : PortIx) (frac10 : Nat) (s : State) : Result :=
  s.when (.delayReqSend p frac10) (s.chip.timed && s.chip.power.portsUp) (fun c => c.delayReqSend p frac10)

/-- `DELAY_RESP_RECEIVED` (R97): A Delay_Resp from the master is taken whole and completes the end-to-end delay
measurement that the servo's offset uses. -/
def execDelayRespReceived (p : PortIx) (sender seq : Nat) (receipt correction : Int) (s : State) : Result :=
  s.when (.delayRespReceived p sender seq receipt correction) (s.chip.timed && s.chip.power.portsUp && s.chip.linkUp p)
    (fun c => c.delayResp p sender seq receipt correction)

/-- `PTP_ANNOUNCE_SEND` (R80): A device acting as master or island grandmaster sends an Announce at each Announce
interval. -/
def execPtpAnnounceSend (p : PortIx) (s : State) : Result :=
  s.when (.ptpAnnounceSend p) (s.chip.timed && s.chip.power.portsUp) (fun c => c.announceSend p)

end Sys2Proof.Machine
end

