-- ==== Sys2Proof/Machine/PixelCmds.lean ====
section
/-!
DEFINITION. The commands of work items, colour, scan and chains (R219 to R333).
-/

namespace Sys2Proof.Machine

open Sys2Proof

/-- `ZONE_STALE` (R263): 10 s pass with no valid reading for a zone, which latches ZONE_STALE and makes the zone
take TEMP_FAIL. -/
def execZoneStale (z : Fin 16) (s : State) : Result :=
  s.when (.zoneStale z) (s.chip.timed) (fun c => c.zoneStale z.val)

/-- `SUBFRAME_EDGE` (R105): A sub-frame edge E_n,k fires and the scan engines begin the sub-frame. -/
def execSubframeEdge (n : Int) (k : Nat) (s : State) : Result :=
  s.when (.subframeEdge n k) (s.chip.timed) (fun c => c.subframeEdge n k)

/-- `ROW_SLOT_START` (R293): A row slot begins with the row change: discharge, pre-charge and row switching,
followed by the windows of the row program. -/
def execRowSlotStart (n : Int) (k r : Nat) (s : State) : Result :=
  s.when (.rowSlotStart n k r) (s.chip.timed) (fun c => c.rowSlotStart n k r)

/-- `STAGING_BUFFER_FREE` (R296): At WD_START of the last row of a sub-frame, its staging buffer is freed. -/
def execStagingBufferFree (n : Int) (k : Nat) (s : State) : Result :=
  s.when (.stagingBufferFree n k) (s.chip.timed) (fun c => c.stagingFree n k)

/-- `SUBFRAME_RELEASE` (R223): At the later of buffer free and the freeze point, the items of a sub-frame are made. -/
def execSubframeRelease (n : Int) (k : Nat) (s : State) : Result :=
  s.when (.subframeRelease n k) (s.chip.timed) (fun c => c.subframeRelease n k)

/-- `ITEM_DEADLINE` (R233): At a sub-frame item's deadline, unretired items are cancelled or missed and unmarked
strips are starved. -/
def execItemDeadline (n : Int) (k : Nat) (detect : Bool) (strip : Nat) (s : State) : Result :=
  s.when (.itemDeadline n k detect strip) (s.chip.timed) (fun c => c.itemDeadline n k detect strip)

/-- `CORE_REQUEST` (R231): A core asks for work, joins the idle queue and is granted the first ready item it may
take. -/
def execCoreRequest (k : Fin 64) (s : State) : Result :=
  s.when (.coreRequest k) (s.chip.timed) (fun c => c.coreRequest k.val)

/-- `ITEM_RETIRE` (R226): A running item retires, decrementing its dependents' counters and freeing its slot. -/
def execItemRetire (k : Fin 64) (poison : Option (List Nat)) (s : State) : Result :=
  s.when (.itemRetire k poison) (s.chip.timed) (fun c => c.itemRetire s.view k.val poison)

/-- `ITEM_HANG` (R440): A running item has not retired ITEM_LIMIT after its grant. -/
def execItemHang (k : Fin 64) (s : State) : Result := s.when (.itemHang k) (s.chip.timed) (fun c => c.itemHang k.val)

/-- `PEAK_CLR` (R250): A write of 1 to PEAK_CLR resets BUSY_PEAK and ITEMS_PEAK. -/
def execPeakClr (s : State) : Result := s.act .peakClr (fun c => c.writeOne s.nv SCH_CTRL.PEAK_CLR)

/-- `TR_CLEAR` (R249): A write of 1 to TR_CLEAR empties the decision trace. -/
def execTrClear (s : State) : Result := s.act .trClear (fun c => c.writeOne s.nv SCH_TRACE_CTRL.TR_CLEAR)

/-- `TRACE_POP` (R249): Reading word 0 of SCH_TRACE_ENTRY pops the oldest trace entry. -/
def execTracePop (s : State) : Result := s.act .tracePop (fun c => c.readRow 0x60040)

/-- `LOCK_FRAME` (R303): The first frame boundary at least 1 ms after entry or resumption, with time valid, starts a
blank lock frame and restarts the rings. -/
def execLockFrame (n : Int) (s : State) : Result := s.when (.lockFrame n) (s.chip.timed) (fun c => c.lockFrame n)

/-- `DETECTION_WINDOW` (R318): In the detection slot, the tested row's TEST command and detection pulse run and the
drivers capture their flags. -/
def execDetectionWindow (n : Int) (k : Nat) (h : Fin 2) (s : State) : Result :=
  s.when (.detectionWindow n k h) (s.chip.timed) (fun c => c.detectionWindow n k h.val)

/-- `READBACK_WINDOW` (R319): An unowned sub-frame runs flag readouts, the chain check and configuration writes. -/
def execReadbackWindow (n : Int) (k : Nat) (s : State) : Result :=
  s.when (.readbackWindow n k) (s.chip.timed) (fun c => c.readbackWindow n k)

/-- `READBACK_DONE` (R323): After the readback sequence, the chain checks and flags update the fault list and the
tested row advances. -/
def execReadbackDone (n : Int) (k : Nat) (reads : List LaneRead) (s : State) : Result :=
  s.when (.readbackDone n k reads) (s.chip.timed) (fun c => c.readbackDone n k reads)

/-- `CFG_NOW` (R325): A write of 1 to CFG_NOW writes the configuration words in Stopped, or returns BUSY. -/
def execCfgNow (s : State) : Result := s.act .cfgNow (fun c => c.writeOne s.nv CHN_CTRL.CFG_NOW)

/-- `FMAP_CLEAR` (R323): A write of 1 to FMAP_CLEAR empties the fault list. -/
def execFmapClear (s : State) : Result := s.act .fmapClear (fun c => c.writeOne s.nv CHN_CTRL.FMAP_CLEAR)

/-- `FMAP_READ` (R324): Reading word 0 of CHN_FMAPi takes a snapshot of both words. -/
def execFmapRead (slot : Fin 4096) (s : State) : Result :=
  s.act (.fmapRead slot) (fun c => c.readRow (0x91000 + 8 * slot.val))

/-- `SENSOR_POLL` (R327): Every POLL_MS, the enabled I2C sensor slots are read in ascending order. -/
def execSensorPoll (stuck0 stuck1 : Bool) (s : State) : Result :=
  s.when (.sensorPoll stuck0 stuck1) (s.chip.timed) (fun c => c.sensorPoll stuck0 stuck1)

/-- `SENSOR_READ_DONE` (R328): An I2C sensor read completes and is judged valid or invalid. -/
def execSensorReadDone (slot : Fin 12) (x : SensorRead) (s : State) : Result :=
  s.when (.sensorReadDone slot x) (s.chip.timed) (fun c => c.sensorRead slot.val x)

/-- `NTC_CONVERSION` (R330): Every 100 ms, 16 ADC conversions of an NTC input give a temperature or an invalid
reading. -/
def execNtcConversion (a : Fin 4) (code : Nat) (s : State) : Result :=
  s.when (.ntcConversion a code) (s.chip.timed) (fun c => c.ntcConversion a.val code)

end Sys2Proof.Machine
end

