-- ==== Sys2Proof/Machine/PortCmds.lean ====
section
/-!
DEFINITION. The commands of the network ports (R117 to R148).
-/

namespace Sys2Proof.Machine

open Sys2Proof

/-- `RX_FRAME` (R133): A received network frame is checked, taken into the receive ring and delivered locally where
R123 allows. -/
def execRxFrame (p : PortIx) (h : FrameHead) (b : RxBody) (s : State) : Result :=
  s.when (.rxFrame p h b) (s.chip.st != .off && s.chip.st != .reset) (fun c => c.rxFrame p h b)

/-- `RING_BUFFER_RELEASE` (R137): All consumers of a frame release its ring buffers. -/
def execRingBufferRelease (p : PortIx) (k : Nat) (s : State) : Result :=
  s.when (.ringBufferRelease p k) (s.chip.st != .off && s.chip.st != .reset) (fun c => c.releaseRing p k)

/-- `WM_HIT_CLEAR` (R138): A write of 1 to WM_HIT clears it, zeroes WM_CROSSINGS and resets RING_PEAK. -/
def execWmHitClear (p : PortIx) (s : State) : Result :=
  s.act (.wmHitClear p) (fun c => c.writeOne s.nv (PRTn_EVENT.WM_HIT p))

/-- `FWD_START` (R127): A forwarded frame starts on egress after 64 bytes (cut-through) or after its FCS check
(store-and-forward). -/
def execFwdStart (p : PortIx) (s : State) : Result :=
  s.when (.fwdStart p) (s.chip.st != .off && s.chip.st != .reset) (fun c => c.fwdStart p)

/-- `EGRESS_IDLE` (R130): An egress port becomes idle and chooses its next forwarded or local frame. -/
def execEgressIdle (p : PortIx) (s : State) : Result :=
  s.when (.egressIdle p) (s.chip.st != .off && s.chip.st != .reset) (fun c => c.egressIdle p)

/-- `LOCAL_TX_ENQUEUE` (R131): A locally originated frame enters its port's transmit queue, or is discarded. -/
def execLocalTxEnqueue (p : PortIx) (len : Nat) (s : State) : Result :=
  s.when (.localTxEnqueue p len) (s.chip.st != .off && s.chip.st != .reset && s.chip.power.portsUp)
    (fun c => c.sendLocal p ⟨.other, len + c.tagBytes p⟩)

/-- `LINK_UP_SEEN` (R122): PCS lock, FEC lock and auto-negotiation are complete, so LINK_UP rises. -/
def execLinkUpSeen (x : PortPins) (speed : Nat) (s : State) : Result :=
  s.when (.linkUpSeen x speed) (s.chip.st != .off && s.chip.st != .reset) (fun c => (c.seePins x).linkUpSeen x.port speed)

/-- `LINK_DOWN` (R122): A link condition is lost, so LINK_UP falls and waiting frames are dropped. -/
def execLinkDown (x : PortPins) (s : State) : Result :=
  s.when (.linkDown x) (s.chip.st != .off && s.chip.st != .reset) (fun c => (c.linkDown x.port).seePins x)

/-- `SPEED_SEARCH_TIMEOUT` (R119): With SPEED AUTO and no module, 250 ms pass in one mode and the port tries the
next. -/
def execSpeedSearchTimeout (x : PortPins) (s : State) : Result :=
  s.when (.speedSearchTimeout x) (s.chip.st != .off && s.chip.st != .reset) (fun c => (c.seePins x).speedSearch x.port)

/-- `MOD_CHANGE` (R121): A change of Pn_MOD_ABS latches MOD_CHANGE. -/
def execModChange (x : PortPins) (absent : Bool) (best : Nat) (s : State) : Result :=
  s.when (.modChange x absent best) (s.chip.st != .off && s.chip.st != .reset)
    (fun c => (c.seePins x).modChange x.port absent best)

/-- `TX_FAULT_SEEN` (R121): A rising edge of Pn_TX_FAULT latches TX_FAULT_SEEN. -/
def execTxFaultSeen (x : PortPins) (s : State) : Result :=
  s.when (.txFaultSeen x) (s.chip.st != .off && s.chip.st != .reset) (fun c => c.seePins x.setFault)

/-- `ARP_REQUEST` (R140): Firmware answers ARP or neighbour discovery for the port's addresses. -/
def execArpRequest (p : PortIx) (ip asker : Nat) (s : State) : Result :=
  s.when (.arpRequest p ip asker) (s.chip.st != .off && s.chip.st != .reset) (fun c => c.arpRequest p ip asker)

/-- `MC_REPORT_REPEAT` (R143): After UNSOL_MS, a state-change report is sent again, up to ROBUSTNESS times. -/
def execMcReportRepeat (p : PortIx) (s : State) : Result :=
  s.when (.mcReportRepeat p) (s.chip.st != .off && s.chip.st != .reset) (fun c => c.repeatReports p)

/-- `MC_QUERY` (R143): An IGMP or MLD query is answered for the groups in the table. -/
def execMcQuery (p : PortIx) (q : McQuery) (s : State) : Result :=
  s.when (.mcQuery p q) (s.chip.st != .off && s.chip.st != .reset && s.chip.power.imageRunning && s.chip.linkUp p)
    (fun c => c.answerQuery p q)

/-- `STATS_COUNTER_READ` (R144): Reading a counter's low word returns it, clears it and snapshots the high word. -/
def execStatsCounterRead (addr : Nat) (s : State) : Result :=
  s.act (.statsCounterRead addr) (fun c => c.readCounter addr)

/-- `WAKE_MATCH` (R148): A frame in Dormant matches an enabled wake pattern, and the device moves to Boot. -/
def execWakeMatch (frame : List Byte) (fcsOk : Bool) (s : State) : Result :=
  s.act (.wakeMatch frame fcsOk) (fun c => c.wakeFrame frame fcsOk)

end Sys2Proof.Machine
end

