-- ==== Sys2Proof/Machine/StreamCmds.lean ====
section
/-!
DEFINITION. The commands of streams and the bridge (R165 to R188, R396 to R405).
-/

namespace Sys2Proof.Machine

open Sys2Proof

/-- `SACN_SYNC_TIMEOUT` (R167): No synchronization packet arrives within 2.5 s, so data packets are used on arrival. -/
def execSacnSyncTimeout (x : Fin 512) (s : State) : Result :=
  s.when (.sacnSyncTimeout x) (s.chip.ingests) (fun c => c.syncTimeout x.val)

/-- `SACN_SOURCE_TIMEOUT` (R165): A followed sACN source sends nothing for SRC_TIMEOUT and leaves. -/
def execSacnSourceTimeout (x : Fin 512) (cid : Nat) (s : State) : Result :=
  s.when (.sacnSourceTimeout x cid) (s.chip.ingests) (fun c => c.sourceTimeout x.val cid)

/-- `SOURCE_LOST` (R187): SRC_TIMEOUT passes with no accepted packet, and the context enters SOURCE_LOST. -/
def execSourceLost (x : Fin 512) (s : State) : Result :=
  s.when (.sourceLost x) (s.chip.ingests) (fun c => c.sourceLost x.val)

/-- `P0_ACTIVE_TIMEOUT` (R188): SRC_TIMEOUT passes with no packet from one path of a context, so that path's
P0_ACTIVE or P1_ACTIVE falls to 0. -/
def execP0ActiveTimeout (x : Fin 512) (p : PortIx) (s : State) : Result :=
  s.when (.p0ActiveTimeout x p) (s.chip.ingests && s.chip.ctxActs x.val) (fun c => c.pathInactive x.val p)

/-- `DMX_RX_PACKET` (R398): An input DMX port receives a packet and passes it to its context, or discards it. -/
def execDmxRxPacket (p : Fin 4) (breakShort framing : Bool) (startCode : Nat) (slots : List Byte) (s : State) : Result :=
  s.when (.dmxRxPacket p breakShort framing startCode slots) (s.chip.ingests)
    (fun c => c.dmxReceive p.val breakShort framing startCode slots)

/-- `DMX_SEND_INSTANT` (R397): An output DMX port starts a packet from its output buffer. -/
def execDmxSendInstant (p : Fin 4) (s : State) : Result :=
  s.when (.dmxSendInstant p) (s.chip.ingests) (fun c => c.dmxSend p.val)

/-- `RDM_RESPONSE` (R402): An RDM response arrives, or its 2.8 ms wait expires. -/
def execRdmResponse (p : Fin 4) (resp : RdmResp) (s : State) : Result :=
  s.when (.rdmResponse p resp) (s.chip.ingests) (fun c => c.rdmResponse p.val resp)

/-- `ACK_TIMER_WAIT_END` (R405): The responder's ACK_TIMER wait ends, and GET QUEUED_MESSAGE is sent. -/
def execAckTimerWaitEnd (p : Fin 4) (s : State) : Result :=
  s.when (.ackTimerWaitEnd p) (s.chip.ingests) (fun c => c.ackTimerEnd p.val)

/-- `SEM_EXPIRED` (R404): A semaphore lease expires and releases the port's semaphore. -/
def execSemExpired (p : Fin 4) (s : State) : Result :=
  s.when (.semExpired p) (s.chip.ingests) (fun c => c.semExpired s.nv p.val)

/-- `SEM_TIMEOUT` (R404): A waiting RDM request exceeds SEM_WAIT. -/
def execSemTimeout (p : Fin 4) (s : State) : Result :=
  s.when (.semTimeout p) (s.chip.ingests) (fun c => c.semTimeout s.nv p.val)

/-- `BRIDGE_RESULT` (R405): An RDM transaction ends and its final BRIDGE_RESULT is sent. -/
def execBridgeResult (p : Fin 4) (s : State) : Result :=
  s.when (.bridgeResult p) (s.chip.ingests) (fun c => c.bridgeResult s.nv p.val)

end Sys2Proof.Machine
end

