-- ==== Sys2Proof/Machine/SelulCmds.lean ====
section
/-!
DEFINITION. The commands of the control plane: packets, the host port, the opcodes, and what follows from transactions (R334 to
R368).
-/

namespace Sys2Proof.Machine

open Sys2Proof

/-- `SELUL_PACKET` (R342): A Selul packet arrives and passes the acceptance checks into the command queue, or is
refused. -/
def execSelulPacket (p : PortIx) (ip : IpHdr) (bytes : List Byte) (s : State) : Result :=
  s.when (.selulPacket p ip bytes) (s.chip.awake && s.chip.power.portsUp) (fun c => c.selulPacket s.nv p ip bytes)

/-- `BROADCAST_REPLY` (R347): A delayed reply to a NODE 0xFFFF command is sent. -/
def execBroadcastReply (s : State) : Result := s.when .broadcastReply (s.chip.awake) (fun c => c.broadcastReply s.nv)

/-- `HQ_PUT` (R335): A host-port transaction delivers one Selul packet. -/
def execHqPut (bytes : List Byte) (s : State) : Result := s.act (.hqPut bytes) (fun c => c.hqPut s.nv bytes)

/-- `HQ_GET` (R336): A host-port transaction reads, and on completion removes, the oldest host reply. -/
def execHqGet (n : Nat) (s : State) : Result := s.act (.hqGet n) (fun c => c.hqGet n)

/-- `HQ_STAT` (R335): A host-port transaction returns the status byte and clears HQ_OVERRUN. -/
def execHqStat (s : State) : Result := s.act .hqStat (fun c => c.hqStat)

/-- `PING` (R362): PING echoes its payload. -/
def execPing (cmd : Cmd) (s : State) : Result :=
  s.act (.ping cmd) (fun c => c.opRow (s.env []) ⟨0x0001, none, 0⟩ true cmd)

/-- `IDENTIFY` (R363): IDENTIFY returns the identity record. -/
def execIdentify (cmd : Cmd) (s : State) : Result :=
  s.act (.identify cmd) (fun c => c.opRow (s.env []) ⟨0x0002, none, 0⟩ true cmd)

/-- `READ` (R352): READ returns configuration or SRAM window words. -/
def execRead (cmd : Cmd) (poisoned : List Nat) (s : State) : Result :=
  s.act (.read cmd poisoned) (fun c => c.opRow (s.env poisoned) ⟨0x0010, none, 0⟩ true cmd)

/-- `WRITE` (R353): WRITE checks and applies, or stages, words. -/
def execWrite (cmd : Cmd) (s : State) : Result :=
  s.act (.write cmd) (fun c => c.opRow (s.env []) ⟨0x0011, none, 0⟩ true cmd)

/-- `WRITE_MASKED` (R352): WRITE_MASKED writes the masked bits of each word. -/
def execWriteMasked (cmd : Cmd) (s : State) : Result :=
  s.act (.writeMasked cmd) (fun c => c.opRow (s.env []) ⟨0x0012, none, 0⟩ true cmd)

/-- `REGISTER_WRITE` (R5): A write takes effect in a register field that has no row of its own, by its class. -/
def execRegisterWrite (addr : Nat) (mask value : BitVec 32) (s : State) : Result :=
  s.act (.registerWrite addr mask value) (fun c => c.writeField s.nv addr mask.toNat value.toNat)

/-- `TXN_BEGIN` (R355): TXN_BEGIN opens a transaction. -/
def execTxnBegin (cmd : Cmd) (s : State) : Result :=
  s.act (.txnBegin cmd) (fun c => c.opRow (s.env []) ⟨0x0020, none, 0⟩ true cmd)

/-- `TXN_COMMIT` (R358): TXN_COMMIT checks and commits a transaction, or schedules it. -/
def execTxnCommit (cmd : Cmd) (s : State) : Result :=
  s.act (.txnCommit cmd) (fun c => c.opRow (s.env []) ⟨0x0021, none, 0⟩ true cmd)

/-- `TXN_ROLLBACK` (R361): TXN_ROLLBACK closes a transaction unapplied. -/
def execTxnRollback (cmd : Cmd) (s : State) : Result :=
  s.act (.txnRollback cmd) (fun c => c.opRow (s.env []) ⟨0x0022, none, 0⟩ true cmd)

/-- `TXN_STATUS` (R355): TXN_STATUS reports a transaction's state. -/
def execTxnStatus (cmd : Cmd) (s : State) : Result :=
  s.act (.txnStatus cmd) (fun c => c.opRow (s.env []) ⟨0x0023, none, 0⟩ true cmd)

/-- `TXN_DUE` (R359): A scheduled transaction reaches G and is rechecked and committed, or refused. -/
def execTxnDue (id : Nat) (s : State) : Result := s.when (.txnDue id) (s.chip.timed) (fun c => c.txnDue s.nv id)

/-- `TXN_TIMEOUT` (R361): An open transaction idle for 10 s is rolled back. -/
def execTxnTimeout (id : Nat) (s : State) : Result :=
  s.when (.txnTimeout id) (s.chip.timed) (fun c => c.txnTimeout s.nv id)

/-- `BULK_LOAD` (R215): BULK_LOAD writes calibration or still slot data. -/
def execBulkLoad (cmd : Cmd) (s : State) : Result :=
  s.act (.bulkLoad cmd) (fun c => c.opRow (s.env []) ⟨0x0030, none, 0⟩ true cmd)

/-- `STATS_READ` (R362): STATS_READ returns a counter block snapshot, clearing it unless PEEK is set. -/
def execStatsRead (cmd : Cmd) (s : State) : Result :=
  s.act (.statsRead cmd) (fun c => c.opRow (s.env []) ⟨0x0040, none, 0⟩ true cmd)

/-- `EVENT_FETCH` (R366): EVENT_FETCH removes and returns events in priority order. -/
def execEventFetch (x : Fetch) (s : State) : Result :=
  s.act (.eventFetch x) (fun c => c.opRow (s.env x.poisoned) ⟨0x0050, none, 0⟩ true x.cmd)

/-- `EVENT_ACK` (R366): EVENT_ACK removes a named event. -/
def execEventAck (cmd : Cmd) (s : State) : Result :=
  s.act (.eventAck cmd) (fun c => c.opRow (s.env []) ⟨0x0051, none, 0⟩ true cmd)

/-- `TRACE_READ` (R249): TRACE_READ returns and removes trace entries. -/
def execTraceRead (x : Fetch) (s : State) : Result :=
  s.act (.traceRead x) (fun c => c.opRow (s.env x.poisoned) ⟨0x00B0, none, 0⟩ true x.cmd)

/-- `GATE_QUIESCE` (R454): GATE with the quiesce action quiesces a unit within 2 µs, or returns BUSY. -/
def execGateQuiesce (cmd : Cmd) (done : Bool) (s : State) : Result :=
  s.act (.gateQuiesce cmd done) (fun c => c.opRow (s.env []) ⟨0x00C0, some 0x00, 1⟩ done cmd)

/-- `GATE_RESUME` (R456): GATE with the resume action resumes a quiesced unit. -/
def execGateResume (cmd : Cmd) (s : State) : Result :=
  s.act (.gateResume cmd) (fun c => c.opRow (s.env []) ⟨0x00C0, some 0x01, 1⟩ true cmd)

/-- `RESET` (R365): RESET replies and then resets with reset cause COMMAND. -/
def execReset (cmd : Cmd) (s : State) : Result :=
  s.act (.reset cmd) (fun c => c.opRow (s.env []) ⟨0x00D0, none, 0⟩ true cmd)

/-- `COMMAND_ACTION_START` (R365): A RESET, DORMANT, activation or revert begins once its reply's last byte has left
the ball. -/
def execCommandActionStart (s : State) : Result :=
  s.when .commandActionStart (s.chip.awake) (fun c => c.actionStart s.nv)

/-- `DORMANT` (R516): DORMANT replies and then enters Dormant. -/
def execDormant (cmd : Cmd) (s : State) : Result :=
  s.act (.dormant cmd) (fun c => c.opRow (s.env []) ⟨0x00E0, none, 0⟩ true cmd)

/-- `START` (R369): A write of 1 to START moves Stopped to Running, subject to the planner rule. -/
def execStart (s : State) : Result := s.act .start (fun c => c.writeOne s.nv ID_STATE_CTRL.START)

/-- `STOP` (R369): A write of 1 to STOP moves Running to Stopped. -/
def execStop (s : State) : Result := s.act .stop (fun c => c.writeOne s.nv ID_STATE_CTRL.STOP)

end Sys2Proof.Machine
end

