-- ==== Sys2Proof/Machine/FirmwareCmds.lean ====
section
/-!
DEFINITION. The commands of firmware update, the life-cycle and self-calibration (R466 to R499).
-/

namespace Sys2Proof.Machine

open Sys2Proof

/-- `FW_BLOCK` (R468): FW_BLOCK writes image data into the inactive slot. -/
def execFwBlock (cmd : Cmd) (s : State) : Result :=
  s.act (.fwBlock cmd) (fun c => c.opRow (s.env []) ⟨0x0070, none, 0⟩ true cmd)

/-- `BLOCK_BAD` (R469): A complete block fails its SHA-256. -/
def execBlockBad (block : Nat) (s : State) : Result :=
  s.when (.blockBad block) (s.chip.awake) (fun c => c.blockBad s.nv block)

/-- `FW_VERIFY` (R470): FW_VERIFY answers PENDING and starts verification of the inactive slot. -/
def execFwVerify (cmd : Cmd) (s : State) : Result :=
  s.act (.fwVerify cmd) (fun c => c.opRow (s.env []) ⟨0x0071, none, 0⟩ true cmd)

/-- `VERIFY_DONE` (R470): Verification ends and the final reply carries the result code. -/
def execVerifyDone (s : State) : Result := s.when .verifyDone (s.chip.awake) (fun c => c.verifyDone s.nv)

/-- `FW_ACTIVATE` (R473): FW_ACTIVATE begins or schedules activation. -/
def execFwActivate (cmd : Cmd) (s : State) : Result :=
  s.act (.fwActivate cmd) (fun c => c.opRow (s.env []) ⟨0x0072, none, 0⟩ true cmd)

/-- `ACTIVATION_START` (R474): A scheduled activation begins at its boundary: Updating, settings copy, selector and
reset. -/
def execActivationStart (s : State) : Result :=
  s.when .activationStart (s.chip.awake) (fun c => c.activationStart s.nv)

/-- `ACT_CANCEL` (R473): A write of 1 to ACT_CANCEL removes a scheduled activation. -/
def execActCancel (s : State) : Result := s.act .actCancel (fun c => c.writeOne s.nv FWU_CTRL.ACT_CANCEL)

/-- `FW_REVERT` (R478): FW_REVERT makes the other slot PRIMARY and resets. -/
def execFwRevert (cmd : Cmd) (s : State) : Result :=
  s.act (.fwRevert cmd) (fun c => c.opRow (s.env []) ⟨0x0073, none, 0⟩ true cmd)

/-- `SAVE` (R476): A write of 1 to SAVE starts writing the settings slot. -/
def execSave (s : State) : Result := s.act .save (fun c => c.writeOne s.nv FWU_CTRL.SAVE)

/-- `SAVE_DONE` (R476): A settings save completes, or fails with SAVE_FAIL. -/
def execSaveDone (good : Bool) (s : State) : Result :=
  s.when (.saveDone good) (s.chip.awake) (fun c => c.saveDone s.nv good)

/-- `LC_STATUS` (R481): LIFECYCLE STATUS reports the life-cycle state. -/
def execLcStatus (cmd : Cmd) (s : State) : Result :=
  s.act (.lcStatus cmd) (fun c => c.opRow (s.env []) ⟨0x00A0, some 0x01, 0⟩ true cmd)

/-- `LC_OPEN` (R481): LIFECYCLE OPEN moves Blank to Field-Open. -/
def execLcOpen (cmd : Cmd) (s : State) : Result :=
  s.act (.lcOpen cmd) (fun c => c.opRow (s.env []) ⟨0x00A0, some 0x02, 0⟩ true cmd)

/-- `LC_SEAL` (R481): LIFECYCLE SEAL moves to Field-Sealed and pins the profile. -/
def execLcSeal (cmd : Cmd) (s : State) : Result :=
  s.act (.lcSeal cmd) (fun c => c.opRow (s.env []) ⟨0x00A0, some 0x03, 0⟩ true cmd)

/-- `LC_PIN` (R481): LIFECYCLE PIN pins the current profile. -/
def execLcPin (cmd : Cmd) (s : State) : Result :=
  s.act (.lcPin cmd) (fun c => c.opRow (s.env []) ⟨0x00A0, some 0x04, 0⟩ true cmd)

/-- `RAISE_FLOOR` (R481): LIFECYCLE RAISE_FLOOR raises the security floor. -/
def execRaiseFloor (cmd : Cmd) (s : State) : Result :=
  s.act (.raiseFloor cmd) (fun c => c.opRow (s.env []) ⟨0x00A0, some 0x05, 0⟩ true cmd)

/-- `CONSENT` (R481): LIFECYCLE CONSENT arms a return for 600 s and returns a nonce. -/
def execConsent (cmd : Cmd) (s : State) : Result :=
  s.act (.consent cmd) (fun c => c.opRow (s.env []) ⟨0x00A0, some 0x06, 0⟩ true cmd)

/-- `CONSENT_EXPIRY` (R482): An armed return expires after 600 s. -/
def execConsentExpiry (s : State) : Result := s.when .consentExpiry (s.chip.awake) (fun c => c.disarm)

/-- `LC_RETURN` (R482): LIFECYCLE RETURN with a valid token moves to Returned. -/
def execLcReturn (cmd : Cmd) (s : State) : Result :=
  s.act (.lcReturn cmd) (fun c => c.opRow (s.env []) ⟨0x00A0, some 0x07, 0⟩ true cmd)

/-- `REBLANK` (R482): LIFECYCLE REBLANK with a valid token moves to Blank. -/
def execReblank (cmd : Cmd) (s : State) : Result :=
  s.act (.reblank cmd) (fun c => c.opRow (s.env []) ⟨0x00A0, some 0x08, 0⟩ true cmd)

/-- `DECOMMISSION` (R481): LIFECYCLE DECOMMISSION moves to Decommissioned. -/
def execDecommission (cmd : Cmd) (s : State) : Result :=
  s.act (.decommission cmd) (fun c => c.opRow (s.env []) ⟨0x00A0, some 0x09, 0⟩ true cmd)

/-- `SET_KEY` (R364): LIFECYCLE SET_KEY writes a key slot. -/
def execSetKey (cmd : Cmd) (s : State) : Result :=
  s.act (.setKey cmd) (fun c => c.opRow (s.env []) ⟨0x00A0, some 0x20, 0⟩ true cmd)

/-- `CLEAR_KEY` (R364): LIFECYCLE CLEAR_KEY empties a key slot. -/
def execClearKey (cmd : Cmd) (s : State) : Result :=
  s.act (.clearKey cmd) (fun c => c.opRow (s.env []) ⟨0x00A0, some 0x21, 0⟩ true cmd)

/-- `CAL_RUN` (R491): CAL_RUN answers PENDING and starts a calibration run. -/
def execCalRun (cmd : Cmd) (s : State) : Result :=
  s.act (.calRun cmd) (fun c => c.opRow (s.env []) ⟨0x0080, none, 0⟩ true cmd)

/-- `CAL_TRIGGER` (R490): A temperature change or PERIOD_MIN starts an automatic calibration run. -/
def execCalTrigger (trigger : Nat) (s : State) : Result :=
  s.when (.calTrigger trigger) (s.chip.timed) (fun c => c.calTrigger trigger)

/-- `CAL_ITEM_DONE` (R495): A calibration item completes and is judged, then applied or refused. -/
def execCalItemDone (o : CalOutcome) (s : State) : Result :=
  s.when (.calItemDone o) (s.chip.timed) (fun c => c.calItemDone o)

/-- `CAL_DONE` (R497): A calibration run ends and may store a temperature set. -/
def execCalDone (s : State) : Result := s.when .calDone (s.chip.timed) (fun c => c.calDone s.nv)

/-- `DESKEW_STEP` (R493): A LANE_DESKEW quad step runs in a readback window. -/
def execDeskewStep (quad : Nat) (taps : List (Nat × Int)) (s : State) : Result :=
  s.when (.deskewStep quad taps) (s.chip.timed) (fun c => c.deskewStep quad taps)

/-- `DESKEW_NO_WINDOW` (R493): 10 s pass with quads untaken, and LANE_DESKEW fails. -/
def execDeskewNoWindow (s : State) : Result := s.when .deskewNoWindow (s.chip.timed) (fun c => c.deskewNoWindow)

/-- `CAL_INTERPOLATE` (R498): Every 100 ms the stored sets are interpolated at the die temperature. -/
def execCalInterpolate (t : Int) (s : State) : Result :=
  s.when (.calInterpolate t) (s.chip.timed) (fun c => c.calInterpolate t)

/-- `CAL_SET_READ` (R499): Reading word 0 of CAL_SETk snapshots the set. -/
def execCalSetRead (k : Fin 8) (s : State) : Result :=
  s.act (.calSetRead k) (fun c => c.readRow (0xF0100 + 32 * k.val))

end Sys2Proof.Machine
end

