-- ==== Sys2Proof/Machine/BridgeCmds.lean ====
section
/-!
DEFINITION. The commands of the bridge as opcodes, and of the gang (R371 to R410).
-/

namespace Sys2Proof.Machine

open Sys2Proof

/-- `BRIDGE_REQ` (R403): BRIDGE_REQ answers PENDING and queues an RDM or semaphore request. -/
def execBridgeReq (cmd : Cmd) (s : State) : Result :=
  s.act (.bridgeReq cmd) (fun c => c.opRow (s.env []) ⟨0x0090, none, 0⟩ true cmd)

/-- `BRIDGE_RESULT_COMMAND` (R362): BRIDGE_RESULT sent as a command returns BAD_OPCODE. -/
def execBridgeResultCommand (cmd : Cmd) (s : State) : Result :=
  s.act (.bridgeResultCommand cmd) (fun c => c.opRow (s.env []) ⟨0x0091, none, 0⟩ true cmd)

/-- `POLL` (R382): Every POLL_CYCLE_MS the apex sends POLL and decides the member table. -/
def execPoll (s : State) : Result := s.when .poll (s.chip.timed && s.chip.power.portsUp) (fun c => c.poll s.nv)

/-- `POLL_RECEIVED` (R382): A member receives POLL and schedules its STATUS. -/
def execPollReceived (bytes : List Byte) (s : State) : Result :=
  s.when (.pollReceived bytes) (s.chip.timed && s.chip.power.portsUp) (fun c => c.pollReceived s.nv bytes)

/-- `STATUS_SEND` (R382): A member sends STATUS GANG_ADDR × 50 µs after POLL. -/
def execStatusSend (s : State) : Result :=
  s.when .statusSend (s.chip.timed && s.chip.power.portsUp) (fun c => c.statusSend s.nv)

/-- `STATUS_RECEIVED` (R383): The apex records a member's STATUS. -/
def execStatusReceived (bytes : List Byte) (s : State) : Result :=
  s.when (.statusReceived bytes) (s.chip.timed && s.chip.power.portsUp) (fun c => c.statusReceived s.nv bytes)

/-- `APEX_LOST` (R379): No POLL for MISS_LIMIT cycles, so the device judges the apex lost. -/
def execApexLost (s : State) : Result := s.when .apexLost (s.chip.timed && s.chip.power.portsUp) (fun c => c.apexLost)

/-- `CLAIM_SEND` (R379): After the back-off, a candidate sends CLAIM with gang epoch E + 1. -/
def execClaimSend (s : State) : Result :=
  s.when .claimSend (s.chip.timed && s.chip.power.portsUp) (fun c => c.claimSend s.nv)

/-- `CLAIM_RECEIVED` (R380): A claim or poll of another gang epoch or rank is resolved. -/
def execClaimReceived (bytes : List Byte) (s : State) : Result :=
  s.when (.claimReceived bytes) (s.chip.timed && s.chip.power.portsUp) (fun c => c.claimReceived s.nv bytes)

/-- `APEX_CHANGE` (R380): A claimant hears no better claim for 2 cycles and becomes apex. -/
def execApexChange (s : State) : Result :=
  s.when .apexChange (s.chip.timed && s.chip.power.portsUp) (fun c => c.apexChange)

/-- `RELAY_RECEIVED` (R388): A member runs a RELAY and returns RELAY_REPLY. -/
def execRelayReceived (p : PortIx) (bytes : List Byte) (done : Bool) (poisoned : List Nat) (s : State) : Result :=
  s.when (.relayReceived p bytes done poisoned) (s.chip.timed && s.chip.power.portsUp)
    (fun c => c.relayReceived (s.env poisoned) p done bytes)

/-- `RELAY_REPLY_RECEIVED` (R389): The apex forms the final reply from a RELAY_REPLY. -/
def execRelayReplyReceived (bytes : List Byte) (s : State) : Result :=
  s.when (.relayReplyReceived bytes) (s.chip.timed && s.chip.power.portsUp) (fun c => c.relayReplyReceived s.nv bytes)

/-- `RELAY_TIMEOUT` (R388): An unanswered RELAY is resent, or fails after LINK_TRIES. -/
def execRelayTimeout (gseq : Nat) (s : State) : Result :=
  s.when (.relayTimeout gseq) (s.chip.timed && s.chip.power.portsUp) (fun c => c.relayTimeout s.nv gseq)

/-- `SIGNAL_RECEIVED` (R386): The apex ACKs a SIGNAL and delivers it in GSEQ order. -/
def execSignalReceived (bytes : List Byte) (s : State) : Result :=
  s.when (.signalReceived bytes) (s.chip.timed && s.chip.power.portsUp) (fun c => c.signalReceived s.nv bytes)

/-- `ACK_RECEIVED` (R385): A member receives ACK for a SIGNAL. -/
def execAckReceived (bytes : List Byte) (s : State) : Result :=
  s.when (.ackReceived bytes) (s.chip.timed && s.chip.power.portsUp) (fun c => c.ackReceived s.nv bytes)

/-- `SIGNAL_RESEND` (R385): An unacknowledged SIGNAL is resent every RELAY_TIMEOUT. -/
def execSignalResend (gseq : Nat) (s : State) : Result :=
  s.when (.signalResend gseq) (s.chip.timed && s.chip.power.portsUp) (fun c => c.signalResend gseq)

/-- `FORGET` (R409): A write of 1 to FORGET removes silent addresses. -/
def execForget (s : State) : Result := s.act .forget (fun c => c.writeOne s.nv GNG_CTRL.FORGET)

/-- `GANG_MEMBER_READ` (R410): Reading word 0 of GNG_MEMBERm snapshots the member record. -/
def execGangMemberRead (m : Fin 64) (s : State) : Result :=
  s.act (.gangMemberRead m) (fun c => c.readRow (0xB0100 + 16 * m.val))

/-- `WR` (R406): Profile 0 WR writes emulated registers. -/
def execWr (addr : Nat) (words : List Nat) (s : State) : Result :=
  s.act (.wr addr words) (fun c => c.emulWr s.nv addr words)

/-- `RD` (R406): Profile 0 RD reads emulated registers. -/
def execRd (addr n : Nat) (s : State) : Result := s.act (.rd addr n) (fun c => c.emulRd addr n)

/-- `STAT` (R406): Profile 0 STAT returns the status byte. -/
def execStat (s : State) : Result := s.act .stat (fun c => c.emulStat)

/-- `MSG` (R408): Profile 0 MSG returns and removes one message. -/
def execMsg (n : Nat) (s : State) : Result := s.act (.msg n) (fun c => c.emulMsg n)

/-- `BLK` (R406): Profile 0 BLK loads SRAM window data. -/
def execBlk (addr : Nat) (data : List Byte) (s : State) : Result :=
  s.act (.blk addr data) (fun c => c.emulBlk s.nv addr data)

/-- `SEL` (R406): Profile 0 SEL selects the gang address. -/
def execSel (a : Nat) (s : State) : Result := s.act (.sel a) (fun c => c.emulSel a)

/-- `RST` (R406): Profile 0 RST resets when HQ_CS_N rises. -/
def execRst (s : State) : Result := s.act .rst (fun c => c.emulRst)

end Sys2Proof.Machine
end

