-- ==== Sys2Proof/Machine/PairCmds.lean ====
section
/-!
DEFINITION. The commands of the director pair (R416 to R434).
-/

namespace Sys2Proof.Machine

open Sys2Proof

/-- `HEARTBEAT_SEND` (R419): Every HB_MS a unit sends HEARTBEAT. -/
def execHeartbeatSend (s : State) : Result :=
  s.when .heartbeatSend (s.chip.timed && s.chip.power.portsUp) (fun c => c.heartbeatSend s.nv)

/-- `HEARTBEAT_RECEIVED` (R419): A heartbeat from the peer is counted. -/
def execHeartbeatReceived (bytes : List Byte) (s : State) : Result :=
  s.when (.heartbeatReceived bytes) (s.chip.timed && s.chip.power.portsUp) (fun c => c.heartbeatReceived s.nv bytes)

/-- `HB_MISS` (R419): HB_MS passes without a heartbeat; at HB_MISS the peer is lost. -/
def execHbMiss (s : State) : Result :=
  s.when .hbMiss (s.chip.timed && s.chip.power.portsUp) (fun c => c.hbMissed s.nv)

/-- `PAIR_START_LISTEN_END` (R420): A starting unit's listen ends, and it becomes standby or takes over. -/
def execPairStartListenEnd (s : State) : Result :=
  s.when .pairStartListenEnd (s.chip.timed && s.chip.power.portsUp) (fun c => c.listenEnd s.nv)

/-- `SNAPSHOT_SEND` (R424): SNAP_MS or SNAP_JOURNAL entries start a snapshot. -/
def execSnapshotSend (s : State) : Result :=
  s.when .snapshotSend (s.chip.timed && s.chip.power.portsUp) (fun c => c.snapshotSend s.nv)

/-- `SNAP_PART_RECEIVED` (R426): A standby takes a snapshot part and applies a complete snapshot. -/
def execSnapPartReceived (bytes : List Byte) (s : State) : Result :=
  s.when (.snapPartReceived bytes) (s.chip.timed && s.chip.power.portsUp) (fun c => c.snapPart s.nv bytes)

/-- `JOURNAL_RECEIVED` (R426): A standby stores a journal entry. -/
def execJournalReceived (bytes : List Byte) (s : State) : Result :=
  s.when (.journalReceived bytes) (s.chip.timed && s.chip.power.portsUp) (fun c => c.journalReceived s.nv bytes)

/-- `JOURNAL_ISSUE` (R425): A transaction's members have replied, so the active journals it. -/
def execJournalIssue (record : List Byte) (s : State) : Result :=
  s.when (.journalIssue record) (s.chip.timed && s.chip.power.portsUp) (fun c => c.journalIssue s.nv record)

/-- `PAIR_ACK_RECEIVED` (R425): The active records the standby's ACK. -/
def execPairAckReceived (bytes : List Byte) (s : State) : Result :=
  s.when (.pairAckReceived bytes) (s.chip.timed && s.chip.power.portsUp) (fun c => c.pairAckReceived s.nv bytes)

/-- `SWAP_NOW` (R428): A write of 1 to SWAP_NOW starts a controlled swap. -/
def execSwapNow (s : State) : Result := s.act .swapNow (fun c => c.writeOne s.nv RED_CTRL.SWAP_NOW)

/-- `SWAP_RECEIVED` (R428): The standby receives SWAP and becomes active. -/
def execSwapReceived (bytes : List Byte) (s : State) : Result :=
  s.when (.swapReceived bytes) (s.chip.timed && s.chip.power.portsUp) (fun c => c.swapReceived s.nv bytes)

/-- `SWAP_FAIL` (R428): The swap ACK does not arrive within 1 s. -/
def execSwapFail (s : State) : Result := s.when .swapFail (s.chip.timed && s.chip.power.portsUp) (fun c => c.swapFail)

/-- `SWAP_EVERY_TIMER` (R429): SWAP_EVERY hours pass, so a controlled swap starts. -/
def execSwapEveryTimer (s : State) : Result :=
  s.when .swapEveryTimer (s.chip.timed && s.chip.power.portsUp) (fun c => c.swapEvery s.nv)

/-- `ANNOUNCE_RECEIVED` (R433): An ANNOUNCE is adopted and its substitution entries applied. -/
def execAnnounceReceived (bytes : List Byte) (s : State) : Result :=
  s.when (.announceReceived bytes) (s.chip.timed && s.chip.power.portsUp) (fun c => c.announceReceived s.nv bytes)

/-- `ANNOUNCE_PERIODIC` (R432): The holder resends ANNOUNCE with valid entries every second. -/
def execAnnouncePeriodic (s : State) : Result :=
  s.when .announcePeriodic (s.chip.timed && s.chip.power.portsUp) (fun c => c.announcePeriodic s.nv)

/-- `REPROVISION` (R431): A write of 1 to REPROVISION moves Fenced to Stopped. -/
def execReprovision (s : State) : Result := s.act .reprovision (fun c => c.writeOne s.nv RED_CTRL.REPROVISION)

end Sys2Proof.Machine
end

