-- ==== Sys2Proof/Machine/ErrorCmds.lean ====
section
/-!
DEFINITION. The commands of error handling and of the boundary-scan port (R440 to R463, R538, R539).
-/

namespace Sys2Proof.Machine

open Sys2Proof

/-- `ERROR_DETECTED` (R440): An error is detected, logged and handled at its level. -/
def execErrorDetected (code unit detail : Nat) (s : State) : Result :=
  s.when (.errorDetected code unit detail) (s.chip.timed) (fun c => c.errorDetected code unit detail)

/-- `HANDLER_COMPLETE` (R446): A handler's containment completes and frees its slot. -/
def execHandlerComplete (level : Fin 4) (s : State) : Result :=
  s.when (.handlerComplete level) (s.chip.timed) (fun c => c.handlerComplete level.val)

/-- `HANDLER_TIMEOUT` (R446): A containment does not complete in time and passes up. -/
def execHandlerTimeout (level : Fin 4) (s : State) : Result :=
  s.when (.handlerTimeout level) (s.chip.timed) (fun c => c.handlerTimeout level.val)

/-- `LOG_CLEAR` (R463): A write of 1 to LOG_CLEAR empties the error log. -/
def execLogClear (s : State) : Result := s.act .logClear (fun c => c.writeOne s.nv ERR_CTRL.LOG_CLEAR)

/-- `LOG_POP` (R459): Reading word 0 of ERR_LOG_ENTRY pops the oldest log entry. -/
def execLogPop (s : State) : Result := s.act .logPop (fun c => c.readRow 0xD0010)

/-- `TCK_EDGE` (R538): An edge on TCK advances the IEEE 1149.1 TAP, which loads instructions and lets EXTEST, CLAMP
or HIGHZ take over the balls. -/
def execTckEdge (level tms tdi : Bool) (s : State) : Result :=
  if s.chip.st = .off ∨ s.chip.power.groupAGood = false ∨ level = s.tap.tck then .next s
  else
    let debug := debugOpen s.nv.lifecycle
    let (c, d) := s.chip.draw
    if level then .next { s with chip := c, tap := s.tap.rise debug d tms tdi }
    else .next { s with tap := s.tap.fall debug }

/-- `TRST_N_LOW` (R539): TRST_N going low puts the TAP in Test-Logic-Reset and returns the balls to the device. -/
def execTrstNLow (s : State) : Result := .next { s with tap := s.tap.toReset }

end Sys2Proof.Machine
end

