-- ==== Sys2Proof/Machine/Dispatch.lean ====
section
/-!
DEFINITION. The dispatch of a command to its meaning, one arm for each row of the opcode table.
-/

namespace Sys2Proof.Machine

open Sys2Proof

def exec (i : Instr) (s : State) : Host.Outcome State Fault Refusal :=
  match i with
  | .groupARailsGood => Sys2Proof.Machine.execGroupARailsGood s
  | .mainRailTimeout => Sys2Proof.Machine.execMainRailTimeout s
  | .railLost r => Sys2Proof.Machine.execRailLost r s
  | .pinReset => Sys2Proof.Machine.execPinReset s
  | .resetRelease straps banks testEn => Sys2Proof.Machine.execResetRelease straps banks testEn s
  | .imageStart records logOk => Sys2Proof.Machine.execImageStart records logOk s
  | .portsUp => Sys2Proof.Machine.execPortsUp s
  | .settingsApplied => Sys2Proof.Machine.execSettingsApplied s
  | .bootListenEnd => Sys2Proof.Machine.execBootListenEnd s
  | .watchdogExpiry ms => Sys2Proof.Machine.execWatchdogExpiry ms s
  | .xtalStall => Sys2Proof.Machine.execXtalStall s
  | .xtalGrossFreqTrip => Sys2Proof.Machine.execXtalGrossFreqTrip s
  | .p0Loss p => Sys2Proof.Machine.execP0Loss p s
  | .p0Freq p => Sys2Proof.Machine.execP0Freq p s
  | .xtalQualified => Sys2Proof.Machine.execXtalQualified s
  | .recoveredQualified p => Sys2Proof.Machine.execRecoveredQualified p s
  | .xtalQualFail => Sys2Proof.Machine.execXtalQualFail s
  | .waitXtalDeadline => Sys2Proof.Machine.execWaitXtalDeadline s
  | .pllLock => Sys2Proof.Machine.execPllLock s
  | .revertHoldExpiry => Sys2Proof.Machine.execRevertHoldExpiry s
  | .srcModeWrite mode => Sys2Proof.Machine.execSrcModeWrite mode s
  | .xtalRestart => Sys2Proof.Machine.execXtalRestart s
  | .fofsUpdate p ppb => Sys2Proof.Machine.execFofsUpdate p ppb s
  | .trimNow => Sys2Proof.Machine.execTrimNow s
  | .trimGateEnd refLost cycles => Sys2Proof.Machine.execTrimGateEnd refLost cycles s
  | .autoRetrim => Sys2Proof.Machine.execAutoRetrim s
  | .syncReceived m => Sys2Proof.Machine.execSyncReceived m s
  | .announceReceivedPtp a => Sys2Proof.Machine.execAnnounceReceivedPtp a s
  | .foreignMasterAgeout p sender => Sys2Proof.Machine.execForeignMasterAgeout p sender s
  | .delayReqReceived p requester seq frac10 => Sys2Proof.Machine.execDelayReqReceived p requester seq frac10 s
  | .pdelayExchange m => Sys2Proof.Machine.execPdelayExchange m s
  | .syncSend p frac10 => Sys2Proof.Machine.execSyncSend p frac10 s
  | .syncLoss => Sys2Proof.Machine.execSyncLoss s
  | .holdExpired => Sys2Proof.Machine.execHoldExpired s
  | .fsyncInEdge rising frac10 => Sys2Proof.Machine.execFsyncInEdge rising frac10 s
  | .fsyncMissLimit => Sys2Proof.Machine.execFsyncMissLimit s
  | .setGo => Sys2Proof.Machine.execSetGo s
  | .timNowRead => Sys2Proof.Machine.execTimNowRead s
  | .tsqPop => Sys2Proof.Machine.execTsqPop s
  | .capEdge n rising frac10 => Sys2Proof.Machine.execCapEdge n rising frac10 s
  | .capPop n => Sys2Proof.Machine.execCapPop n s
  | .trigArm n w => Sys2Proof.Machine.execTrigArm n w s
  | .trigFire n => Sys2Proof.Machine.execTrigFire n s
  | .trigPulseEnd n => Sys2Proof.Machine.execTrigPulseEnd n s
  | .frameBoundary n => Sys2Proof.Machine.execFrameBoundary n s
  | .freezePoint n => Sys2Proof.Machine.execFreezePoint n s
  | .zoneStale z => Sys2Proof.Machine.execZoneStale z s
  | .subframeEdge n k => Sys2Proof.Machine.execSubframeEdge n k s
  | .rowSlotStart n k r => Sys2Proof.Machine.execRowSlotStart n k r s
  | .stagingBufferFree n k => Sys2Proof.Machine.execStagingBufferFree n k s
  | .subframeRelease n k => Sys2Proof.Machine.execSubframeRelease n k s
  | .itemDeadline n k detect strip => Sys2Proof.Machine.execItemDeadline n k detect strip s
  | .coreRequest k => Sys2Proof.Machine.execCoreRequest k s
  | .itemRetire k poison => Sys2Proof.Machine.execItemRetire k poison s
  | .itemHang k => Sys2Proof.Machine.execItemHang k s
  | .peakClr => Sys2Proof.Machine.execPeakClr s
  | .trClear => Sys2Proof.Machine.execTrClear s
  | .tracePop => Sys2Proof.Machine.execTracePop s
  | .lockFrame n => Sys2Proof.Machine.execLockFrame n s
  | .detectionWindow n k h => Sys2Proof.Machine.execDetectionWindow n k h s
  | .readbackWindow n k => Sys2Proof.Machine.execReadbackWindow n k s
  | .readbackDone n k reads => Sys2Proof.Machine.execReadbackDone n k reads s
  | .cfgNow => Sys2Proof.Machine.execCfgNow s
  | .fmapClear => Sys2Proof.Machine.execFmapClear s
  | .fmapRead slot => Sys2Proof.Machine.execFmapRead slot s
  | .sensorPoll stuck0 stuck1 => Sys2Proof.Machine.execSensorPoll stuck0 stuck1 s
  | .sensorReadDone slot x => Sys2Proof.Machine.execSensorReadDone slot x s
  | .ntcConversion a code => Sys2Proof.Machine.execNtcConversion a code s
  | .rxFrame p h b => Sys2Proof.Machine.execRxFrame p h b s
  | .ringBufferRelease p k => Sys2Proof.Machine.execRingBufferRelease p k s
  | .wmHitClear p => Sys2Proof.Machine.execWmHitClear p s
  | .fwdStart p => Sys2Proof.Machine.execFwdStart p s
  | .egressIdle p => Sys2Proof.Machine.execEgressIdle p s
  | .localTxEnqueue p len => Sys2Proof.Machine.execLocalTxEnqueue p len s
  | .linkUpSeen x speed => Sys2Proof.Machine.execLinkUpSeen x speed s
  | .linkDown x => Sys2Proof.Machine.execLinkDown x s
  | .speedSearchTimeout x => Sys2Proof.Machine.execSpeedSearchTimeout x s
  | .modChange x absent best => Sys2Proof.Machine.execModChange x absent best s
  | .txFaultSeen x => Sys2Proof.Machine.execTxFaultSeen x s
  | .arpRequest p ip asker => Sys2Proof.Machine.execArpRequest p ip asker s
  | .mcReportRepeat p => Sys2Proof.Machine.execMcReportRepeat p s
  | .mcQuery p q => Sys2Proof.Machine.execMcQuery p q s
  | .statsCounterRead addr => Sys2Proof.Machine.execStatsCounterRead addr s
  | .wakeMatch frame fcsOk => Sys2Proof.Machine.execWakeMatch frame fcsOk s
  | .sacnSyncTimeout x => Sys2Proof.Machine.execSacnSyncTimeout x s
  | .sacnSourceTimeout x cid => Sys2Proof.Machine.execSacnSourceTimeout x cid s
  | .sourceLost x => Sys2Proof.Machine.execSourceLost x s
  | .dmxRxPacket p breakShort framing startCode slots => Sys2Proof.Machine.execDmxRxPacket p breakShort framing startCode slots s
  | .dmxSendInstant p => Sys2Proof.Machine.execDmxSendInstant p s
  | .rdmResponse p resp => Sys2Proof.Machine.execRdmResponse p resp s
  | .ackTimerWaitEnd p => Sys2Proof.Machine.execAckTimerWaitEnd p s
  | .semExpired p => Sys2Proof.Machine.execSemExpired p s
  | .semTimeout p => Sys2Proof.Machine.execSemTimeout p s
  | .selulPacket p ip bytes => Sys2Proof.Machine.execSelulPacket p ip bytes s
  | .broadcastReply => Sys2Proof.Machine.execBroadcastReply s
  | .hqPut bytes => Sys2Proof.Machine.execHqPut bytes s
  | .hqGet n => Sys2Proof.Machine.execHqGet n s
  | .hqStat => Sys2Proof.Machine.execHqStat s
  | .ping cmd => Sys2Proof.Machine.execPing cmd s
  | .identify cmd => Sys2Proof.Machine.execIdentify cmd s
  | .read cmd poisoned => Sys2Proof.Machine.execRead cmd poisoned s
  | .write cmd => Sys2Proof.Machine.execWrite cmd s
  | .writeMasked cmd => Sys2Proof.Machine.execWriteMasked cmd s
  | .registerWrite addr mask value => Sys2Proof.Machine.execRegisterWrite addr mask value s
  | .txnBegin cmd => Sys2Proof.Machine.execTxnBegin cmd s
  | .txnCommit cmd => Sys2Proof.Machine.execTxnCommit cmd s
  | .txnRollback cmd => Sys2Proof.Machine.execTxnRollback cmd s
  | .txnStatus cmd => Sys2Proof.Machine.execTxnStatus cmd s
  | .txnDue id => Sys2Proof.Machine.execTxnDue id s
  | .txnTimeout id => Sys2Proof.Machine.execTxnTimeout id s
  | .bulkLoad cmd => Sys2Proof.Machine.execBulkLoad cmd s
  | .statsRead cmd => Sys2Proof.Machine.execStatsRead cmd s
  | .eventFetch x => Sys2Proof.Machine.execEventFetch x s
  | .eventAck cmd => Sys2Proof.Machine.execEventAck cmd s
  | .traceRead x => Sys2Proof.Machine.execTraceRead x s
  | .gateQuiesce cmd done => Sys2Proof.Machine.execGateQuiesce cmd done s
  | .gateResume cmd => Sys2Proof.Machine.execGateResume cmd s
  | .reset cmd => Sys2Proof.Machine.execReset cmd s
  | .commandActionStart => Sys2Proof.Machine.execCommandActionStart s
  | .dormant cmd => Sys2Proof.Machine.execDormant cmd s
  | .start => Sys2Proof.Machine.execStart s
  | .stop => Sys2Proof.Machine.execStop s
  | .fwBlock cmd => Sys2Proof.Machine.execFwBlock cmd s
  | .blockBad block => Sys2Proof.Machine.execBlockBad block s
  | .fwVerify cmd => Sys2Proof.Machine.execFwVerify cmd s
  | .verifyDone => Sys2Proof.Machine.execVerifyDone s
  | .fwActivate cmd => Sys2Proof.Machine.execFwActivate cmd s
  | .activationStart => Sys2Proof.Machine.execActivationStart s
  | .actCancel => Sys2Proof.Machine.execActCancel s
  | .fwRevert cmd => Sys2Proof.Machine.execFwRevert cmd s
  | .save => Sys2Proof.Machine.execSave s
  | .saveDone good => Sys2Proof.Machine.execSaveDone good s
  | .lcStatus cmd => Sys2Proof.Machine.execLcStatus cmd s
  | .lcOpen cmd => Sys2Proof.Machine.execLcOpen cmd s
  | .lcSeal cmd => Sys2Proof.Machine.execLcSeal cmd s
  | .lcPin cmd => Sys2Proof.Machine.execLcPin cmd s
  | .raiseFloor cmd => Sys2Proof.Machine.execRaiseFloor cmd s
  | .consent cmd => Sys2Proof.Machine.execConsent cmd s
  | .consentExpiry => Sys2Proof.Machine.execConsentExpiry s
  | .lcReturn cmd => Sys2Proof.Machine.execLcReturn cmd s
  | .reblank cmd => Sys2Proof.Machine.execReblank cmd s
  | .decommission cmd => Sys2Proof.Machine.execDecommission cmd s
  | .setKey cmd => Sys2Proof.Machine.execSetKey cmd s
  | .clearKey cmd => Sys2Proof.Machine.execClearKey cmd s
  | .calRun cmd => Sys2Proof.Machine.execCalRun cmd s
  | .calTrigger trigger => Sys2Proof.Machine.execCalTrigger trigger s
  | .calItemDone o => Sys2Proof.Machine.execCalItemDone o s
  | .calDone => Sys2Proof.Machine.execCalDone s
  | .deskewStep quad taps => Sys2Proof.Machine.execDeskewStep quad taps s
  | .deskewNoWindow => Sys2Proof.Machine.execDeskewNoWindow s
  | .calInterpolate t => Sys2Proof.Machine.execCalInterpolate t s
  | .bridgeReq cmd => Sys2Proof.Machine.execBridgeReq cmd s
  | .bridgeResult p => Sys2Proof.Machine.execBridgeResult p s
  | .bridgeResultCommand cmd => Sys2Proof.Machine.execBridgeResultCommand cmd s
  | .poll => Sys2Proof.Machine.execPoll s
  | .pollReceived bytes => Sys2Proof.Machine.execPollReceived bytes s
  | .statusSend => Sys2Proof.Machine.execStatusSend s
  | .statusReceived bytes => Sys2Proof.Machine.execStatusReceived bytes s
  | .apexLost => Sys2Proof.Machine.execApexLost s
  | .claimSend => Sys2Proof.Machine.execClaimSend s
  | .claimReceived bytes => Sys2Proof.Machine.execClaimReceived bytes s
  | .apexChange => Sys2Proof.Machine.execApexChange s
  | .relayReceived p bytes done poisoned => Sys2Proof.Machine.execRelayReceived p bytes done poisoned s
  | .relayReplyReceived bytes => Sys2Proof.Machine.execRelayReplyReceived bytes s
  | .relayTimeout gseq => Sys2Proof.Machine.execRelayTimeout gseq s
  | .signalReceived bytes => Sys2Proof.Machine.execSignalReceived bytes s
  | .ackReceived bytes => Sys2Proof.Machine.execAckReceived bytes s
  | .signalResend gseq => Sys2Proof.Machine.execSignalResend gseq s
  | .forget => Sys2Proof.Machine.execForget s
  | .wr addr words => Sys2Proof.Machine.execWr addr words s
  | .rd addr n => Sys2Proof.Machine.execRd addr n s
  | .stat => Sys2Proof.Machine.execStat s
  | .msg n => Sys2Proof.Machine.execMsg n s
  | .blk addr data => Sys2Proof.Machine.execBlk addr data s
  | .sel a => Sys2Proof.Machine.execSel a s
  | .rst => Sys2Proof.Machine.execRst s
  | .heartbeatSend => Sys2Proof.Machine.execHeartbeatSend s
  | .heartbeatReceived bytes => Sys2Proof.Machine.execHeartbeatReceived bytes s
  | .hbMiss => Sys2Proof.Machine.execHbMiss s
  | .pairStartListenEnd => Sys2Proof.Machine.execPairStartListenEnd s
  | .snapshotSend => Sys2Proof.Machine.execSnapshotSend s
  | .snapPartReceived bytes => Sys2Proof.Machine.execSnapPartReceived bytes s
  | .journalReceived bytes => Sys2Proof.Machine.execJournalReceived bytes s
  | .journalIssue record => Sys2Proof.Machine.execJournalIssue record s
  | .pairAckReceived bytes => Sys2Proof.Machine.execPairAckReceived bytes s
  | .swapNow => Sys2Proof.Machine.execSwapNow s
  | .swapReceived bytes => Sys2Proof.Machine.execSwapReceived bytes s
  | .swapFail => Sys2Proof.Machine.execSwapFail s
  | .swapEveryTimer => Sys2Proof.Machine.execSwapEveryTimer s
  | .announceReceived bytes => Sys2Proof.Machine.execAnnounceReceived bytes s
  | .announcePeriodic => Sys2Proof.Machine.execAnnouncePeriodic s
  | .reprovision => Sys2Proof.Machine.execReprovision s
  | .errorDetected code unit detail => Sys2Proof.Machine.execErrorDetected code unit detail s
  | .handlerComplete level => Sys2Proof.Machine.execHandlerComplete level s
  | .handlerTimeout level => Sys2Proof.Machine.execHandlerTimeout level s
  | .logClear => Sys2Proof.Machine.execLogClear s
  | .logPop => Sys2Proof.Machine.execLogPop s
  | .gangMemberRead m => Sys2Proof.Machine.execGangMemberRead m s
  | .calSetRead k => Sys2Proof.Machine.execCalSetRead k s
  | .delayReqSend p frac10 => Sys2Proof.Machine.execDelayReqSend p frac10 s
  | .delayRespReceived p sender seq receipt correction => Sys2Proof.Machine.execDelayRespReceived p sender seq receipt correction s
  | .ptpAnnounceSend p => Sys2Proof.Machine.execPtpAnnounceSend p s
  | .p0ActiveTimeout x p => Sys2Proof.Machine.execP0ActiveTimeout x p s
  | .tckEdge level tms tdi => Sys2Proof.Machine.execTckEdge level tms tdi s
  | .trstNLow => Sys2Proof.Machine.execTrstNLow s

end Sys2Proof.Machine
end

