-- ==== Sys2Proof/Machine/Step.lean ====
section
/-!
DEFINITION. One step of the block: the command at the front of the queue takes place; once the queue is empty, the commands put
off at this instant; and while nothing waits, one tick of the timebase passes (log entry 1).
-/

namespace Sys2Proof.Machine

open Sys2Proof

/-- The outcome of a command put off, once it is taken. -/
def taken : Host.Outcome State Fault Refusal → Host.Outcome State Fault Refusal
  | .next t => .next { t with taking := false }
  | r => r

/-- Of the commands put off, the first whose turn it is takes place; should the rules put them all behind each other, the one
put off first (log entry 4). -/
def stepLate (s : State) : Host.Outcome State Fault Refusal :=
  match s.chip.pick [] s.late, s.late with
  | some (i, l), _ | none, i :: l => taken (exec i { s with late := l, taking := true })
  | none, [] => .next s.tick

/-- One step. Time passes only on an empty queue (DESIGN CHOICE, safe; log entry 1): commands in the queue happen at one instant
of C, in the order of the queue but for the pairs whose order a rule gives (R571). -/
def step (s : State) : Host.Outcome State Fault Refusal :=
  match s.pending with
  | [] => stepLate s
  | i :: rest => exec i { s with pending := rest }

/-- The state with the command that a table word spells at the front of its queue. No word spells one. -/
def State.withFetchWord (s : State) (nbits w : Nat) : State :=
  match decodeTableWord nbits w with
  | some i => { s with pending := i :: s.pending }
  | none => s

end Sys2Proof.Machine
end

