-- ==== Sys2Proof/Machine/Balls.lean ====
section
/-!
DEFINITION. The levels of the single-wire outputs (R112, R121, R337, R396, R508), and what a ball shows while boundary scan holds
it (R539). The outputs to the drivers stand in `Lines`.
-/

namespace Sys2Proof.Machine

open Sys2Proof

/-- What an output of the device shows at its ball: its own level, or nothing that the device gives, while an instruction of the
TAP withholds it (R539). -/
def State.shows (s : State) (b : Ball) : Option Ball :=
  match s.tap.balls with
  | .device => some b
  | .highZ => some .hiZ
  | .boundary => none

/-- Whether the 10 microseconds have passed in which the strap balls stay undriven after a reset release (R508). -/
def Chip.strapsFree (c : Chip) : Bool := c.timed && decide (8000 ≤ c.time.c.toNat)

def Chip.strapBall (c : Chip) (high : Bool) : Ball := if c.strapsFree then .driven high else .hiZ

/-- TRIGn (R112, R508). -/
def Chip.trigBall (c : Chip) (n : Nat) : Ball := c.strapBall (c.trigLevel n)

/-- The level of DMX512-A data at `t` bit times of 4 microseconds after the first start bit: a slot is a start bit, its 8 bits
from the lowest on, and two stop bits (R396). -/
def slotLevel (slots : List Nat) (t : Nat) : Bool :=
  match slots[t / 11]? with
  | none => true
  | some v => t % 11 != 0 && (t % 11 > 8 || v.testBit (t % 11 - 1))

/-- The microseconds since the break of the packet last started, where that began at its send instant (R397). -/
def Chip.sinceBreak (c : Chip) (p : Nat) : Option Nat :=
  let d := c.dmxPort p
  if c.dmxMode p ≠ 1 then none
  else match d.lastSend, d.delayed with
    | some t, false => some ((c.now - t) / usU).toNat
    | _, _ => none

/-- The length L of a packet in microseconds (R396). -/
def Chip.packetUs (c : Chip) (p : Nat) : Nat :=
  c.get (BRG_PORTp_TIME.BREAK_US p) + c.get (BRG_PORTp_TIME.MAB_US p) + 44 * (c.get (BRG_PORTp_CFG.SLOTS p) + 1)

/-- DMXp_TX: a break, a mark, the start code 0x00 and the slots, without gaps; high where nothing is sent (R396, R508). -/
def Chip.dmxTx (c : Chip) (p : Nat) : Ball :=
  let brk := c.get (BRG_PORTp_TIME.BREAK_US p)
  let mab := c.get (BRG_PORTp_TIME.MAB_US p)
  c.strapBall (match c.sinceBreak p with
    | none => true
    | some t => decide (brk ≤ t) && (decide (t < brk + mab) || slotLevel (0 :: (c.dmxPort p).sent) ((t - brk - mab) / 4)))

/-- DMXp_DE: high while a packet is sent, low on a port that is off or an input, and low while an RDM response is awaited.
Between packets the manual leaves the level of an output port open: a free value (R396, log entry 140). -/
def Chip.dmxDe (c : Chip) (p : Nat) : Ball :=
  let d := c.dmxPort p
  c.strapBall (decide (c.dmxMode p = 1) && (
    if (c.sinceBreak p).any (fun t => decide (t < c.packetUs p)) then true
    else if !d.runq.isEmpty && d.phase == .sent then false
    else Config.ballLevel c.freeCtr p))

/-- Pn_TX_DIS is never undriven (R121, R508). -/
def Chip.txDisBall (c : Chip) (p : PortIx) : Ball := .driven (c.txDis p)

/-- IRQ_N is driven low, or released (R337). -/
def Chip.irqBall (c : Chip) : Ball := if c.irqLow then .driven false else .hiZ

end Sys2Proof.Machine
end

