-- ==== Sys2Proof/Safety.lean ====
section
/-!
DEFINITION. What the claims say of a run: which outcome a step has, the canonical form of the memory, and the invariants
that steps keep.
-/

namespace Sys2Proof.Machine

/-- The state after an outcome, if it is a next state. -/
def nextOf : Host.Outcome State Fault Refusal → Option State
  | .next t => some t
  | .fault _ => none
  | .refused _ => none

/-- The canonical form of the two parts of the SRAM window (R569): keys rising, and no entry equal to what an unlisted
address reads as. -/
def State.memWf (s : State) : Bool := smWf calDefault s.cal && smWf sramDefault s.sram

/-- Nothing is owed to memory, flash or fuses between steps. -/
def State.settled (s : State) : Bool := s.chip.sramOps.isEmpty && s.chip.nvOps.isEmpty

/-- What every step keeps. -/
def State.inv (s : State) : Bool := s.memWf && s.settled

/-- A step from the state has a next state. -/
def safe (s : State) : Prop := ∃ t, step s = .next t

/-! What a command does. -/

/-- Whether no feed has a ring while the display is gone (R304). -/
def Chip.ringsRest (c : Chip) : Bool :=
  match c.scan.display with
  | .blank | .waitLock => (List.range 4).all (fun f => !(c.feed f).running)
  | _ => true

/-- Nothing further follows at once from an effect that leaves the chip so: no commit waits without a grid, no
transaction is scheduled, no ring is without a display, no command and no item waits, no calibration runs where none may, and
no event is to be signalled. -/
def Chip.quiet (c : Chip) : Bool :=
  (c.pend.isEmpty || c.timeValid) && c.sel.txns.all (fun t => t.state != .scheduled) && c.ringsRest
    && c.sel.cmdq.isEmpty && c.sched.items.isEmpty
    && (c.calib.run.isNone || c.mayCalibrate) && c.gang.toSignal.isEmpty

/-- The command `i` completes in the state `s` when its turn has come (R571): `exec` answers the next state that follows from
a chip for which `P` holds. `State.run` says what follows, and `RunOfAQuietChip` of the obligations that it is that chip
itself wherever nothing is left to follow. A command that waits alone is always in its turn (`turn_alone` of the laws), and
`EveryCommandCompletes` of the obligations says what becomes of one whose turn has not come. -/
def ends (i : Instr) (s : State) (P : Chip → Prop) : Prop := s.turn i = true → ∃ c, exec i s = .next (s.run c) ∧ P c

/-- Two chips differ at most in the registers at the addresses `ws`. -/
def Chip.sameRegsBut (c d : Chip) (ws : List Nat) : Prop := ∀ a, a ∉ ws → d.reg a = c.reg a

/-- Two chips differ at most in the counters at the addresses `ws`. -/
def Chip.sameCountersBut (c d : Chip) (ws : List Nat) : Prop := ∀ a, a ∉ ws → d.count a = c.count a

/-! Commands of the host. -/

/-- The command `cmd` comes from the host to an empty queue, in a state in which Selul runs; it wants a reply, which is not
delayed and which the reply queue has room for, and it is not a repeat. -/
def Chip.hostAsks (c : Chip) (cmd : Cmd) : Bool :=
  c.takesSelul && c.sel.cmdq.isEmpty && cmd.src == .host && !cmd.noReply && cmd.node != 0xFFFF
    && decide (c.sel.hostOut.length < 4) && (c.heldPlace cmd).isNone

/-- Beside what it holds in `c`, the host reply queue of `d` has the reply to `cmd`: its tag, its sequence number and its
opcode, with the status `st` and the payload `payload`. -/
def Chip.answered (c d : Chip) (cmd : Cmd) (st : Status) (payload : List Byte) : Prop :=
  d.answer.status = st ∧ ∃ q, d.sel.hostOut = c.sel.hostOut ++ [q] ∧ q.status = st ∧ q.tag = cmd.tag ∧ q.seq = cmd.seq ∧
    q.payload = payload

/-- In Stopped or Running the host sends a command with the opcode `op`, in the sense of `hostAsks`, under the device's own
epoch. It names no transaction that is not open or scheduled (R355); what becomes of one that does stands in
`PingIdentifyRead`. -/
def Chip.hostRuns (c : Chip) (cmd : Cmd) (op : Nat) : Bool :=
  (c.st == .stopped || c.st == .running) && c.hostAsks cmd && cmd.opcode == op && cmd.epoch == c.epoch
    && !c.namesUnknown cmd

/-! Messages of the gang and of the director pair (R374, R418). -/

/-- A gang message for the device `c`, as the sender at address `src` forms it under the gang's key. -/
def Chip.gangMsg (c : Chip) (nv : NonVol) (kind src dst gseq epoch : Nat) (body : List Byte) : List Byte :=
  linkMsg 0x4C47 kind (c.get GNG_ID.GANG_ID) src dst gseq epoch (nv.keyAt (c.get GNG_ID.KEY_SLOT)) (bootId c) body

/-- The device is in a gang whose key it holds, its ports are in use, and `gseq` would be new from the sender `src`. -/
def Chip.gangHears (c : Chip) (nv : NonVol) (src gseq epoch : Nat) : Bool :=
  c.timed && c.power.portsUp && c.inGang && (nv.keyAt (c.get GNG_ID.KEY_SLOT)).isSome
    && decide (src < 64) && decide (gseq < 2 ^ 32) && decide (epoch < 2 ^ 32)
    && (match c.gang.peer src with
      | some p => (p.take none gseq).2 == .fresh
      | none => true)

/-- A pair message for the unit `c`, as its peer forms it under the pair's key. -/
def Chip.pairMsg (c : Chip) (nv : NonVol) (kind dst gseq epoch : Nat) (body : List Byte) : List Byte :=
  linkMsg 0x4C52 kind (pairId c) (1 - unitIdx c) dst gseq epoch (nv.keyAt (c.get RED_ID.KEY_SLOT)) (bootId c) body

/-- The unit is one of a pair whose key it holds, its ports are in use, and `gseq` would be new from its peer. -/
def Chip.pairHears (c : Chip) (nv : NonVol) (gseq epoch : Nat) : Bool :=
  c.timed && c.power.portsUp && c.paired && (nv.keyAt (c.get RED_ID.KEY_SLOT)).isSome
    && decide (gseq < 2 ^ 32) && decide (epoch < 2 ^ 32)
    && (match c.pair.peer with
      | some p => (p.take none gseq).2 == .fresh
      | none => true)

/-- A message `b m` has entered the transmit queue of each port whose link is up and whose queue has room. -/
def Chip.sentOn (c d : Chip) (b : List Byte → TxBody) : Prop :=
  ∃ m, ∀ p, c.linkUp p = true → (c.port p).txq.length < 64 → ∃ n t, (d.port p).txq = (c.port p).txq ++ [⟨b m, n, t⟩]

/-! Frames. -/

/-- The parts of the chip. -/
inductive Part
  | st | fromRunning | regs | pend | counters | snaps | answer | freeCtr | aon | power | clk | time
  | ports | evq | nextEvent | noticeSeq | errs | sel | ctxs | was | feeds | sramOps | layout | layoutOld
  | sched | colour | scan | chains | dmx | resend | resendMs | gang | emul | pair | loading | nvOps | calib
  deriving DecidableEq, Repr

/-- The chip `d` is the chip `c` but for the parts in `l`. -/
structure Chip.Only (l : List Part) (c d : Chip) : Prop where
  st : Part.st ∈ l ∨ d.st = c.st
  fromRunning : Part.fromRunning ∈ l ∨ d.fromRunning = c.fromRunning
  regs : Part.regs ∈ l ∨ d.regs = c.regs
  pend : Part.pend ∈ l ∨ d.pend = c.pend
  counters : Part.counters ∈ l ∨ d.counters = c.counters
  snaps : Part.snaps ∈ l ∨ d.snaps = c.snaps
  answer : Part.answer ∈ l ∨ d.answer = c.answer
  freeCtr : Part.freeCtr ∈ l ∨ d.freeCtr = c.freeCtr
  aon : Part.aon ∈ l ∨ d.aon = c.aon
  power : Part.power ∈ l ∨ d.power = c.power
  clk : Part.clk ∈ l ∨ d.clk = c.clk
  time : Part.time ∈ l ∨ d.time = c.time
  ports : Part.ports ∈ l ∨ d.ports = c.ports
  evq : Part.evq ∈ l ∨ d.evq = c.evq
  nextEvent : Part.nextEvent ∈ l ∨ d.nextEvent = c.nextEvent
  noticeSeq : Part.noticeSeq ∈ l ∨ d.noticeSeq = c.noticeSeq
  errs : Part.errs ∈ l ∨ d.errs = c.errs
  sel : Part.sel ∈ l ∨ d.sel = c.sel
  ctxs : Part.ctxs ∈ l ∨ d.ctxs = c.ctxs
  was : Part.was ∈ l ∨ d.was = c.was
  feeds : Part.feeds ∈ l ∨ d.feeds = c.feeds
  sramOps : Part.sramOps ∈ l ∨ d.sramOps = c.sramOps
  layout : Part.layout ∈ l ∨ d.layout = c.layout
  layoutOld : Part.layoutOld ∈ l ∨ d.layoutOld = c.layoutOld
  sched : Part.sched ∈ l ∨ d.sched = c.sched
  colour : Part.colour ∈ l ∨ d.colour = c.colour
  scan : Part.scan ∈ l ∨ d.scan = c.scan
  chains : Part.chains ∈ l ∨ d.chains = c.chains
  dmx : Part.dmx ∈ l ∨ d.dmx = c.dmx
  resend : Part.resend ∈ l ∨ d.resend = c.resend
  resendMs : Part.resendMs ∈ l ∨ d.resendMs = c.resendMs
  gang : Part.gang ∈ l ∨ d.gang = c.gang
  emul : Part.emul ∈ l ∨ d.emul = c.emul
  pair : Part.pair ∈ l ∨ d.pair = c.pair
  loading : Part.loading ∈ l ∨ d.loading = c.loading
  nvOps : Part.nvOps ∈ l ∨ d.nvOps = c.nvOps
  calib : Part.calib ∈ l ∨ d.calib = c.calib

/-- What the placing of an event may change: registers, counters, the transmit queues, the event queue, the notice
sequence, what a member is to signal and the messages of the emulation (R366, R368, R385, R408). -/
def eventParts : List Part := [.regs, .counters, .ports, .evq, .nextEvent, .noticeSeq, .gang, .emul]

/-- What the passing of a tick may change: the clock, the captures with their registers and counters, and the lines to the
drivers. -/
def tickParts : List Part := .time :: .scan :: eventParts

end Sys2Proof.Machine
end

