-- ==== Sys2Proof/Certificates/Slice0/Obligations.lean ====
section
/-!
DEFINITION. The statements for the provers. Each is a closed proposition about `exec` and `step`; `ends i s P` says that the
command `i` completes in `s`, `Only` and `sameRegsBut` say what it leaves as it was.
-/

open Sys2Proof
open Sys2Proof.Machine

/-! Supplies, reset and boot. -/

/-- Power-up, the retry of the main supply, and reset release (R33, R503, R506, R510). A release with TEST_EN high changes
nothing (R532).
Rows whose completion this states (`exec` answers a next state with the effect given): `groupARailsGood`,
`mainRailTimeout`, `resetRelease`.
Readings of the model's own: log entries 10 and 11. -/
def Obligations.PowerUpAndRelease : Prop :=
  (∀ s : State, s.chip.st = .off → s.chip.power.groupAGood = false →
    ends .groupARailsGood s (fun c => c.st = .reset ∧ c.power.groupAGood = true ∧ c.power.pwrenMain = true ∧
      s.chip.Only [.st, .power] c)) ∧
  (∀ s : State, s.chip.st = .reset → s.chip.power.pwrenMain = true → s.chip.power.groupBGood = false →
    ends .mainRailTimeout s (fun c => c.aon.mainRetry = min (s.chip.aon.mainRetry + 1) 255 ∧ s.chip.Only [.aon] c)) ∧
  (∀ (s : State) (straps : BitVec 11) (banks : List BankSupply),
    s.chip.st = .reset → s.chip.power.groupAGood = true → s.chip.power.pwrenMain = true →
    ∃ c, exec (.resetRelease straps banks false) s = .next { s.run c with tap := s.tap.toReset } ∧
      c.st = .boot ∧ c.time = Time.start ∧ c.power.groupBGood = true ∧
      c.get CLK_STRAPS.STRAP_ROLES = straps.toNat % 16 ∧ c.get CLK_STRAPS.STRAP_GANG = straps.toNat / 16 % 64 ∧
      c.get CLK_STRAPS.STRAP_HOST = straps.toNat / 1024 ∧ c.get ID_ROLES.ROLES = straps.toNat % 16 ∧
      c.get GNG_CTRL.GANG_ADDR = straps.toNat / 16 % 64 ∧ c.get CLK_STATUS.XTAL_WINDOW = 1 ∧
      c.get CLK_STATUS.XTAL_QUAL = 0 ∧ c.get CLK_RESET.RESET_CAUSE = s.chip.aon.resetCause % 16 ∧
      c.get CLK_RESET.RESET_COUNT = s.chip.aon.resetCount % 2 ^ 16 ∧
      c.get ID_BOOT_ID.BOOT_ID = (Config.bootId s.chip.freeCtr).toNat ∧
      s.chip.Only [.st, .time, .power, .regs, .clk, .freeCtr, .sramOps] c) ∧
  (∀ (s : State) (straps : BitVec 11) (banks : List BankSupply), s.chip.st = .reset →
    ends (.resetRelease straps banks true) s (fun c => c = s.chip))

/-- Lost rails (R504): the loss of a rail of group A, or of VDD_CORE or VDD_SRAM while PWREN_MAIN holds them up, is a reset with
cause `POWER`, which loses the error log with everything else; the loss of VDD_AON takes the always-on domain with it, and
group A's return is a reset with cause `POWER` too. A rail of group B that PWREN_MAIN has switched off may fall: nothing
follows.
Rows whose completion this states (`exec` answers a next state with the effect given): `railLost`, `groupARailsGood`. -/
def Obligations.LostRails : Prop :=
  (∀ (s : State) (r : Rail), s.chip.st ≠ .off → r ≠ .vddAon → railB r = false →
    ends (.railLost r) s (fun c => c.st = .reset ∧ c.aon.resetCause = causePower ∧ c.regs = [] ∧ c.errs.log = [] ∧
      c.evq = [] ∧ c.sel = Selul.start ∧ c.power.groupAGood = false ∧ c.power.pwrenMain = false)) ∧
  (∀ (s : State) (r : Rail), s.chip.st ≠ .off → s.chip.st ≠ .dormant → s.chip.power.pwrenMain = true → railB r = true →
    ends (.railLost r) s (fun c => c.st = .reset ∧ c.aon.resetCause = causePower ∧ c.regs = [] ∧ c.errs.log = [] ∧
      c.evq = [] ∧ c.sel = Selul.start ∧ c.power.groupAGood = s.chip.power.groupAGood ∧ c.power.pwrenMain = true ∧
      c.power.groupBGood = false)) ∧
  (∀ s : State, s.chip.st ≠ .off →
    s.turn (.railLost .vddAon) = true →
    ∃ c, exec (.railLost .vddAon) s = .next { s.run c with tap := Tap.reset } ∧ c.st = .off ∧ c.regs = [] ∧ c.evq = []) ∧
  (∀ s : State, s.chip.st = .off → s.chip.aon = Chip.powerOn.aon → s.chip.power.groupAGood = false →
    ends .groupARailsGood s (fun c => c.st = .reset ∧ c.aon.resetCause = causePower)) ∧
  (∀ (s : State) (r : Rail), s.chip.st = .dormant ∨ s.chip.power.pwrenMain = false → s.chip.st ≠ .off → railB r = true →
    ends (.railLost r) s (fun c => c = s.chip))

/-- What every other reset leaves (R505, R507, R509, R517, R441, R59, R462): the device in Reset with its cause, every
configuration register at its reset value, no events, requesters, floors, transactions or queued commands; the error log
stays.
Rows whose completion this states (`exec` answers a next state with the effect given): `pinReset`, `watchdogExpiry`,
`waitXtalDeadline`. -/
def Obligations.ResetsAndWhatTheyLeave : Prop :=
  (∀ s : State, s.chip.st ≠ .off → s.chip.st ≠ .dormant → s.chip.st ≠ .reset →
    ends .pinReset s (fun c => c.st = .reset ∧ c.aon.resetCause = causePin ∧
      c.aon.resetCount = min (s.chip.aon.resetCount + 1) 0xFFFF ∧ c.regs = [] ∧ c.errs.log = s.chip.errs.log ∧
      c.evq = [] ∧ c.sel = Selul.start)) ∧
  (∀ s : State, s.chip.st = .dormant →
    ends .pinReset s (fun c => c.st = .reset ∧ c.aon.resetCause = causePin ∧ c.aon.fromDormant = true ∧
      c.aon.wakeSrc = 2 ∧ c.power.pwrenMain = true)) ∧
  (∀ (s : State) (ms : Nat), s.chip.awake = true → s.chip.errs.log.length < 128 →
    ends (.watchdogExpiry ms) s (fun c => c.st = .reset ∧ c.aon.resetCause = causeWatchdog ∧
      c.aon.wdTimes = (ms :: s.chip.aon.wdTimes).take 3 ∧ c.regs = [] ∧ c.evq = [] ∧ c.sel = Selul.start ∧
      ∃ e ∈ c.errs.log, e.code = 0x0405 ∧ e.unit = 0xF001 ∧ e.outcome = .reset)) ∧
  (∀ s : State, s.chip.awake = true → s.chip.get CLK_STATUS.WAIT_XTAL = 1 → s.chip.errs.log.length < 128 →
    ends .waitXtalDeadline s (fun c => c.st = .reset ∧ c.aon.resetCause = causeClkNone ∧ c.regs = [] ∧ c.evq = [] ∧
      ∃ e ∈ c.errs.log, e.code = 0x0404 ∧ e.unit = 0xF002 ∧ e.outcome = .reset))

/-- The steps of Boot (R471, R484, R513, R515, R477, R434, R474): the boot ROM starts the image it chose or enters Recovery,
the ports come up, the settings act, and Boot ends in Fenced or in Stopped.
Rows whose completion this states (`exec` answers a next state with the effect given): `imageStart`, `portsUp`,
`settingsApplied`, `bootListenEnd`.
Readings of the model's own: log entry 61. -/
def Obligations.BootSteps : Prop :=
  (∀ (s : State) (records : Records) (logOk : Bool), s.chip.st = .boot → s.chip.power.imageRunning = false →
    s.chip.get CLK_STATUS.XTAL_QUAL = 1 → s.chip.clk.trim = none →
    ends (.imageStart records logOk) s (fun c =>
      match (bootChoice s.nv records (s.chip.aon.wdDue && decide (s.nv.lifecycle ≠ 4 ∧ records ≠ .otherBad))).slot with
      | some k => c.st = .boot ∧ c.power.imageRunning = true ∧ c.get ID_FW.FW_VERSION = imgVersion (s.nv.image k) % 2 ^ 32
      | none => c.st = .recovery ∧ c.power.portsUp = true ∧ c.power.imageRunning = false)) ∧
  (∀ (s : State) (records : Records) (logOk : Bool), s.chip.st = .boot → s.chip.power.imageRunning = false →
    s.chip.get CLK_STATUS.XTAL_QUAL = 1 → s.chip.clk.trim = none → s.nv.lifecycle = 4 ∨ records = .otherBad →
    ends (.imageStart records logOk) s (fun c => c.st = .recovery ∧ c.power.locked = true)) ∧
  (∀ s : State, s.chip.st = .boot → s.chip.power.imageRunning = true → s.chip.power.portsUp = false →
    ends .portsUp s (fun c => c.st = .boot ∧ c.power.portsUp = true ∧ s.chip.Only [.regs, .ports, .power] c)) ∧
  (∀ s : State, s.chip.st = .boot → s.chip.power.portsUp = true → s.chip.power.settingsIn = false →
    ends .settingsApplied s (fun c => c.power.settingsIn = true ∧ c.power.outputsDriven = true ∧
      (s.nv.ownSettings = none → c.get FWU_STATUS.SETTINGS_SRC = 2))) ∧
  (∀ s : State, s.chip.st = .boot → s.chip.power.settingsIn = true → s.nv.fenceMark = true →
    ends .bootListenEnd s (fun c => c.st = .fenced ∧ c.fromRunning = false)) ∧
  (∀ s : State, s.chip.st = .boot → s.chip.power.settingsIn = true → s.nv.fenceMark = false → s.nv.wasRunning = false →
    s.chip.get ID_STATE_CTRL.AUTO_START = 0 →
    ends .bootListenEnd s (fun c => c.st = .stopped ∧ c.get CLK_BOOT_TIME.BOOT_MS = s.chip.bootMs % 2 ^ 16 ∧
      c.calib.run.isSome = true))

/-! Clock sources. -/

/-- Lost and failed clock sources (R43, R45, R46, R48, R49, R50, R55, R98, R103): a stall of the crystal restarts it once; a
crystal that trips is no longer qualified, latches its event and leaves the timebase on the recovered clock; a recovered clock
that was not yet qualified latches its loss and changes nothing else; a lost recovered clock of the upstream port hands over to
the crystal; a frequency error of a recovered clock is latched and disqualifies it, and on the upstream port sends a locked
servo to holdover; a start window that ends without qualification marks the crystal lost.
Rows whose completion this states (`exec` answers a next state with the effect given): `xtalStall`,
`xtalGrossFreqTrip`, `p0Loss`, `p0Freq`, `xtalQualFail`.
Readings of the model's own: log entry 35. -/
def Obligations.ClockSourceLoss : Prop :=
  (∀ (s : State) (p : PortIx), s.chip.awake = true → s.chip.get CLK_STATUS.XTAL_WINDOW = 0 → s.chip.clk.autoRestartUsed = false →
    s.chip.activeSrc = some (portSrc p) → s.chip.qualified (portSrc p) = true →
    ends .xtalStall s (fun c => c.get CLK_EVENT.XTAL_STALL = 1 ∧ c.get CLK_STATUS.XTAL_QUAL = 0 ∧
      c.get CLK_STATUS.XTAL_WINDOW = 1 ∧ c.clk.restartWindow = true ∧ c.activeSrc = some (portSrc p) ∧
      s.chip.Only [.regs, .clk] c ∧ s.chip.sameRegsBut c [0x10004, 0x10008, 0x10014, 0x10018])) ∧
  (∀ (s : State) (p : PortIx), s.chip.awake = true → s.chip.get CLK_STATUS.XTAL_WINDOW = 0 → s.chip.clk.autoRestartUsed = true →
    s.chip.activeSrc = some (portSrc p) → s.chip.qualified (portSrc p) = true →
    ends .xtalStall s (fun c => c.get CLK_EVENT.XTAL_STALL = 1 ∧ c.get CLK_STATUS.XTAL_QUAL = 0 ∧
      c.get CLK_STATUS.XTAL_WINDOW = 0 ∧ c.clk.xtalLost = true ∧
      s.chip.Only [.regs, .clk] c ∧ s.chip.sameRegsBut c [0x10004, 0x10008, 0x10014, 0x10018])) ∧
  (∀ (s : State) (p : PortIx), s.chip.awake = true → s.chip.qualified .xtal = true →
    s.chip.get CLK_STATUS.COSC_TRIMMED = 1 → s.chip.activeSrc = some (portSrc p) → s.chip.qualified (portSrc p) = true →
    ends .xtalGrossFreqTrip s (fun c => c.get CLK_STATUS.XTAL_QUAL = 0 ∧ c.clk.xtalLost = true ∧
      c.get (CLK_Pp_FOFS.FOFS 0) = 0x80000000 ∧ c.get (CLK_Pp_FOFS.FOFS 1) = 0x80000000 ∧
      s.chip.Only [.regs, .clk] c ∧ s.chip.sameRegsBut c [0x10004, 0x10014, 0x10018])) ∧
  (∀ (s : State) (p : PortIx), s.chip.awake = true → s.chip.qualified (portSrc p) = true →
    s.chip.activeSrc = some .xtal → s.chip.qualified .xtal = true → s.chip.upstream ≠ p →
    ends (.p0Loss p) s (fun c => c.get (if p = 0 then CLK_EVENT.P0_LOSS else CLK_EVENT.P1_LOSS) = 1 ∧
      c.qualified (portSrc p) = false ∧ c.activeSrc = some .xtal ∧
      s.chip.Only [.regs, .clk] c ∧ s.chip.sameRegsBut c [0x10004, 0x10008])) ∧
  (∀ (s : State) (p : PortIx), s.chip.awake = true → s.chip.qualified (portSrc p) = false →
    ends (.p0Loss p) s (fun c => c.get (if p = 0 then CLK_EVENT.P0_LOSS else CLK_EVENT.P1_LOSS) = 1 ∧
      s.chip.Only [.regs] c ∧ s.chip.sameRegsBut c [0x10008])) ∧
  (∀ (s : State) (p : PortIx), s.chip.awake = true → s.chip.qualified (portSrc p) = true → s.chip.upstream = p →
    s.chip.get CLK_CTRL.SRC_MODE = 0 → s.chip.activeSrc = some (portSrc p) → s.chip.clk.lastSrc = some (portSrc p) →
    s.chip.qualified .xtal = true → s.chip.time.servo ≠ .locked →
    ends (.p0Loss p) s (fun c => c.activeSrc = some .xtal ∧ c.get CLK_STATUS.PLL_LOCK = 0 ∧
      c.get CLK_STATUS.HOLDOVER = 1 ∧ c.get CLK_EVENT.SRC_SWITCH = 1 ∧
      c.get CLK_EVENT.SWITCH_COUNT = min (s.chip.get CLK_EVENT.SWITCH_COUNT + 1) 0xFFFF ∧
      c.time.upstreamLostAt = some s.chip.time.c.toNat ∧
      s.chip.Only [.regs, .clk, .time] c ∧ s.chip.sameRegsBut c [0x10004, 0x10008])) ∧
  (∀ (s : State) (p : PortIx), s.chip.awake = true → s.chip.qualified (portSrc p) = true → s.chip.upstream = p →
    s.chip.activeSrc = some .xtal → s.chip.qualified .xtal = true → s.chip.time.servo = .locked → s.chip.timeValid = true →
    s.chip.get CLK_STATUS.WAIT_XTAL = 0 →
    ends (.p0Freq p) s (fun c => c.get (if p = 0 then CLK_EVENT.P0_FREQ else CLK_EVENT.P1_FREQ) = 1 ∧
      c.qualified (portSrc p) = false ∧ c.activeSrc = some .xtal ∧ c.time.servo = .holdover ∧ c.timeValid = true ∧
      c.time.upstreamLostAt = some s.chip.time.c.toNat ∧
      s.chip.Only [.regs, .clk, .time] c ∧ s.chip.sameRegsBut c [0x10004, 0x10008, 0x20004, 0x20008])) ∧
  (∀ (s : State) (p : PortIx), s.chip.awake = true → s.chip.qualified (portSrc p) = true → s.chip.upstream ≠ p →
    s.chip.activeSrc = some .xtal → s.chip.qualified .xtal = true →
    ends (.p0Freq p) s (fun c => c.get (if p = 0 then CLK_EVENT.P0_FREQ else CLK_EVENT.P1_FREQ) = 1 ∧
      c.qualified (portSrc p) = false ∧ c.activeSrc = some .xtal ∧
      s.chip.Only [.regs, .clk] c ∧ s.chip.sameRegsBut c [0x10004, 0x10008])) ∧
  (∀ (s : State) (p : PortIx), s.chip.awake = true → s.chip.get CLK_STATUS.XTAL_WINDOW = 1 →
    s.chip.get CLK_STATUS.WAIT_XTAL = 0 → s.chip.qualified (portSrc p) = true →
    ends .xtalQualFail s (fun c => c.get CLK_STATUS.XTAL_WINDOW = 0 ∧ c.get CLK_EVENT.XTAL_QUAL_FAIL = 1 ∧
      c.clk.xtalLost = true ∧ s.chip.Only [.regs, .clk] c ∧ s.chip.sameRegsBut c [0x10004, 0x10008]))

/-- Qualification, lock and the frequency measurement (R44, R47, R62).
Rows whose completion this states (`exec` answers a next state with the effect given): `xtalQualified`,
`recoveredQualified`, `pllLock`, `fofsUpdate`. -/
def Obligations.ClockQualification : Prop :=
  (∀ s : State, s.chip.awake = true → s.chip.get CLK_STATUS.XTAL_WINDOW = 1 → s.chip.get CLK_STATUS.WAIT_XTAL = 0 →
    ends .xtalQualified s (fun c => c.get CLK_STATUS.XTAL_QUAL = 1 ∧ c.get CLK_STATUS.XTAL_WINDOW = 0 ∧
      (s.chip.activeSrc = none → c.activeSrc = some .xtal) ∧ c.clk.autoRestartUsed = false ∧
      s.chip.Only [.regs, .clk] c ∧ s.chip.sameRegsBut c [0x10004, 0x10008])) ∧
  (∀ (s : State) (p : PortIx), s.chip.awake = true → s.chip.qualified .xtal = true → s.chip.power.portsUp = true →
    s.chip.qualified (portSrc p) = false → s.chip.get CLK_STATUS.WAIT_XTAL = 0 →
    ends (.recoveredQualified p) s (fun c => c.qualified (portSrc p) = true ∧
      s.chip.Only [.regs, .clk] c ∧ s.chip.sameRegsBut c [0x10004, 0x10008])) ∧
  (∀ s : State, s.chip.awake = true → s.chip.activeSrc.isSome = true →
    ends .pllLock s (fun c => c.get CLK_STATUS.PLL_LOCK = 1 ∧ c.get CLK_STATUS.HOLDOVER = 0 ∧ c.activeSrc = s.chip.activeSrc ∧
      s.chip.Only [.regs] c ∧ s.chip.sameRegsBut c [0x10004])) ∧
  (∀ (s : State) (p : PortIx) (ppb : Int), s.chip.awake = true →
    ends (.fofsUpdate p ppb) s (fun c =>
      c.get (CLK_Pp_FOFS.FOFS p) =
        (if s.chip.qualified .xtal && s.chip.linkUp p then satSigned 32 ppb else 0x80000000) ∧
      s.chip.Only [.regs] c ∧ s.chip.sameRegsBut c [0x10014 + 4 * p.val]))

/-- Switching back (R56). With `REVERTIVE` at 1 the end of `REVERT_HOLD` of the recovered clock of the upstream port takes the
timebase from the crystal to it, and nothing outside the clock unit changes; with `REVERTIVE` at 0 it changes nothing, and the
qualification of a recovered clock alone never moves the timebase from a crystal that is not lost.
Rows whose completion this states (`exec` answers a next state with the effect given): `revertHoldExpiry`,
`recoveredQualified`. -/
def Obligations.Reverting : Prop :=
  (∀ s : State, s.chip.awake = true → s.chip.activeSrc = some .xtal → s.chip.clk.lastSrc = some .xtal →
    s.chip.get CLK_CTRL.SRC_MODE = 0 → s.chip.get CLK_CTRL.REVERTIVE = 1 →
    s.chip.qualified (portSrc s.chip.upstream) = true →
    ends .revertHoldExpiry s (fun c => c.activeSrc = some (portSrc s.chip.upstream) ∧ c.get CLK_EVENT.SRC_SWITCH = 1 ∧
      c.get CLK_STATUS.PLL_LOCK = 0 ∧ s.chip.Only [.regs, .clk] c ∧ s.chip.sameRegsBut c [0x10004, 0x10008])) ∧
  (∀ s : State, s.chip.awake = true → s.chip.get CLK_CTRL.SRC_MODE = 0 → s.chip.get CLK_CTRL.REVERTIVE = 0 →
    ends .revertHoldExpiry s (fun c => c = s.chip)) ∧
  (∀ (s : State) (p : PortIx), s.chip.awake = true → s.chip.qualified .xtal = true → s.chip.power.portsUp = true →
    s.chip.qualified (portSrc p) = false → s.chip.get CLK_STATUS.WAIT_XTAL = 0 → s.chip.activeSrc = some .xtal →
    s.chip.get CLK_CTRL.SRC_MODE = 0 → s.chip.clk.modeFresh = false →
    ends (.recoveredQualified p) s (fun c => c.activeSrc = some .xtal ∧ s.chip.Only [.regs, .clk] c ∧
      s.chip.sameRegsBut c [0x10004, 0x10008]))

/-- The control of the source and of the trim by software (R54, R63, R64, R66, R67): the writes of `SRC_MODE`,
`XTAL_RESTART` and `TRIM_NOW`, the automatic re-trim, and a gate of a trim.
Rows whose completion this states (`exec` answers a next state with the effect given): `srcModeWrite`, `xtalRestart`,
`trimNow`, `autoRetrim`, `trimGateEnd`. -/
def Obligations.ClockControlAndTrim : Prop :=
  (∀ (s : State) (mode : Fin 4), s.chip.st = .stopped ∨ s.chip.st = .running → s.chip.sel.txns = [] → s.chip.layoutOld = false →
    s.chip.get CLK_STATUS.WAIT_XTAL = 0 →
    ends (.srcModeWrite mode) s (fun c => c.get CLK_CTRL.SRC_MODE = mode.val ∧ c.answer.status = .ok)) ∧
  (∀ (s : State) (p : PortIx), s.chip.st = .stopped ∨ s.chip.st = .running → s.chip.sel.txns = [] →
    s.chip.get CLK_STATUS.WAIT_XTAL = 0 → s.chip.activeSrc = some (portSrc p) →
    ends .xtalRestart s (fun c => c.get CLK_STATUS.XTAL_WINDOW = 1 ∧ c.get CLK_STATUS.XTAL_QUAL = 0 ∧
      c.clk.restartWindow = false ∧ c.clk.autoRestartUsed = false ∧ c.answer.status = .ok ∧
      s.chip.Only [.regs, .clk, .answer] c ∧ s.chip.sameRegsBut c [0x10004, 0x10014, 0x10018])) ∧
  (∀ s : State, s.chip.st = .stopped ∨ s.chip.st = .running → s.chip.sel.txns = [] →
    s.chip.get CLK_STATUS.WAIT_XTAL = 1 ∨
      (s.chip.activeSrc = some .xtal ∧ s.chip.qualified .p0 = false ∧ s.chip.qualified .p1 = false) →
    ends .xtalRestart s (fun c => c.answer.status = .busy ∧ s.chip.Only [.answer] c)) ∧
  (∀ s : State, s.chip.st = .stopped ∨ s.chip.st = .running → s.chip.sel.txns = [] → s.chip.clk.trim = none →
    s.chip.get CLK_COSC_TRIM.TRIM_REF ≠ 3 →
    ends .trimNow s (fun c => c.answer.status = .ok ∧ s.chip.Only [.clk, .answer] c ∧
      c.clk.trim = some ⟨.coarse, 0, 10 ^ 9, none, s.chip.get CLK_COSC_TRIM.COARSE, s.chip.get CLK_COSC_TRIM.FINE⟩)) ∧
  (∀ s : State, s.chip.st = .stopped ∨ s.chip.st = .running → s.chip.sel.txns = [] → s.chip.clk.trim.isSome = true →
    ends .trimNow s (fun c => c.answer.status = .busy ∧ s.chip.Only [.answer] c)) ∧
  (∀ s : State, s.chip.awake = true → s.chip.get CLK_COSC_TRIM.AUTO = 1 → s.chip.power.imageRunning = true →
    s.chip.clk.trim = none → s.chip.get CLK_COSC_TRIM.TRIM_REF ≠ 3 →
    ends .autoRetrim s (fun c => s.chip.Only [.clk] c ∧
      c.clk.trim = some ⟨.coarse, 0, 10 ^ 9, none, s.chip.get CLK_COSC_TRIM.COARSE, s.chip.get CLK_COSC_TRIM.FINE⟩)) ∧
  (∀ (s : State) (t : Trim) (cycles : Nat), s.chip.awake = true → s.chip.clk.trim = some t → t.phase = .coarse →
    s.chip.get CLK_COSC_TRIM.TRIM_REF = 0 → 196800000 ≤ cycles * 25000000 / 262144 → cycles * 25000000 / 262144 ≤ 203200000 →
    ends (.trimGateEnd false cycles) s (fun c => c.get CLK_COSC_TRIM.FINE = 0x80 ∧
      c.get CLK_COSC_TRIM.COARSE = s.chip.get CLK_COSC_TRIM.COARSE ∧
      c.get CLK_COSC_MEAS.FREQ_KHZ = cycles * 25000000 / 262144 / 1000 ∧
      c.clk.measuredAt = some s.chip.time.c.toNat ∧ (∃ u, c.clk.trim = some u ∧ u.phase = .fine 7) ∧
      s.chip.Only [.regs, .clk] c ∧ s.chip.sameRegsBut c [0x10020, 0x10024])) ∧
  (∀ (s : State) (t : Trim) (cycles : Nat), s.chip.awake = true → s.chip.clk.trim = some t → t.phase = .fine 0 →
    s.chip.get CLK_COSC_TRIM.TRIM_REF = 0 → cycles * 25000000 / 262144 = 200000000 →
    ends (.trimGateEnd false cycles) s (fun c => c.clk.trim = none ∧ c.get CLK_STATUS.COSC_TRIMMED = 1 ∧
      c.get CLK_COSC_TRIM.FINE = s.chip.get CLK_COSC_TRIM.FINE ∧
      s.chip.Only [.regs, .clk] c ∧ s.chip.sameRegsBut c [0x10004, 0x10020, 0x10024])) ∧
  (∀ (s : State) (cycles : Nat), s.chip.awake = true →
    ends (.trimGateEnd true cycles) s (fun c => c = s.chip))

/-! The time unit. -/

/-- A Sync of the selected master (R97, R98, R99, R103): the update of a locked servo by a small error, the step of an
acquiring one by a large error, and the Sync discarded in the tick of the loss of the upstream reference. Interpolated phase
offsets come into force with the update (R498), and a phase-tracked Sync during the item `PHASE_OFS` is discarded (R492).
Rows whose completion this states (`exec` answers a next state with the effect given): `syncReceived`.
Readings of the model's own: log entries 14, 15, 16, 30 and 31. -/
def Obligations.SyncRunsTheServo : Prop :=
  (∀ (s : State) (m : SyncMsg), s.chip.timed = true → s.chip.power.portsUp = true → s.chip.linkUp m.port = true →
    s.chip.get TIM_CTRL.TIME_SRC = 0 → s.chip.get TIM_CTRL.PROFILE = 0 → s.chip.get TIM_CTRL.TS_EXPORT = 0 →
    s.chip.time.slave = some (m.port, m.master) → s.chip.time.servo = .locked →
    s.chip.time.upstreamLostAt ≠ some s.chip.time.c.toNat →
    mag (s.chip.syncError m) ≤ s.chip.stepThresh → s.chip.isOutlier (s.chip.syncError m) = false →
    ends (.syncReceived m) s (fun c => c.time.servo = .locked ∧ c.time.bigCount = 0 ∧
      c.get TIM_OFFSET.OFFSET = satSigned 32 (s.chip.syncError m * 1000 / 65536) ∧
      c.time.accepted = (s.chip.syncError m :: s.chip.time.accepted).take 8 ∧
      c.time.rInt = clampInt (-rateMax) rateMax (s.chip.time.rInt +
        rateOf (s.chip.syncError m) (s.chip.get TIM_SERVO.KI_SHIFT) (pow2Sec m.logInterval).1 (pow2Sec m.logInterval).2) ∧
      c.get (TIM_Pp_PHASE.PHASE m.port) = satSigned 32 (m.phase - c.phaseOffset m.port) ∧
      (s.chip.calib.phaseTo = none → c.calib = s.chip.calib ∧ c.phaseOffset m.port = s.chip.phaseOffset m.port) ∧
      (∀ a b, s.chip.calib.phaseTo = some (a, b) → c.calib.phaseTo = none ∧
        c.get CAL_PHASE_OFS0.PHASE_OFS = satSigned 32 a ∧ c.get CAL_PHASE_OFS1.PHASE_OFS = satSigned 32 b) ∧
      c.now = s.chip.now ∧ s.chip.Only [.regs, .time, .calib] c ∧
      s.chip.sameRegsBut c [0x2006C + 0x10 * m.port.val, 0x20018, 0xF0018, 0xF001C])) ∧
  (∀ (s : State) (m : SyncMsg), s.chip.timed = true → s.chip.power.portsUp = true → s.chip.linkUp m.port = true →
    s.chip.get TIM_CTRL.TIME_SRC = 0 → s.chip.get TIM_CTRL.PROFILE = 0 → s.chip.get TIM_CTRL.TS_EXPORT = 0 →
    s.chip.time.slave = some (m.port, m.master) → s.chip.time.servo = .locked →
    s.chip.time.upstreamLostAt ≠ some s.chip.time.c.toNat →
    mag (s.chip.syncError m) ≤ s.chip.stepThresh → s.chip.isOutlier (s.chip.syncError m) = true →
    ends (.syncReceived m) s (fun c => c.count 0x100500 = min (s.chip.count 0x100500 + 1) (2 ^ 48 - 1) ∧
      c.time.accepted = s.chip.time.accepted ∧ c.time.rInt = s.chip.time.rInt ∧
      c.get TIM_OFFSET.OFFSET = s.chip.get TIM_OFFSET.OFFSET)) ∧
  (∀ (s : State) (m : SyncMsg), s.chip.timed = true → s.chip.power.portsUp = true → s.chip.linkUp m.port = true →
    s.chip.get TIM_CTRL.TIME_SRC = 0 → s.chip.get TIM_CTRL.PROFILE = 0 → s.chip.get TIM_CTRL.TS_EXPORT = 0 →
    s.chip.time.slave = some (m.port, m.master) → s.chip.time.servo = .acquire →
    s.chip.time.upstreamLostAt ≠ some s.chip.time.c.toNat → s.chip.stepThresh < mag (s.chip.syncError m) → (∀ n, n < 4 → (s.chip.trig n).target = none) →
    ends (.syncReceived m) s (fun c => c.now = s.chip.now + s.chip.syncError m ∧ c.time.servo = .acquire ∧
      c.time.accepted = [] ∧ c.time.lockCount = 0 ∧ c.get TIM_EVENT.STEP = 1 ∧
      c.get TIM_OFFSET.OFFSET = s.chip.get TIM_OFFSET.OFFSET)) ∧
  (∀ (s : State) (m : SyncMsg), s.chip.timed = true → s.chip.power.portsUp = true → s.chip.linkUp m.port = true →
    s.chip.get TIM_CTRL.TS_EXPORT = 0 → s.chip.time.upstreamLostAt = some s.chip.time.c.toNat →
    ends (.syncReceived m) s (fun c => c = s.chip)) ∧
  (∀ (s : State) (m : SyncMsg), s.chip.timed = true → s.chip.power.portsUp = true → s.chip.linkUp m.port = true →
    s.chip.get TIM_CTRL.TIME_SRC = 0 → s.chip.get TIM_CTRL.PROFILE = 1 → s.chip.get TIM_STATUS.PHASE_VALID = 1 →
    m.phaseBit = true → s.chip.get TIM_CTRL.TS_EXPORT = 0 → s.chip.time.slave = some (m.port, m.master) →
    s.chip.time.upstreamLostAt ≠ some s.chip.time.c.toNat → s.chip.phaseItem = true → (s.chip.linkUp 0 && s.chip.linkUp 1) = false →
    ends (.syncReceived m) s (fun c => c.time.servo = s.chip.time.servo ∧ c.time.rInt = s.chip.time.rInt ∧
      c.time.accepted = s.chip.time.accepted ∧ c.count 0x100500 = s.chip.count 0x100500 ∧ c.now = s.chip.now ∧
      s.chip.Only [.regs, .time] c ∧ s.chip.sameRegsBut c [0x2006C + 0x10 * m.port.val]))

/-- The messages of PTP besides Sync (R80, R82, R83, R85, R94, R97): the foreign master table and the choice of the master,
the answer to a delay request, the peer delay, and what a master or a slave sends.
Rows whose completion this states (`exec` answers a next state with the effect given): `announceReceivedPtp`,
`foreignMasterAgeout`, `delayReqReceived`, `pdelayExchange`, `syncSend`, `ptpAnnounceSend`, `delayReqSend`,
`delayRespReceived`.
Readings of the model's own: log entries 9 and 107. -/
def Obligations.PtpMessages : Prop :=
  (∀ (s : State) (a : PtpAnnounce), s.chip.timed = true → s.chip.power.portsUp = true → s.chip.linkUp a.port = true →
    a.domain = s.chip.get TIM_CTRL.DOMAIN → a.gmId < 2 ^ 64 → s.chip.get TIM_CTRL.PTP_ROLE = 0 → s.chip.time.foreign = [] →
    s.chip.activeSrc.isSome = true →
    ends (.announceReceivedPtp a) s (fun c => c.time.foreign = [⟨a.port, a⟩] ∧ c.time.slave = some (a.port, a.sender) ∧
      c.get (TIM_GM_ID.GM_ID 0) * 2 ^ 32 + c.get (TIM_GM_ID.GM_ID 1) = a.gmId ∧
      c.get TIM_STATUS.SLAVE_PORT = a.port.val ∧ c.get TIM_STATUS.UTC_OFFSET = a.utcOffset % 2 ^ 16 ∧ s.chip.Only [.regs, .time] c ∧
      s.chip.sameRegsBut c [0x20004, 0x20008, 0x20058, 0x2005C])) ∧
  (∀ (s : State) (a : PtpAnnounce), s.chip.timed = true → s.chip.power.portsUp = true → s.chip.linkUp a.port = true →
    a.domain ≠ s.chip.get TIM_CTRL.DOMAIN → ends (.announceReceivedPtp a) s (fun c => c = s.chip)) ∧
  (∀ (s : State) (p : PortIx) (sender : Nat), s.chip.timed = true → s.chip.time.servo ≠ .acquire →
    s.chip.activeSrc.isSome = true →
    ends (.foreignMasterAgeout p sender) s (fun c =>
      c.time.foreign = s.chip.time.foreign.filter (fun f => !(f.port == p && f.ann.sender == sender)) ∧
      s.chip.Only [.regs, .time] c ∧ s.chip.sameRegsBut c [0x20004, 0x20008, 0x20058, 0x2005C])) ∧
  (∀ (s : State) (p : PortIx) (requester seq frac10 : Nat), s.chip.timed = true → s.chip.power.portsUp = true →
    s.chip.linkUp p = true → s.chip.get TIM_CTRL.PTP_ROLE = 2 → s.chip.get TIM_CTRL.TS_EXPORT = 0 →
    (s.chip.time.dreqWindow.getD p.val (0, 0)).1 ≠ s.chip.time.c.toNat / 800000000 → (s.chip.port p).txq.length < 64 →
    ends (.delayReqReceived p requester seq frac10) s (fun c =>
      (c.port p).txq = (s.chip.port p).txq ++
        [s.chip.txFrame p ⟨.ptpDelayResp (s.chip.ptpTo false false) seq requester (s.chip.time.now frac10), s.chip.ptpLen p 54⟩] ∧
      s.chip.Only [.time, .ports] c)) ∧
  (∀ (s : State) (m : PdelayMsg), s.chip.timed = true → s.chip.power.portsUp = true → s.chip.linkUp m.port = true →
    s.chip.get TIM_CTRL.TS_EXPORT = 0 → ends (.pdelayExchange m) s (fun c =>
      c.get (TIM_Pp_LINKDLY.LINKDLY m.port) =
        min ((max 0 (((m.t4 - m.t1) - (m.t3 - m.t2) - m.correction) / 2)).toNat * 10 / 65536) (2 ^ 32 - 1) ∧
      s.chip.Only [.regs, .time] c ∧ s.chip.sameRegsBut c [0x20068 + 0x10 * m.port.val])) ∧
  (∀ (s : State) (p : PortIx) (frac10 : Nat), s.chip.timed = true → s.chip.power.portsUp = true → s.chip.isMaster = true →
    s.chip.linkUp p = true → (s.chip.port p).txq.length < 64 → s.chip.get TIM_CTRL.TS_EXPORT = 0 →
    ends (.syncSend p frac10) s (fun c =>
      (c.port p).txq = (s.chip.port p).txq ++ [s.chip.txFrame p
        ⟨.ptpSync (s.chip.ptpTo true false) s.chip.time.txSeq (s.chip.time.now frac10) (s.chip.bit TIM_CTRL.PROFILE),
          s.chip.ptpLen p 44⟩] ∧
      c.time.txSeq = (s.chip.time.txSeq + 1) % 2 ^ 16 ∧ s.chip.Only [.time, .ports] c)) ∧
  (∀ (s : State) (p : PortIx), s.chip.timed = true → s.chip.power.portsUp = true → s.chip.isMaster = true →
    s.chip.linkUp p = true → (s.chip.port p).txq.length < 64 →
    ends (.ptpAnnounceSend p) s (fun c =>
      (c.port p).txq = (s.chip.port p).txq ++ [s.chip.txFrame p
        ⟨.ptpAnnounce (s.chip.ptpTo false false) s.chip.time.txSeq s.chip.clockId 0, s.chip.ptpLen p 64⟩] ∧
      c.time.txSeq = (s.chip.time.txSeq + 1) % 2 ^ 16 ∧ s.chip.Only [.time, .ports] c)) ∧
  (∀ (s : State) (p : PortIx) (frac10 : Nat), s.chip.timed = true → s.chip.power.portsUp = true → s.chip.peerDelay = true →
    s.chip.linkUp p = true → (s.chip.port p).txq.length < 64 → s.chip.get TIM_CTRL.TS_EXPORT = 0 →
    ends (.delayReqSend p frac10) s (fun c =>
      (c.port p).txq = (s.chip.port p).txq ++ [s.chip.txFrame p
        ⟨.ptpDelayReq (s.chip.ptpTo true true) s.chip.time.txSeq true, s.chip.ptpLen p 54⟩] ∧
      c.time.txSeq = (s.chip.time.txSeq + 1) % 2 ^ 16 ∧ s.chip.Only [.time, .ports] c)) ∧
  (∀ (s : State) (p : PortIx) (sender seq : Nat) (receipt correction t1 t2 t3 : Int), s.chip.timed = true →
    s.chip.power.portsUp = true → s.chip.linkUp p = true → s.chip.peerDelay = false →
    s.chip.time.slave = some (p, sender) → s.chip.time.delayReq = some (t3, seq) → s.chip.time.lastSync = some (t1, t2) →
    ends (.delayRespReceived p sender seq receipt correction) s (fun c =>
      c.time.meanPath = ((t2 - t1) + (receipt - correction - t3)) / 2 ∧ c.time.delayReq = none ∧
      s.chip.Only [.time] c))

/-- The loss of the time source (R98, R101, R103, R108). `SYNC_LOSS` and `FSYNC_MISS_LIMIT` end in every state with the tick of
the loss kept or, for the latter, unchanged: a locked servo and one in `FSYNC` enter holdover with time valid, `HOLD_ENTER` latched
and r frozen at the mean of the last 64 accepted updates, an acquiring one falls to `FREERUN`, and one in any other state stays
where it is. `HOLD_EXPIRED` ends, once `HOLD_TIME` has reached `HOLD_MAX`, with time valid and the event latched or, with
`HOLD_ACTION` at 1, with time invalid and the outputs blank; before that it changes nothing.
Rows whose completion this states (`exec` answers a next state with the effect given): `syncLoss`, `fsyncMissLimit`,
`holdExpired`.
Readings of the model's own: log entry 113. -/
def Obligations.HoldoverOfTime : Prop :=
  (∀ s : State, s.chip.timed = true → s.chip.time.servo = .locked → s.chip.timeValid = true →
    s.chip.get CLK_STATUS.WAIT_XTAL = 0 →
    ends .syncLoss s (fun c => c.time.servo = .holdover ∧ c.get TIM_STATUS.SERVO_STATE = 3 ∧ c.timeValid = true ∧
      c.get TIM_EVENT.HOLD_ENTER = 1 ∧ c.time.holdStart = some s.chip.time.c.toNat ∧
      c.time.rInt = clampInt (-rateMax) rateMax (if s.chip.time.rates = [] then s.chip.time.rInt
        else s.chip.time.rates.sum / (s.chip.time.rates.length : Int)) ∧
      c.time.upstreamLostAt = some s.chip.time.c.toNat ∧ c.now = s.chip.now ∧
      s.chip.Only [.regs, .time] c ∧ s.chip.sameRegsBut c [0x20004, 0x20008])) ∧
  (∀ s : State, s.chip.timed = true → s.chip.time.servo ≠ .locked → s.chip.time.servo ≠ .acquire →
    ends .syncLoss s (fun c => c.time.servo = s.chip.time.servo ∧ c.time.upstreamLostAt = some s.chip.time.c.toNat ∧
      s.chip.Only [.time] c)) ∧
  (∀ s : State, s.chip.timed = true → s.chip.time.servo = .acquire → s.chip.timeValid = false →
    s.chip.get TIM_CTRL.PTP_ROLE ≠ 2 →
    ends .syncLoss s (fun c => c.time.servo = .freerun ∧ c.get TIM_STATUS.SERVO_STATE = 0 ∧ c.timeValid = false ∧
      s.chip.Only [.regs, .time] c ∧ s.chip.sameRegsBut c [0x20004])) ∧
  (∀ s : State, s.chip.timed = true → s.chip.time.servo = .fsync → s.chip.timeValid = true →
    s.chip.get CLK_STATUS.WAIT_XTAL = 0 →
    ends .fsyncMissLimit s (fun c => c.time.servo = .holdover ∧ c.get TIM_STATUS.SERVO_STATE = 3 ∧ c.timeValid = true ∧
      c.get TIM_EVENT.HOLD_ENTER = 1 ∧ c.time.holdStart = some s.chip.time.c.toNat ∧ c.now = s.chip.now ∧
      s.chip.Only [.regs, .time] c ∧ s.chip.sameRegsBut c [0x20004, 0x20008])) ∧
  (∀ s : State, s.chip.timed = true → s.chip.time.servo ≠ .fsync → ends .fsyncMissLimit s (fun c => c = s.chip)) ∧
  (∀ s : State, s.chip.timed = true → s.chip.holdOver = true → s.chip.get TIM_HOLD.HOLD_ACTION = 0 →
    ends .holdExpired s (fun c => c.get TIM_EVENT.HOLD_EXPIRED = 1 ∧ c.timeValid = s.chip.timeValid ∧
      c.time = s.chip.time ∧ s.chip.Only [.regs] c ∧ s.chip.sameRegsBut c [0x20008])) ∧
  (∀ s : State, s.chip.timed = true → s.chip.holdOver = true → s.chip.get TIM_HOLD.HOLD_ACTION = 1 →
    s.chip.timeValid = true →
    ends .holdExpired s (fun c => c.get TIM_STATUS.TIME_VALID = 0 ∧ c.scan.display = .blank ∧
      c.time.servo = .holdover ∧ c.now = s.chip.now)) ∧
  (∀ s : State, s.chip.timed = true → s.chip.holdOver = false → ends .holdExpired s (fun c => c = s.chip))

/-- FSYNC_IN, and the load of the time (R107, R108, R110, R116): an edge of the other polarity does nothing; an edge with
another time source only reports its error; the first accepted pulse steps the time; `SET_GO` of an island grandmaster
loads `TIM_SET`, and latches `SET_REFUSED` elsewhere.
Rows whose completion this states (`exec` answers a next state with the effect given): `fsyncInEdge`, `setGo`. -/
def Obligations.FsyncAndSetGo : Prop :=
  (∀ (s : State) (rising : Bool) (frac10 : Nat), s.chip.timed = true → s.chip.bit TIM_FSYNC.FS_EDGE = rising →
    ends (.fsyncInEdge rising frac10) s (fun c => c = s.chip)) ∧
  (∀ (s : State) (rising : Bool) (frac10 : Nat), s.chip.timed = true → s.chip.bit TIM_FSYNC.FS_EDGE = !rising →
    s.chip.get TIM_CTRL.TIME_SRC ≠ 1 →
    ends (.fsyncInEdge rising frac10) s (fun c =>
      (let t := s.chip.time.now frac10 + s.chip.getS TIM_FSYNC_DELAY.FS_DELAY * nsU;
       let n := gridN s.chip.period s.chip.gridOffset t;
       let lo := t - gridT s.chip.period s.chip.gridOffset n;
       let hi := t - gridT s.chip.period s.chip.gridOffset (n + 1);
       c.get TIM_FSYNC_ERROR.FS_ERROR = satSigned 32 ((if lo ≤ -hi then lo else hi) * 10 / 65536)) ∧
      s.chip.Only [.regs] c ∧ s.chip.sameRegsBut c [0x20088])) ∧
  (∀ (s : State) (rising : Bool) (frac10 : Nat), s.chip.timed = true → s.chip.bit TIM_FSYNC.FS_EDGE = !rising →
    s.chip.get TIM_CTRL.TIME_SRC = 1 → s.chip.time.servo ≠ .fsync → (∀ n, n < 4 → (s.chip.trig n).target = none) →
    ends (.fsyncInEdge rising frac10) s (fun c => c.time.servo = .fsync ∧ c.get TIM_STATUS.SERVO_STATE = 4 ∧
      c.get TIM_EVENT.STEP = 1 ∧ c.time.accepted = [] ∧ c.time.fsMissed = 0)) ∧
  (∀ s : State, s.chip.st = .stopped ∨ s.chip.st = .running → s.chip.sel.txns = [] → s.chip.get TIM_CTRL.PTP_ROLE = 2 →
    (∀ n, n < 4 → (s.chip.trig n).target = none) →
    ends .setGo s (fun c => c.answer.status = .ok ∧ c.get TIM_EVENT.STEP = 1 ∧
      c.now = (((s.chip.get ⟨0x20040, 0, 16⟩ * 2 ^ 32 + s.chip.get ⟨0x20044, 0, 32⟩ : Nat) : Int) * 1000000000 +
        (s.chip.get ⟨0x20048, 0, 32⟩ : Int)) * 65536 + (s.chip.get ⟨0x2004C, 0, 16⟩ : Int) ∧
      s.chip.Only [.regs, .time, .answer] c ∧ s.chip.sameRegsBut c [0x20008])) ∧
  (∀ s : State, s.chip.st = .stopped ∨ s.chip.st = .running → s.chip.sel.txns = [] → s.chip.get TIM_CTRL.PTP_ROLE ≠ 2 →
    s.chip.get TIM_CTRL.TIME_SRC = 0 →
    ends .setGo s (fun c => c.get TIM_EVENT.SET_REFUSED = 1 ∧ c.now = s.chip.now ∧
      s.chip.Only [.regs, .answer] c ∧ s.chip.sameRegsBut c [0x20008]))

/-- Reads of time, exported timestamps and captures (R70, R91, R111, R116): word 0 of `TIM_NOW` snaps the time, and word 0 of
`TIM_TSQ` and of `TIM_CAPn` pops the oldest entry, or shows `PRESENT` 0. The
timestamp of an event message enters the export queue, or the full queue latches its overrun. An edge on CAPn is held with its
time; one of the other direction within 5 ns makes a pulse that is ignored; a held edge is queued, or, within 50 ns of the last
capture, dropped and counted, and a full queue latches its overrun.
Rows whose completion this states (`exec` answers a next state with the effect given): `timNowRead`, `tsqPop`,
`delayReqReceived`, `capEdge`, `capPop`. -/
def Obligations.TimeReadsAndCaptures : Prop :=
  (∀ s : State, s.chip.writable = true →
    ends .timNowRead s (fun c => c.answer.status = .ok ∧ c.get ⟨0x20034, 0, 32⟩ = s.chip.nowRec.sec % 2 ^ 32 ∧
      c.get ⟨0x20030, 0, 16⟩ = s.chip.nowRec.sec / 2 ^ 32 % 2 ^ 16 ∧ c.get ⟨0x20038, 0, 32⟩ = s.chip.nowRec.ns % 2 ^ 32 ∧
      c.answer.words = [(c.reg 0x20030).toNat] ∧ s.chip.Only [.regs, .answer] c ∧
      s.chip.sameRegsBut c [0x20030, 0x20034, 0x20038, 0x2003C])) ∧
  (∀ (s : State) (e : TsqEntry) (q : List TsqEntry), s.chip.writable = true → s.chip.time.tsq = e :: q →
    ends .tsqPop s (fun c => c.time.tsq = q ∧ c.answer.status = .ok ∧ c.get ⟨0x20124, 0, 32⟩ = e.time.sec % 2 ^ 32 ∧
      c.get ⟨0x20128, 0, 32⟩ = e.time.ns % 2 ^ 32 ∧ c.answer.words = [(c.reg 0x20120).toNat] ∧
      (c.reg 0x20120).toNat.testBit 31 = true ∧ s.chip.Only [.regs, .time, .answer] c ∧
      s.chip.sameRegsBut c [0x20120, 0x20124, 0x20128, 0x2012C])) ∧
  (∀ s : State, s.chip.writable = true → s.chip.time.tsq = [] →
    ends .tsqPop s (fun c => c.answer = ⟨.ok, [0]⟩ ∧ s.chip.Only [.regs, .answer] c)) ∧
  (∀ (s : State) (p : PortIx) (requester seq frac10 : Nat), s.chip.timed = true → s.chip.power.portsUp = true →
    s.chip.linkUp p = true → s.chip.isMaster = false → s.chip.get TIM_CTRL.TS_EXPORT = 1 → s.chip.time.tsq.length < 64 →
    ends (.delayReqReceived p requester seq frac10) s (fun c =>
      c.time.tsq = s.chip.time.tsq ++ [⟨timeRecOf (s.chip.time.now frac10) (!s.chip.timeValid), 1, p.val, false, seq⟩] ∧
      s.chip.Only [.time] c)) ∧
  (∀ (s : State) (p : PortIx) (requester seq frac10 : Nat), s.chip.timed = true → s.chip.power.portsUp = true →
    s.chip.linkUp p = true → s.chip.isMaster = false → s.chip.get TIM_CTRL.TS_EXPORT = 1 → 64 ≤ s.chip.time.tsq.length →
    ends (.delayReqReceived p requester seq frac10) s (fun c => c.get TIM_EVENT.TSQ_OVERRUN = 1 ∧ s.chip.Only [.regs] c ∧
      s.chip.sameRegsBut c [0x20008])) ∧
  (∀ (s : State) (n : Fin 4) (rising : Bool) (frac10 : Nat), s.chip.timed = true → s.chip.time.capHeld.length = 4 →
    s.chip.time.capHeld.getD n.val none = none →
    ends (.capEdge n rising frac10) s (fun c =>
      c.time.capHeld.getD n.val none = some ⟨s.chip.time.at05 frac10, rising,
        timeRecOf (s.chip.time.now frac10) (!s.chip.timeValid),
        (s.chip.get ⟨0x20090, 8 * n.val, 2⟩).testBit (if rising then 0 else 1)⟩ ∧
      c.time.caps = s.chip.time.caps ∧ s.chip.Only [.time] c)) ∧
  (∀ (s : State) (n : Fin 4) (rising : Bool) (frac10 : Nat) (h : CapHold), s.chip.timed = true →
    s.chip.time.capHeld.length = 4 → s.chip.time.capHeld.getD n.val none = some h → h.rising = !rising →
    s.chip.time.at05 frac10 < h.at05 + 100 →
    ends (.capEdge n rising frac10) s (fun c => c.time.capHeld.getD n.val none = none ∧ c.time.caps = s.chip.time.caps ∧
      s.chip.Only [.time] c)) ∧
  (∀ (s : State) (n : Fin 4) (rising : Bool) (frac10 : Nat) (h : CapHold), s.chip.timed = true →
    s.chip.time.caps.length = 4 → s.chip.time.capHeld.getD n.val none = some h → h.enabled = true →
    h.rising = rising ∨ h.at05 + 100 ≤ s.chip.time.at05 frac10 →
    (s.chip.time.lastCap.getD n.val none).all (fun l => decide (l + 1000 ≤ h.at05)) = true →
    (s.chip.time.caps.getD n.val []).length < 16 →
    ends (.capEdge n rising frac10) s (fun c =>
      c.time.caps.getD n.val [] = s.chip.time.caps.getD n.val [] ++ [h.time] ∧ s.chip.Only [.time] c)) ∧
  (∀ (s : State) (n : Fin 4) (rising : Bool) (frac10 : Nat) (h : CapHold), s.chip.timed = true →
    s.chip.time.capHeld.getD n.val none = some h → h.enabled = true → h.rising = rising →
    s.chip.time.lastCap.getD n.val none = none → 16 ≤ (s.chip.time.caps.getD n.val []).length →
    ends (.capEdge n rising frac10) s (fun c => c.get (TIM_EVENT.CAPn_OVERRUN.bit n.val) = 1 ∧
      c.time.caps = s.chip.time.caps ∧ s.chip.Only [.regs, .time] c ∧ s.chip.sameRegsBut c [0x20008])) ∧
  (∀ (s : State) (n : Fin 4) (rising : Bool) (frac10 t : Nat) (h : CapHold), s.chip.timed = true →
    s.chip.time.capHeld.getD n.val none = some h → h.enabled = true → h.rising = rising →
    s.chip.time.lastCap.getD n.val none = some t → h.at05 < t + 1000 →
    ends (.capEdge n rising frac10) s (fun c =>
      c.count (timCnt (0x20 + 8 * n.val)) = min (s.chip.count (timCnt (0x20 + 8 * n.val)) + 1) (2 ^ 48 - 1) ∧
      c.time.caps = s.chip.time.caps ∧ s.chip.Only [.time, .counters] c)) ∧
  (∀ (s : State) (n : Fin 4) (e : TimeRec) (q : List TimeRec), s.chip.writable = true → s.chip.time.caps.length = 4 →
    s.chip.time.caps.getD n.val [] = e :: q →
    ends (.capPop n) s (fun c => c.time.caps.getD n.val [] = q ∧ c.answer.status = .ok ∧
      c.get ⟨0x200A4 + 16 * n.val, 0, 32⟩ = e.sec % 2 ^ 32 ∧ c.answer.words = [(c.reg (0x200A0 + 16 * n.val)).toNat] ∧
      s.chip.Only [.regs, .time, .answer] c))

/-- The triggers (R78, R112, R113, R114): arming with a target ahead, firing for the target that is due, in the tick where the
compare has become zero or negative, and not before; the end of a pulse. The level of the output follows `POL`.
Rows whose completion this states (`exec` answers a next state with the effect given): `trigArm`, `trigFire`,
`trigPulseEnd`.
Readings of the model's own: log entry 117. -/
def Obligations.Triggers : Prop :=
  (∀ (s : State) (n : Fin 4) (v : Nat), s.chip.st = .stopped ∨ s.chip.st = .running → s.chip.sel.txns = [] →
    s.chip.layoutOld = false → s.chip.time.trigs.length = 4 → v < 2 ^ 32 →
    s.chip.get (TIM_TRIGn_CTRL.MODE n) = 1 ∨ s.chip.get (TIM_TRIGn_CTRL.MODE n) = 2 →
    ((v : Int) - s.chip.now / nsU) % 2 ^ 32 < 2 ^ 31 → ((v : Int) - s.chip.now / nsU) % 2 ^ 32 ≠ 0 →
    ends (.trigArm n (.time v)) s (fun c => c.get (TIM_TRIGn_TIME.TIME n) = v ∧ c.answer.status = .ok ∧
      (c.trig n).target = some ((s.chip.now / nsU + ((v : Int) - s.chip.now / nsU) % 2 ^ 32) * nsU) ∧
      (c.trig n).fired = none ∧ (c.trig n).asserted = (s.chip.trig n).asserted)) ∧
  (∀ (s : State) (n : Fin 4) (g : Int), s.chip.timed = true → s.chip.timeValid = true → s.chip.time.trigs.length = 4 →
    s.chip.get (TIM_TRIGn_CTRL.MODE n) = 1 → (s.chip.trig n).target = some g → g < s.chip.nextTick →
    ends (.trigFire n) s (fun c => (c.trig n).asserted = true ∧ (c.trig n).target = none ∧
      c.trigLevel n = s.chip.bit (TIM_TRIGn_CTRL.POL n) ∧
      s.chip.time.c.toNat + max 1 (s.chip.get (TIM_TRIGn_CTRL.WIDTH n)) ≤ (c.trig n).till ∧
      c.get (TIM_TRIGn_CTRL.MODE n) = 0 ∧
      s.chip.Only [.regs, .time] c ∧ s.chip.sameRegsBut c [0x200E0 + 0x10 * n.val])) ∧
  (∀ (s : State) (n : Fin 4) (g : Int), s.chip.timed = true → s.chip.timeValid = true → s.chip.time.trigs.length = 4 →
    s.chip.get (TIM_TRIGn_CTRL.MODE n) = 2 → (s.chip.trig n).target = some g → (s.chip.trig n).fired = none →
    g < s.chip.nextTick →
    ends (.trigFire n) s (fun c => (c.trig n).asserted = true ∧ (c.trig n).fired = some g ∧
      (c.trig n).target = some (nextPeriod (s.chip.trig n).start (s.chip.trigPeriod n) (max g s.chip.now)) ∧
      s.chip.Only [.time] c)) ∧
  (∀ (s : State) (n : Fin 4) (g : Int), s.chip.timed = true → s.chip.timeValid = true → s.chip.time.trigs.length = 4 →
    s.chip.get (TIM_TRIGn_CTRL.MODE n) = 3 ∨ s.chip.get (TIM_TRIGn_CTRL.MODE n) = 4 → s.chip.trigDue n = some g →
    ends (.trigFire n) s (fun c => (c.trig n).asserted = true ∧ (c.trig n).target = none ∧ s.chip.Only [.time] c)) ∧
  (∀ (s : State) (n : Fin 4), s.chip.timed = true → s.chip.trigDue n = none → ends (.trigFire n) s (fun c => c = s.chip)) ∧
  (∀ (s : State) (n : Fin 4) (g : Int), s.chip.timed = true → s.chip.timeValid = false → s.chip.time.trigs.length = 4 →
    s.chip.get (TIM_TRIGn_CTRL.MODE n) = 1 → (s.chip.trig n).target = some g → g < s.chip.nextTick →
    ends (.trigFire n) s (fun c => (c.trig n).asserted = (s.chip.trig n).asserted ∧ (c.trig n).target = none ∧
      c.get (TIM_EVENT.TRIGn_MISSED.bit n) = 1 ∧ c.get (TIM_TRIGn_CTRL.MODE n) = 0)) ∧
  (∀ (s : State) (n : Fin 4), s.chip.timed = true → s.chip.time.trigs.length = 4 → (s.chip.trig n).asserted = true →
    (s.chip.trig n).till ≤ s.chip.time.c.toNat →
    ends (.trigPulseEnd n) s (fun c => (c.trig n).asserted = false ∧
      c.trigLevel n = !s.chip.bit (TIM_TRIGn_CTRL.POL n) ∧ s.chip.Only [.time] c)) ∧
  (∀ (s : State) (n : Fin 4), s.chip.timed = true → s.chip.time.c.toNat < (s.chip.trig n).till →
    ends (.trigPulseEnd n) s (fun c => c = s.chip))

/-- The grid (R104, R205): a frame boundary and a freeze point are taken once each, in their order, while time is valid;
while it is invalid there is neither.
Rows whose completion this states (`exec` answers a next state with the effect given): `frameBoundary`, `freezePoint`.
Readings of the model's own: log entry 56. -/
def Obligations.BoundariesAndFreezePoints : Prop :=
  (∀ (s : State) (n : Int), s.chip.timed = true → s.chip.timeValid = true → s.chip.pend = [] →
    s.chip.time.lastFrame = none ∨ s.chip.time.lastFrame = some (n - 1) →
    ends (.frameBoundary n) s (fun c => c.time.lastFrame = some n ∧ c.time.freezeDone = false ∧ c.now = s.chip.now)) ∧
  (∀ (s : State) (n : Int), s.chip.timed = true → s.chip.timeValid = true → s.chip.pend = [] → s.chip.time.freezeDone = false →
    s.chip.time.lastFrame = none ∨ s.chip.time.lastFrame = some n →
    ends (.freezePoint n) s (fun c => c.time.lastFrame = some n ∧ c.time.freezeDone = true ∧ c.now = s.chip.now)) ∧
  (∀ (s : State) (n : Int), s.chip.timed = true → s.chip.timeValid = false →
    ends (.frameBoundary n) s (fun c => c = s.chip) ∧ ends (.freezePoint n) s (fun c => c = s.chip))

/-! Work items, scan, chains and temperatures. -/

/-- Work items (R226, R230, R231, R237, R239, R265): a core that asks joins the idle queue, or takes the one ready item
with the gain set in force; a `DETECT` item that retires writes its planes, frees its slot and counts; a cancelled one
writes nothing.
Rows whose completion this states (`exec` answers a next state with the effect given): `coreRequest`, `itemRetire`.
Readings of the model's own: log entries 20 and 23. -/
def Obligations.CoresAndItems : Prop :=
  (∀ (s : State) (k : Fin 64), s.chip.timed = true → s.chip.sched.items = [] → s.chip.coreLive k.val = true →
    s.chip.sched.idle.contains k.val = false →
    ends (.coreRequest k) s (fun c => c.sched.idle = s.chip.sched.idle ++ [k.val] ∧ c.sched.items = [] ∧
      s.chip.Only [.sched] c)) ∧
  (∀ (s : State) (k : Fin 64) (i : Item), s.chip.timed = true → s.turn (.coreRequest k) = true →
    s.chip.sched.items = [i] → i.state = .ready → i.type = .detect ∨ i.type = .map → s.chip.coreLive k.val = true →
    s.chip.sched.idle = [] → s.chip.get SCH_TRACE_CTRL.TR_EN = 0 → s.canceling = false → s.chip.pend = [] →
    s.chip.sel.txns = [] → s.chip.sel.cmdq = [] → s.chip.gang.toSignal = [] → s.chip.ringsRest = true →
    s.chip.calib.run = none →
    ∃ t, exec (.coreRequest k) s = .next t ∧ t.chip.sched.idle = [] ∧
      t.chip.sched.items = [{ i with state := .running k.val, grantC := s.chip.time.c.toNat, gset := s.chip.gainSet }]) ∧
  (∀ (s : State) (k : Fin 64) (i : Item), s.chip.timed = true → s.chip.sched.items = [i] → i.state = .running k.val →
    i.type = .detect → i.cancel = none → s.chip.get SCH_TRACE_CTRL.TR_EN = 0 → i.buffer < s.chip.scan.stg.length →
    ends (.itemRetire k none) s (fun c => c.sched.items = [] ∧
      c.count 0x100600 = min (s.chip.count 0x100600 + 1) (2 ^ 48 - 1) ∧
      (c.staging i.buffer).det = (s.chip.staging i.buffer).det.set i.strip (some (s.chip.detRow i.strip)) ∧
      s.chip.Only [.sched, .regs, .scan, .counters] c ∧ s.chip.sameCountersBut c [0x100600])) ∧
  (∀ (s : State) (k : Fin 64) (i : Item) (r : Nat) (poison : Option (List Nat)), s.chip.timed = true → s.chip.sched.items = [i] →
    i.state = .running k.val → i.cancel = some r → r ≠ 0 → r ≠ 6 → r ≠ 7 → s.chip.get SCH_TRACE_CTRL.TR_EN = 0 →
    ends (.itemRetire k poison) s (fun c => c.sched.items = [] ∧ c.scan.stg = s.chip.scan.stg ∧
      s.chip.Only [.sched, .regs, .scan] c)) ∧
  (∀ (s : State) (k : Fin 64) (i : Item) (l : List Nat), s.chip.timed = true → s.chip.sched.items = [i] →
    i.state = .running k.val → i.type = .detect → i.cancel = none → s.chip.get SCH_TRACE_CTRL.TR_EN = 0 →
    i.buffer < s.chip.scan.stg.length →
    ends (.itemRetire k (some l)) s (fun c => c.sched.items = [] ∧ c.get SCH_EVENT.POISON_SEEN = 1 ∧
      (c.staging i.buffer).det = (s.chip.staging i.buffer).det.set i.strip none))

/-- Items of a sub-frame (R223, R233, R240, R242, R298): the release takes its free staging buffer, which it empties for the
new strips, or, in a shed frame, reuses; at a strip's deadline a strip that nothing has written starves; an item that does
not retire is a `CORE_HANG` of its core.
Rows whose completion this states (`exec` answers a next state with the effect given): `subframeRelease`,
`itemDeadline`, `itemHang`.
Readings of the model's own: log entries 23 and 91. -/
def Obligations.SubframeItems : Prop :=
  (∀ (s : State) (n : Int) (k f : Nat), s.chip.timed = true → s.chip.pend = [] → s.chip.was = [] → s.chip.sched.items = [] →
    s.chip.showsFrame n = true → s.chip.frozen n = true → s.chip.scan.freed.getD (s.chip.bufferOf n k) false = true →
    k < s.chip.subframes → s.chip.owner k = some f → s.chip.get SCH_STATUS.SHED_ACTIVE = 0 →
    (s.chip.bufferOf n k) < s.chip.scan.stg.length →
    ends (.subframeRelease n k) s (fun c => c.scan.freed = s.chip.scan.freed.set (s.chip.bufferOf n k) false ∧
      (c.staging (s.chip.bufferOf n k)).holds = some (n, k, f) ∧ (c.staging (s.chip.bufferOf n k)).marks = [] ∧
      (c.staging (s.chip.bufferOf n k)).codes = [])) ∧
  (∀ (s : State) (n : Int) (k l f : Nat), s.chip.timed = true → s.chip.pend = [] → s.chip.was = [] → s.chip.sched.items = [] →
    s.chip.showsFrame n = true → s.chip.frozen n = true → s.chip.scan.freed.getD (s.chip.bufferOf n k) false = true →
    k < s.chip.subframes → s.chip.owner k = some f → s.chip.get SCH_STATUS.SHED_ACTIVE = 1 →
    (s.chip.staging (s.chip.bufferOf n k)).holds = some (n, l, f) → s.chip.detSlot n ≠ some k →
    s.chip.bufferOf n k < s.chip.scan.stg.length →
    ends (.subframeRelease n k) s (fun c => c.sched.items = [] ∧
      (c.staging (s.chip.bufferOf n k)).codes = (s.chip.staging (s.chip.bufferOf n k)).codes ∧
      (c.staging (s.chip.bufferOf n k)).det = [none, none] ∧ s.chip.Only [.scan, .sched] c)) ∧
  (∀ (s : State) (n : Int) (k f r : Nat), s.chip.timed = true → s.chip.pend = [] → s.chip.was = [] → s.chip.sched.items = [] →
    s.chip.showsFrame n = true → k < s.chip.subframes → s.chip.owner k = some f → r < s.chip.stripCount f →
    (s.chip.staging (s.chip.bufferOf n k)).marks = [] → s.chip.scan.starved = [] →
    ends (.itemDeadline n k false r) s (fun c => c.scan.starved = [(n, k, r)] ∧ c.scan.display = s.chip.scan.display ∧
      c.sched.items = [])) ∧
  (∀ (s : State) (k : Fin 64) (i : Item), s.chip.timed = true → s.chip.sched.items = [i] → i.state = .running k.val →
    s.chip.coreUnfenced k.val = true → s.chip.errs.slots = [none, none, none, none] → s.chip.errs.waiting.flatten = [] →
    s.chip.errs.log.length < 128 →
    ends (.itemHang k) s (fun c => c.get ERR_STATUS.HANDLER_BUSY = 1 ∧ c.sched = s.chip.sched ∧
      (∃ j, c.errs.slots = [some j, none, none, none] ∧ j.code = 0x0106 ∧ j.unit = k.val ∧
        j.logSeq = s.chip.errs.nextSeq) ∧
      ∃ e ∈ c.errs.log, e.code = 0x0106 ∧ e.unit = k.val ∧ e.detail = i.slot ∧ e.seq = s.chip.errs.nextSeq))

/-- Sub-frames and rows (R283, R291, R293, R296, R299, R302, R309): a sub-frame edge begins the sub-frame and counts it in both
halves; a row slot has its row, with the codes of the lanes, zeros for a lane that is disabled or fenced, and plans the edges of
its row change, windows and shifts; in a sub-frame that no facet owns it turns the row off; the staging buffer is freed.
Rows whose completion this states (`exec` answers a next state with the effect given): `subframeEdge`, `rowSlotStart`,
`stagingBufferFree`. -/
def Obligations.SubframesAndRows : Prop :=
  (∀ (s : State) (n : Int) (k f : Nat), s.chip.timed = true → s.chip.timeValid = true → k < s.chip.subframes →
    s.chip.scan.display = .showing → s.chip.owner k = some f → s.chip.halfLive 0 = true → s.chip.halfLive 1 = true →
    ends (.subframeEdge n k) s (fun c => c.scan.sub = some (n, k) ∧ c.scan.rowOn = none ∧ c.scan.lanes = [] ∧
      c.count 0x100700 = min (s.chip.count 0x100700 + 1) (2 ^ 48 - 1) ∧
      c.count 0x100740 = min (s.chip.count 0x100740 + 1) (2 ^ 48 - 1) ∧
      s.chip.Only [.scan, .counters] c ∧ s.chip.sameCountersBut c [0x100700, 0x100740])) ∧
  (∀ (s : State) (n : Int) (k : Nat), s.chip.timed = true → s.chip.timeValid = true → k < s.chip.subframes →
    s.chip.st = .running → s.chip.owner k = none →
    ends (.subframeEdge n k) s (fun c => c.scan.sub = some (n, k) ∧ c.scan.rowOn = none ∧
      c.count 0x100708 = min (s.chip.count 0x100708 + 1) (2 ^ 48 - 1) ∧
      c.count 0x100748 = min (s.chip.count 0x100748 + 1) (2 ^ 48 - 1) ∧ s.chip.Only [.scan, .counters] c)) ∧
  (∀ (s : State) (n : Int) (k r f : Nat), s.chip.timed = true → s.chip.timeValid = true → k < s.chip.subframes →
    r < s.chip.rows → s.chip.scan.display = .showing → s.chip.owner k = some f → s.chip.halfLive 0 = true →
    ends (.rowSlotStart n k r) s (fun c => c.scan.rowOn = some r ∧
      c.scan.lanes.map (·.1) = allLanes.filter (fun l => s.chip.halfLive (laneHalf l)) ∧
      (∀ e ∈ c.scan.lanes, e.2 =
        (if s.chip.laneOn e.1 then s.chip.laneCodes n k f e.1 r else List.replicate s.chip.chainBits 0)) ∧
      (∀ o ∈ s.chip.slotEdges n k f r, o ∈ c.scan.lines.plan) ∧ s.chip.Only [.scan] c)) ∧
  (∀ (s : State) (n : Int) (k r : Nat), s.chip.timed = true → s.chip.timeValid = true → k < s.chip.subframes →
    r < s.chip.rows → s.chip.owner k = none →
    ends (.rowSlotStart n k r) s (fun c => c.scan.rowOn = none ∧ c.scan.lanes = [] ∧
      (∀ h ∈ s.chip.liveHalves, ⟨s.chip.slotQ n k r, h, .rowOff 0⟩ ∈ c.scan.lines.plan) ∧ s.chip.Only [.scan] c)) ∧
  (∀ (s : State) (n : Int) (k : Nat), s.chip.timed = true → k < s.chip.subframes →
    ends (.stagingBufferFree n k) s (fun c => c.scan.freed = s.chip.scan.freed.set (s.chip.bufferOf n k) true ∧
      c.scan.stg = s.chip.scan.stg ∧ s.chip.Only [.scan] c))

/-- The lock frame and the windows of the chains (R303, R318, R319, R320, R325): the lock frame is blank and writes the
enabled configuration words, as do `CFG_NOW` in Stopped and a readback window with `CFG_REFRESH`; the detection window
captures the tested row; a failed chain check clears the lane's `CHAIN_OK` and counts.
Rows whose completion this states (`exec` answers a next state with the effect given): `lockFrame`, `detectionWindow`,
`readbackWindow`, `readbackDone`, `cfgNow`.
Readings of the model's own: log entry 108. -/
def Obligations.LockFrameAndChainWindows : Prop :=
  (∀ (s : State) (n : Int), s.chip.timed = true → s.chip.timeValid = true → s.chip.scan.display = .waitLock →
    s.chip.st = .running → s.chip.get (ID_ROLES.ROLES.bit 0) = 1 → s.chip.get COL_CTRL.FACET_EN = 0 → s.chip.sched.items = [] →
    ends (.lockFrame n) s (fun c => c.scan.display = .blankUntil (n + 1) ∧ c.scan.freed = [true, true] ∧
      c.scan.starved = [] ∧ c.scan.rowOn = none ∧ c.get (SCN_x_EVENT.RELOCK 0) = 1 ∧ c.get (SCN_x_EVENT.RELOCK 1) = 1 ∧
      (∀ w, w < 4 → s.chip.get (CHN_CFGw.EN w) = 1 →
        ∀ q ∈ s.chip.liveQuads, (∃ o ∈ c.scan.lines.plan, o.unit = q ∧ o.op = .act (.config w)) ∧
          ∃ o ∈ c.scan.lines.plan, o.unit = q ∧
            o.op = .shift (.config (s.chip.get (CHN_CFGw.WORD w))) s.chip.readBit s.chip.chainBits))) ∧
  (∀ (s : State) (n : Int) (k : Nat) (h : Fin 2) (row : Nat), s.chip.timed = true → s.chip.subShown n k = true →
    s.chip.halfLive h.val = true → s.chip.detSlot n = some k →
    (s.chip.staging (s.chip.bufferOf n k)).det.getD h.val none = some row →
    ends (.detectionWindow n k h) s (fun c => (n, k, h.val, some row) ∈ c.scan.tests ∧
      (∀ t ∈ c.scan.tests, t.2.2.1 = h.val → t = (n, k, h.val, some row)) ∧ s.chip.Only [.scan] c)) ∧
  (∀ (s : State) (n : Int) (k : Nat), s.chip.timed = true → s.chip.readbackSub n k = true →
    s.chip.get CHN_CTRL.CFG_REFRESH = 1 →
    ends (.readbackWindow n k) s (fun c =>
      (∀ w, w < 4 → s.chip.get (CHN_CFGw.EN w) = 1 →
        ∀ q ∈ s.chip.liveQuads, (∃ o ∈ c.scan.lines.plan, o.unit = q ∧ o.op = .act (.config w)) ∧
          ∃ o ∈ c.scan.lines.plan, o.unit = q ∧
            o.op = .shift (.config (s.chip.get (CHN_CFGw.WORD w))) s.chip.readBit s.chip.chainBits) ∧
      (∀ o ∈ s.chip.scan.lines.plan, o ∈ c.scan.lines.plan) ∧
      c.count 0x100828 = min (s.chip.count 0x100828 + 1) (2 ^ 48 - 1) ∧ s.chip.Only [.scan, .counters] c ∧
      s.chip.sameCountersBut c [0x100828])) ∧
  (∀ (s : State) (n : Int) (k : Nat) (r : LaneRead), s.chip.timed = true → s.chip.readbackSub n k = true → k ≠ 0 →
    s.chip.get CHN_CTRL.TESTS ≠ 0 → r.lane < 64 → s.chip.laneOn r.lane = true → s.chip.halfLive (laneHalf r.lane) = true →
    s.chip.scan.tests = [] → s.chip.scan.display ≠ .showing → s.chip.markerOk r = true →
    ends (.readbackDone n k [r]) s (fun c =>
      c.get ((CHN_CHAIN_OK.CHAIN_OK (r.lane / 32)).bit (r.lane % 32)) = 1 ∧ c.chains = s.chip.chains ∧
      s.chip.Only [.regs, .scan] c ∧ s.chip.sameRegsBut c [0x90048 + 4 * (r.lane / 32)])) ∧
  (∀ (s : State) (n : Int) (k : Nat) (r : LaneRead), s.chip.timed = true → s.chip.readbackSub n k = true → k ≠ 0 →
    s.chip.get CHN_CTRL.TESTS ≠ 0 → r.lane < 64 → s.chip.laneOn r.lane = true → s.chip.halfLive (laneHalf r.lane) = true →
    s.chip.scan.tests = [] → s.chip.scan.display ≠ .showing → s.chip.markerOk r = false →
    ends (.readbackDone n k [r]) s (fun c =>
      c.get ((CHN_CHAIN_OK.CHAIN_OK (r.lane / 32)).bit (r.lane % 32)) = 0 ∧ c.chains = s.chip.chains ∧
      c.count 0x100810 = min (s.chip.count 0x100810 + 1) (2 ^ 48 - 1))) ∧
  (∀ s : State, s.chip.st = .stopped → s.chip.sel.txns = [] →
    ends .cfgNow s (fun c => c.answer.status = .ok ∧
      (∀ w, w < 4 → s.chip.get (CHN_CFGw.EN w) = 1 →
        ∀ q ∈ s.chip.liveQuads, (∃ o ∈ c.scan.lines.plan, o.unit = q ∧ o.op = .act (.config w)) ∧
          ∃ o ∈ c.scan.lines.plan, o.unit = q ∧
            o.op = .shift (.config (s.chip.get (CHN_CFGw.WORD w))) s.chip.readBit s.chip.chainBits) ∧
      s.chip.Only [.scan, .counters, .answer] c)) ∧
  (∀ s : State, s.chip.st = .running → s.chip.sel.txns = [] →
    ends .cfgNow s (fun c => c.answer.status = .busy ∧ s.chip.Only [.answer] c))

/-- The registers of the scheduler's peaks and trace and of the fault list (R249, R250, R323, R324).
Rows whose completion this states (`exec` answers a next state with the effect given): `peakClr`, `trClear`,
`tracePop`, `fmapClear`, `fmapRead`.
Readings of the model's own: log entry 97. -/
def Obligations.TraceAndFaultList : Prop :=
  (∀ s : State, s.chip.st = .stopped ∨ s.chip.st = .running → s.chip.sel.txns = [] →
    ends .peakClr s (fun c => c.get SCH_BUSY.BUSY_PEAK = s.chip.get SCH_BUSY.BUSY_LAST ∧
      c.get SCH_ITEMS.ITEMS_PEAK = s.chip.get SCH_STATUS.SLOTS_USED ∧ c.answer.status = .ok ∧
      s.chip.Only [.regs, .answer] c ∧ s.chip.sameRegsBut c [0x60010, 0x60014])) ∧
  (∀ s : State, s.chip.st = .stopped ∨ s.chip.st = .running → s.chip.sel.txns = [] →
    ends .trClear s (fun c => c.sched.trace = [] ∧ c.get SCH_TRACE_STATUS.TR_COUNT = 0 ∧
      c.get SCH_TRACE_STATUS.TR_WRAPPED = 0 ∧ c.get SCH_TRACE_STATUS.TR_FROZEN = 0 ∧ c.answer.status = .ok ∧
      s.chip.Only [.regs, .sched, .answer] c ∧ s.chip.sameRegsBut c [0x60034])) ∧
  (∀ (s : State) (w0 w1 w2 w3 : Nat) (q : List (List Nat)), s.chip.writable = true →
    s.chip.sched.trace = [w0, w1, w2, w3] :: q → s.chip.sched.traceC ≠ some s.chip.time.c.toNat →
    ends .tracePop s (fun c => c.sched.trace = q ∧ c.answer = ⟨.ok, [w0 % 2 ^ 32]⟩ ∧
      c.get ⟨0x60044, 0, 32⟩ = w1 % 2 ^ 32 ∧ c.get ⟨0x60048, 0, 32⟩ = w2 % 2 ^ 32 ∧
      c.get ⟨0x6004C, 0, 32⟩ = w3 % 2 ^ 32 ∧ c.get SCH_TRACE_STATUS.TR_COUNT = q.length % 2 ^ 13 ∧
      s.chip.Only [.regs, .sched, .answer] c)) ∧
  (∀ s : State, s.chip.writable = true → s.chip.sched.trace = [] →
    ends .tracePop s (fun c => c.answer = ⟨.ok, [0]⟩ ∧ s.chip.Only [.regs, .answer] c)) ∧
  (∀ s : State, s.chip.st = .stopped ∨ s.chip.st = .running → s.chip.sel.txns = [] → s.chip.chains.faults ≠ [] →
    ends .fmapClear s (fun c => c.chains.faults = [] ∧ c.get CHN_FMAP_STAT.FMAP_COUNT = 0 ∧
      c.get CHN_FMAP_STAT.FMAP_GEN = (s.chip.get CHN_FMAP_STAT.FMAP_GEN + 1) % 2 ^ 16 ∧ c.answer.status = .ok ∧
      s.chip.Only [.regs, .chains, .answer] c ∧ s.chip.sameRegsBut c [0x90050])) ∧
  (∀ (s : State) (i : Fin 4096), s.chip.writable = true →
    s.chip.chains.faults.find? (fun e => e.1 == i.val) = none →
    ends (.fmapRead i) s (fun c => c.answer = ⟨.ok, [0]⟩ ∧ c.get ⟨0x91004 + 8 * i.val, 0, 32⟩ = 0 ∧
      c.chains = s.chip.chains ∧ s.chip.Only [.regs, .answer] c)) ∧
  (∀ (s : State) (i : Fin 4096) (e : FaultEntry), s.chip.writable = true →
    s.chip.chains.faults.find? (fun x => x.1 == i.val) = some (i.val, e) → e.x < 2 ^ 12 → e.y < 2 ^ 12 → e.ch < 4 →
    e.lane < 2 ^ 6 → e.row < 2 ^ 6 → e.pos < 2 ^ 10 → e.count < 2 ^ 4 →
    ends (.fmapRead i) s (fun c => c.answer.status = .ok ∧
      c.get ⟨0x91004 + 8 * i.val, 0, 12⟩ = e.x ∧ c.get ⟨0x91004 + 8 * i.val, 12, 12⟩ = e.y ∧
      (c.answer.words.headD 0).testBit 31 = true ∧ s.chip.Only [.regs, .answer] c))

/-- Temperatures (R263, R327 to R330): a zone goes stale; a poll begins with the enabled slots; a reading within -40 to
150 degrees is kept, another counts as invalid; a bus found stuck at a transfer counts one for every slot of the bus; an NTC at either end of its range is invalid.
Rows whose completion this states (`exec` answers a next state with the effect given): `zoneStale`, `sensorPoll`,
`sensorReadDone`, `ntcConversion`.
Readings of the model's own: log entries 17 and 18. -/
def Obligations.Temperatures : Prop :=
  (∀ (s : State) (z : Fin 16), s.chip.timed = true → s.chip.zoneSrc z.val < 12 → s.chip.colour.srcs.length = 12 →
    ends (.zoneStale z) s (fun c => c.zoneTemp z.val = c.getS COL_TEMP_CFG.TEMP_FAIL ∧
      c.get (COL_EVENT.ZONE_STALE.bit z.val) = 1)) ∧
  (∀ s : State, s.chip.timed = true →
    ends (.sensorPoll false false) s (fun c =>
      c.chains.polling = (List.range 12).filter (fun n => s.chip.bit (CHN_SENSs.EN n)) ∧ s.chip.Only [.chains] c)) ∧
  (∀ (s : State) (n : Fin 12) (q : List Nat) (raw : Nat), s.chip.timed = true → s.chip.chains.polling = n.val :: q →
    s.chip.fifoFenced (busFifo n.val) = false → -640 ≤ sensorCode (s.chip.get (CHN_SENSs.FMT n.val)) raw →
    sensorCode (s.chip.get (CHN_SENSs.FMT n.val)) raw ≤ 2400 →
    ends (.sensorReadDone n (.value raw)) s (fun c => c.chains.polling = q ∧ c.get (CHN_TEMPs.VALID n.val) = 1 ∧
      c.get (CHN_TEMPs.TEMP n.val) = satSigned 16 (sensorCode (s.chip.get (CHN_SENSs.FMT n.val)) raw) ∧
      s.chip.Only [.regs, .chains, .colour] c ∧ s.chip.sameRegsBut c [0x900A0 + 4 * n.val])) ∧
  (∀ (s : State) (n : Fin 12) (q : List Nat), s.chip.timed = true → s.chip.chains.polling = n.val :: q →
    ends (.sensorReadDone n .noAck) s (fun c => c.chains.polling = q ∧ c.get (CHN_TEMPs.VALID n.val) = 0 ∧
      c.count 0x100830 = min (s.chip.count 0x100830 + 1) (2 ^ 48 - 1) ∧ c.colour = s.chip.colour)) ∧
  (∀ (s : State) (n : Fin 12) (q : List Nat), s.chip.timed = true → s.chip.chains.polling = n.val :: q →
    ends (.sensorReadDone n .stuck) s (fun c => (∀ t ∈ c.chains.polling, busOf t ≠ busOf n.val) ∧
      (∀ t, t < 12 → busOf t = busOf n.val → c.get (CHN_TEMPs.VALID t) = 0) ∧
      c.count 0x100830 = min (s.chip.count 0x100830 + (if n.val < 8 then 8 else 4)) (2 ^ 48 - 1) ∧
      c.colour = s.chip.colour)) ∧
  (∀ (s : State) (a : Fin 4) (n : Nat), s.chip.timed = true → s.chip.get (CHN_NTCa_CFG1.NTC_EN a.val) = 1 →
    n < 16 ∨ 4079 < n → n < 4096 →
    ends (.ntcConversion a n) s (fun c => c.get (CHN_NTC_TEMPa.CODE a.val) = n ∧
      c.get (CHN_NTC_TEMPa.VALID a.val) = 0 ∧
      c.count 0x100838 = min (s.chip.count 0x100838 + 1) (2 ^ 48 - 1) ∧ c.colour = s.chip.colour)) ∧
  (∀ (s : State) (a : Fin 4) (n : Nat) (t : Int), s.chip.timed = true → s.chip.get (CHN_NTCa_CFG1.NTC_EN a.val) = 1 →
    16 ≤ n → n ≤ 4079 → s.chip.fifoFenced 26 = false →
    s.chip.ntcCode a.val n (Config.choice s.chip.freeCtr) = some t → -640 ≤ t → t ≤ 2400 →
    ends (.ntcConversion a n) s (fun c => c.get (CHN_NTC_TEMPa.CODE a.val) = n ∧
      c.get (CHN_NTC_TEMPa.VALID a.val) = 1 ∧ c.get (CHN_NTC_TEMPa.TEMP a.val) = satSigned 16 t ∧
      (s.chip.calib.adcTo = none → c.calib = s.chip.calib) ∧
      (∀ (o : Int) (g : Nat), s.chip.calib.adcTo = some (o, g) → g < 2 ^ 16 → c.calib.adcTo = none ∧
        c.get CAL_ADC.ADC_OFS = satSigned 16 o ∧ c.get CAL_ADC.ADC_GAIN = g) ∧
      s.chip.Only [.regs, .colour, .freeCtr, .calib] c ∧ s.chip.sameRegsBut c [0x900F0 + 4 * a.val, 0xF0014]))

/-! Network ports. -/

/-- Reception (R133, R137, R138, R144, R192, R194). `RX_FRAME` ends with an accepted frame counted with its bytes and its buffers
held in the regions of the rotation; with a frame that is delivered nowhere counted and its buffers free again; with a bad frame
counted under its reason and no buffers held; with a full ring, the frame dropped and `WM_HIT` latched; a rise of the occupancy to
the watermark latches `WM_HIT` and counts the crossing. `RING_BUFFER_RELEASE` ends with the buffers given back, unless a queued
command keeps the frame; `WM_HIT_CLEAR` ends with the flag and the crossings zero and the peak at the present occupancy.
Rows whose completion this states (`exec` answers a next state with the effect given): `rxFrame`, `ringBufferRelease`,
`wmHitClear`.
Readings of the model's own: log entry 55. -/
def Obligations.ReceptionAndRing : Prop :=
  (∀ (s : State) (p : PortIx) (h : FrameHead), s.chip.awake = true → s.chip.power.portsUp = true →
    s.chip.portLive p = true → s.chip.linkUp p = true → s.chip.get (PRTn_STATUS.FEC_ACT p) = 0 → h.linkCut = false →
    h.codeErr = false → h.fcsOk = true → 64 ≤ h.len → h.len ≤ s.chip.maxLen p →
    s.chip.ringUsed p + rxBuffers (s.chip.maxLen p) h.len ≤ s.chip.ringSize →
    s.chip.ringUsed p + rxBuffers (s.chip.maxLen p) h.len < s.chip.wmLevel p →
    s.chip.get (PRTn_CTRL.FWD_EN p) = 0 → s.chip.delivers p h = true → s.chip.dstKind p h.dst ≠ .macControl →
    ends (.rxFrame p h .other) s (fun c =>
      c.count (portCnt p 0x00) = min (s.chip.count (portCnt p 0x00) + 1) (2 ^ 48 - 1) ∧
      c.count (portCnt p 0x08) = min (s.chip.count (portCnt p 0x08) + h.len) (2 ^ 48 - 1) ∧
      (c.port p).held = (s.chip.port p).held ++ [⟨(s.chip.takeBuffers p ((h.len + 1023) / 1024)).1, true, false⟩] ∧
      (c.port p).nextRegion = (s.chip.takeBuffers p ((h.len + 1023) / 1024)).2 ∧
      c.get (PRTn_RING_STAT.RING_USED p) = c.ringUsed p % 2 ^ 12 ∧
      s.chip.Only [.regs, .counters, .ports] c ∧ s.chip.sameRegsBut c [0x30014 + 0x8000 * p.val] ∧
      s.chip.sameCountersBut c [portCnt p 0x00, portCnt p 0x08])) ∧
  (∀ (s : State) (p : PortIx) (h : FrameHead) (b : RxBody), s.chip.awake = true → s.chip.power.portsUp = true →
    s.chip.portLive p = true → s.chip.linkUp p = true → s.chip.get (PRTn_STATUS.FEC_ACT p) = 0 → h.linkCut = false →
    h.codeErr = false → h.fcsOk = true → 64 ≤ h.len → h.len ≤ s.chip.maxLen p →
    s.chip.ringUsed p + rxBuffers (s.chip.maxLen p) h.len ≤ s.chip.ringSize →
    s.chip.ringUsed p + rxBuffers (s.chip.maxLen p) h.len < s.chip.wmLevel p →
    s.chip.get (PRTn_CTRL.FWD_EN p) = 0 → s.chip.delivers p h = false →
    ends (.rxFrame p h b) s (fun c =>
      c.count (portCnt p 0x00) = min (s.chip.count (portCnt p 0x00) + 1) (2 ^ 48 - 1) ∧
      c.count (portCnt p 0x50) = min (s.chip.count (portCnt p 0x50) + 1) (2 ^ 48 - 1) ∧
      (c.port p).held = (s.chip.port p).held ∧ s.chip.Only [.regs, .counters, .ports] c ∧
      s.chip.sameRegsBut c [0x30014 + 0x8000 * p.val])) ∧
  (∀ (s : State) (p : PortIx) (h : FrameHead) (b : RxBody), s.chip.awake = true → s.chip.power.portsUp = true →
    s.chip.portLive p = true → s.chip.linkUp p = true → s.chip.get (PRTn_STATUS.FEC_ACT p) = 0 → h.linkCut = false →
    h.codeErr = false → h.fcsOk = false → 64 ≤ h.len → h.len ≤ s.chip.maxLen p →
    s.chip.ringUsed p + rxBuffers (s.chip.maxLen p) h.len ≤ s.chip.ringSize →
    s.chip.ringUsed p + rxBuffers (s.chip.maxLen p) h.len < s.chip.wmLevel p → s.chip.get (PRTn_CTRL.FWD_EN p) = 0 →
    ends (.rxFrame p h b) s (fun c =>
      c.count (portCnt p 0x10) = min (s.chip.count (portCnt p 0x10) + 1) (2 ^ 48 - 1) ∧
      s.chip.Only [.regs, .counters] c ∧ s.chip.sameRegsBut c [0x30014 + 0x8000 * p.val] ∧
      s.chip.sameCountersBut c [portCnt p 0x10])) ∧
  (∀ (s : State) (p : PortIx) (h : FrameHead) (b : RxBody), s.chip.awake = true → s.chip.power.portsUp = true →
    s.chip.portLive p = true → s.chip.linkUp p = true → s.chip.ringSize ≤ s.chip.ringUsed p →
    s.chip.get (PRTn_CTRL.FWD_EN p) = 0 →
    ends (.rxFrame p h b) s (fun c =>
      c.count (portCnt p 0x38) = min (s.chip.count (portCnt p 0x38) + 1) (2 ^ 48 - 1) ∧
      c.get (PRTn_EVENT.WM_HIT p) = 1 ∧ c.ringUsed p = s.chip.ringUsed p)) ∧
  (∀ (s : State) (p : PortIx) (h : FrameHead) (b : RxBody), s.chip.awake = true → s.chip.power.portsUp = true →
    s.chip.portLive p = true → s.chip.linkUp p = true → h.linkCut = false → h.codeErr = false → h.fcsOk = false →
    64 ≤ h.len → h.len ≤ s.chip.maxLen p → s.chip.ringUsed p + rxBuffers (s.chip.maxLen p) h.len ≤ s.chip.ringSize →
    s.chip.ringUsed p < s.chip.wmLevel p → s.chip.wmLevel p ≤ s.chip.ringUsed p + rxBuffers (s.chip.maxLen p) h.len →
    s.chip.get (PRTn_CTRL.FWD_EN p) = 0 →
    ends (.rxFrame p h b) s (fun c => c.get (PRTn_EVENT.WM_HIT p) = 1 ∧
      c.get (PRTn_RING_CROSS.WM_CROSSINGS p) = min (s.chip.get (PRTn_RING_CROSS.WM_CROSSINGS p) + 1) (2 ^ 32 - 1))) ∧
  (∀ (s : State) (p : PortIx) (k : Nat) (h : HeldFrame), s.chip.awake = true → (s.chip.port p).held[k]? = some h →
    h.kept = false →
    ends (.ringBufferRelease p k) s (fun c => (c.port p).held = (s.chip.port p).held.eraseIdx k ∧
      c.get (PRTn_RING_STAT.RING_USED p) = c.ringUsed p % 2 ^ 12 ∧
      s.chip.Only [.regs, .ports] c ∧ s.chip.sameRegsBut c [0x30014 + 0x8000 * p.val])) ∧
  (∀ (s : State) (p : PortIx) (k : Nat) (h : HeldFrame), s.chip.awake = true → (s.chip.port p).held[k]? = some h →
    h.kept = true → ends (.ringBufferRelease p k) s (fun c => c = s.chip)) ∧
  (∀ (s : State) (p : PortIx), s.chip.st = .stopped ∨ s.chip.st = .running → s.chip.sel.txns = [] →
    s.chip.layoutOld = false →
    ends (.wmHitClear p) s (fun c => c.get (PRTn_EVENT.WM_HIT p) = 0 ∧ c.get (PRTn_RING_CROSS.WM_CROSSINGS p) = 0 ∧
      c.get (PRTn_RING_STAT.RING_PEAK p) = s.chip.ringUsed p % 2 ^ 12 ∧ c.answer.status = .ok ∧
      s.chip.Only [.regs, .answer, .sched] c ∧ c.sched = { s.chip.sched with shedEnd := c.sched.shedEnd }))

/-- Links and the cage (R119, R121, R122, R131, R132): the rise and the loss of a link, the search of a mode, a module seated or
removed, and a fault of the transmitter, each with the levels of the cage and the PCS as the command reports them.
Rows whose completion this states (`exec` answers a next state with the effect given): `linkUpSeen`, `linkDown`,
`speedSearchTimeout`, `modChange`, `txFaultSeen`. -/
def Obligations.LinksAndCage : Prop :=
  (∀ (s : State) (p : PortIx) (speed : Nat) (a b d : Bool), s.chip.awake = true → (s.chip.port p).up = true →
    (s.chip.port p).mode = speed → s.chip.portLive p = true → s.chip.linkUp p = false → speed < 8 →
    ends (.linkUpSeen ⟨p, a, b, d⟩ speed) s (fun c => c.linkUp p = true ∧ c.get (PRTn_STATUS.BLOCK_LOCK p) = 1 ∧
      c.get (PRTn_STATUS.LOS p) = (if a then 1 else 0) ∧
      c.get (PRTn_STATUS.SPEED_ACT p) = speed ∧ c.get (PRTn_EVENT.LINK_UP_SEEN p) = 1 ∧ s.chip.Only [.regs] c ∧
      s.chip.sameRegsBut c [0x30008, 0x38008, 0x3000C + 0x8000 * p.val])) ∧
  (∀ (s : State) (p : PortIx) (a b d : Bool), s.chip.awake = true → s.chip.linkUp p = true →
    ends (.linkDown ⟨p, a, b, d⟩) s (fun c => c.linkUp p = false ∧
      c.get (PRTn_STATUS.BLOCK_LOCK p) = (if d then 1 else 0) ∧
      c.get (PRTn_EVENT.LINK_DOWN p) = 1 ∧ c.get (CLK_Pp_FOFS.FOFS p) = 0x80000000 ∧ (c.port p).txq = [] ∧
      (c.port p).sending = .idle ∧ (c.port (otherPort p)).fwd = [] ∧
      c.count (portCnt p 0x90) = min (s.chip.count (portCnt p 0x90) + (s.chip.port p).txq.length) (2 ^ 48 - 1) ∧
      c.count (portCnt (otherPort p) 0x78) =
        min (s.chip.count (portCnt (otherPort p) 0x78) + ((s.chip.port (otherPort p)).fwd.length +
          (if s.chip.forwarding p then 1 else 0))) (2 ^ 48 - 1) ∧
      s.chip.Only [.regs, .counters, .ports, .emul] c ∧
      s.chip.sameRegsBut c [0x30008, 0x38008, 0x3000C + 0x8000 * p.val, 0x10014 + 4 * p.val])) ∧
  (∀ (s : State) (p : PortIx) (a b d : Bool), s.chip.awake = true → s.chip.searches p = true →
    s.chip.linkUp p = false → (s.chip.port p).up = true →
    ends (.speedSearchTimeout ⟨p, a, b, d⟩) s (fun c =>
      (c.port p).mode = (if (s.chip.port p).mode = 3 then 2 else if (s.chip.port p).mode = 2 then 1 else 3) ∧
      c.get (PRTn_STATUS.SPEED_ACT p) = 0 ∧ s.chip.Only [.regs, .ports] c ∧
      s.chip.sameRegsBut c [0x30008, 0x38008, 0x3000C + 0x8000 * p.val])) ∧
  (∀ (s : State) (p : PortIx) (absent : Bool) (best : Nat) (a b d : Bool), s.chip.awake = true →
    s.chip.get (PRTn_CTRL.SPEED p) = 4 → s.chip.power.portsUp = true →
    ends (.modChange ⟨p, a, b, d⟩ absent best) s (fun c => c.get (PRTn_STATUS.MOD_ABS p) = (if absent then 1 else 0) ∧
      c.get (PRTn_EVENT.MOD_CHANGE p) = 1 ∧ (c.port p).mode = (if absent then 3 else best) ∧
      (c.port p).moduleBest = (if absent then 0 else best) ∧ s.chip.Only [.regs, .ports] c ∧
      s.chip.sameRegsBut c [0x30008, 0x38008, 0x3000C + 0x8000 * p.val])) ∧
  (∀ (s : State) (p : PortIx) (a b d : Bool), s.chip.awake = true → s.chip.get (PRTn_STATUS.TX_FAULT p) = 0 →
    ends (.txFaultSeen ⟨p, a, b, d⟩) s (fun c => c.get (PRTn_STATUS.TX_FAULT p) = 1 ∧ c.get (PRTn_EVENT.TX_FAULT_SEEN p) = 1 ∧
      s.chip.Only [.regs] c ∧ s.chip.sameRegsBut c [0x30008 + 0x8000 * p.val, 0x3000C + 0x8000 * p.val]))

/-- Transmission (R84, R88, R127, R130, R131, R135, R141): a forwarded frame starts on an idle egress unless a local frame goes
first; a correctionField at its greatest value stays there and is counted; an egress that becomes idle takes the oldest local frame
when nothing is forwarded, and after `FWD_BURST` forwarded frames; a local frame is queued, padded and with its tag, or discarded
and counted while the link is down, or dropped by a full queue.
Rows whose completion this states (`exec` answers a next state with the effect given): `fwdStart`, `egressIdle`,
`localTxEnqueue`.
Readings of the model's own: log entries 34 and 127. -/
def Obligations.Transmission : Prop :=
  (∀ (s : State) (p : PortIx) (x : FwdFrame) (l : List FwdFrame), s.chip.awake = true →
    (s.chip.port (otherPort p)).sending = .idle → (s.chip.port p).fwd = x :: l → x.ptp = none →
    s.chip.linkUp (otherPort p) = true → s.chip.localFirst (otherPort p) = false →
    ends (.fwdStart p) s (fun c => (c.port (otherPort p)).sending = .forwarded x ∧ (c.port p).fwd = l ∧
      (c.port (otherPort p)).txq = (s.chip.port (otherPort p)).txq ∧ s.chip.Only [.ports, .freeCtr] c)) ∧
  (∀ (s : State) (p : PortIx) (x : FwdFrame) (l : List FwdFrame) (m : PtpHead), s.chip.awake = true →
    (s.chip.port (otherPort p)).sending = .idle → (s.chip.port p).fwd = x :: l → x.ptp = some m → m.correction = cfTop →
    s.chip.get TIM_CTRL.TC_MODE = 1 ∨ s.chip.get TIM_CTRL.TC_MODE = 2 →
    s.chip.linkUp (otherPort p) = true → s.chip.localFirst (otherPort p) = false →
    ends (.fwdStart p) s (fun c =>
      (match (c.port (otherPort p)).sending with
        | .forwarded y => y.len = x.len ∧ y.stomped = x.stomped ∧ y.ptp.map (·.correction) = some cfTop
        | _ => False) ∧
      c.count (timCnt 0x40) = min (s.chip.count (timCnt 0x40) + 1) (2 ^ 48 - 1) ∧ (c.port p).fwd = l ∧
      s.chip.Only [.ports, .freeCtr, .counters] c)) ∧
  (∀ (s : State) (p : PortIx), s.chip.awake = true → s.chip.localFirst (otherPort p) = true →
    ends (.fwdStart p) s (fun c => c = s.chip)) ∧
  (∀ (s : State) (p : PortIx) (f : TxFrame), s.chip.awake = true → s.chip.linkUp p = true →
    (s.chip.port p).sending = .localFrame f → (s.chip.port p).txq = [] → (s.chip.port (otherPort p)).fwd = [] →
    ends (.egressIdle p) s (fun c => (c.port p).sending = .idle ∧
      c.count (portCnt p 0x58) = min (s.chip.count (portCnt p 0x58) + 1) (2 ^ 48 - 1) ∧
      c.count (portCnt p 0x60) = min (s.chip.count (portCnt p 0x60) + f.len) (2 ^ 48 - 1) ∧
      s.chip.Only [.ports, .counters] c)) ∧
  (∀ (s : State) (p : PortIx) (f : TxFrame) (q : List TxFrame) (x : FwdFrame) (r : List FwdFrame),
    s.chip.awake = true → s.chip.linkUp p = true → (s.chip.port p).sending = .idle → (s.chip.port p).txq = f :: q →
    (s.chip.port (otherPort p)).fwd = x :: r → max 1 (s.chip.get (PRTn_CTRL.FWD_BURST p)) ≤ (s.chip.port p).burst →
    ends (.egressIdle p) s (fun c => (c.port p).sending = .localFrame f ∧ (c.port p).txq = q ∧ (c.port p).burst = 0 ∧
      (c.port (otherPort p)).fwd = x :: r ∧ s.chip.Only [.ports] c)) ∧
  (∀ (s : State) (p : PortIx) (f : TxFrame) (q : List TxFrame) (x : FwdFrame) (r : List FwdFrame),
    s.chip.awake = true → s.chip.linkUp p = true → (s.chip.port p).sending = .idle → (s.chip.port p).txq = f :: q →
    (s.chip.port (otherPort p)).fwd = x :: r → (s.chip.port p).burst < max 1 (s.chip.get (PRTn_CTRL.FWD_BURST p)) →
    x.ptp = none →
    ends (.egressIdle p) s (fun c => (c.port p).sending = .forwarded x ∧ (c.port p).txq = f :: q ∧
      (c.port (otherPort p)).fwd = r ∧ (c.port p).burst = (s.chip.port p).burst + 1 ∧
      s.chip.Only [.ports, .freeCtr] c)) ∧
  (∀ (s : State) (p : PortIx) (len : Nat), s.chip.awake = true → s.chip.power.portsUp = true →
    ends (.localTxEnqueue p len) s (fun c =>
      if s.chip.linkUp p = false then
        c.count (portCnt p 0x90) = min (s.chip.count (portCnt p 0x90) + 1) (2 ^ 48 - 1) ∧ s.chip.Only [.counters] c
      else if 64 ≤ (s.chip.port p).txq.length then c.get (PRTn_EVENT.TXQ_OVERRUN p) = 1 ∧ s.chip.Only [.regs] c
      else (c.port p).txq = (s.chip.port p).txq ++ [⟨.other, max 64 (len + s.chip.tagBytes p), s.chip.txTag p⟩] ∧
        s.chip.Only [.ports] c))

/-- Addressing and membership (R140, R143): the answer to an ARP request or neighbour solicitation for the port's own address, and
none for another; the repeat of a report; the answer to a query of the group's family.
Rows whose completion this states (`exec` answers a next state with the effect given): `arpRequest`, `mcReportRepeat`,
`mcQuery`.
Readings of the model's own: log entry 33. -/
def Obligations.AddressingAndReports : Prop :=
  (∀ (s : State) (p : PortIx) (ip asker : Nat), s.chip.awake = true → s.chip.power.imageRunning = true →
    s.chip.linkUp p = true → s.chip.ownsIp p ip = true → (s.chip.port p).txq.length < 64 →
    ends (.arpRequest p ip asker) s (fun c =>
      (∃ n, (c.port p).txq = (s.chip.port p).txq ++ [s.chip.txFrame p ⟨.arpReply ip asker, n⟩]) ∧
      s.chip.Only [.ports] c)) ∧
  (∀ (s : State) (p : PortIx) (ip asker : Nat), s.chip.awake = true → s.chip.ownsIp p ip = false →
    ends (.arpRequest p ip asker) s (fun c => c = s.chip)) ∧
  (∀ (s : State) (p : PortIx) (g src n : Nat) (joining : Bool), s.chip.awake = true → s.chip.linkUp p = true →
    (s.chip.port p).reports = [(g, src, joining, n)] → (s.chip.port p).txq.length < 64 →
    ends (.mcReportRepeat p) s (fun c =>
      (∃ m, (c.port p).txq = (s.chip.port p).txq ++ [s.chip.txFrame p ⟨.mcReport g src joining, m⟩]) ∧
      (c.port p).reports = (if 1 < n then [(g, src, joining, n - 1)] else []) ∧ s.chip.Only [.ports] c)) ∧
  (∀ (s : State) (p : PortIx) (v6 : Bool) (g src query : Nat), s.chip.awake = true → s.chip.power.imageRunning = true →
    s.chip.linkUp p = true → (s.chip.port p).table = [(g, src)] → isIpGroup g = true → isMapped4 g = !v6 →
    query = 0 ∨ query = g → (s.chip.port p).txq.length < 64 →
    ends (.mcQuery p ⟨v6, query⟩) s (fun c =>
      (∃ m, (c.port p).txq = (s.chip.port p).txq ++ [s.chip.txFrame p ⟨.mcReport g src true, m⟩]) ∧
      s.chip.Only [.ports] c)) ∧
  (∀ (s : State) (p : PortIx) (v6 : Bool) (g src query : Nat), s.chip.awake = true →
    (s.chip.port p).table = [(g, src)] → isMapped4 g = v6 →
    ends (.mcQuery p ⟨v6, query⟩) s (fun c => c = s.chip))

/-- Statistics and the wake detector (R144, R147, R148): the read of a counter's low word clears the counter and keeps its
bits 47:32; the lowest pattern that matches wakes the device.
Rows whose completion this states (`exec` answers a next state with the effect given): `statsCounterRead`,
`wakeMatch`.
Readings of the model's own: log entry 55. -/
def Obligations.StatisticsAndWake : Prop :=
  (∀ (s : State) (a : Nat), s.chip.writable = true → (counterBlock a).isSome = true → a % 8 = 0 →
    ends (.statsCounterRead a) s (fun c => c.answer = ⟨.ok, [s.chip.count a % 2 ^ 32]⟩ ∧ c.count a = 0 ∧
      (c.readWord (a + 4)).2 = s.chip.count a / 2 ^ 32 ∧ s.chip.Only [.counters, .snaps, .answer] c ∧
      s.chip.sameCountersBut c [a])) ∧
  (∀ (s : State) (frame : List Byte) (m : Nat), s.chip.st = .dormant → s.chip.power.wakeArmed = true →
    s.chip.linkUp 0 = true → 64 ≤ frame.length → frame.length ≤ 1522 →
    (List.range 4).find? (fun m => s.chip.aon.matches m frame) = some m →
    ends (.wakeMatch frame true) s (fun c => c.st = .reset ∧ c.power.pwrenMain = true ∧ c.aon.fromDormant = true ∧
      c.aon.wakeSrc = 1 ∧ c.aon.wakePattern = m ∧ c.aon.resetCause = s.chip.aon.resetCause)) ∧
  (∀ (s : State) (frame : List Byte) (ok : Bool), s.chip.st = .dormant → ok = false ∨ s.chip.power.wakeArmed = false →
    ends (.wakeMatch frame ok) s (fun c => c = s.chip))

/-! Streams and the bridge. -/

/-- Timers of contexts and DMX (R165, R167, R168, R187, R188, R397, R398, R401): without synchronization packets the slots are
used at once; a source that falls silent leaves, and the next is followed and counted; a context without packets is lost; a
path without packets is inactive. A DMX packet with a short BREAK or a framing error counts as bad; a good one gives its slots
to the context that names the port; at a send instant the output buffer is sent, with `IDLE_LEVEL` where nothing has
written.
Rows whose completion this states (`exec` answers a next state with the effect given): `sacnSyncTimeout`,
`sacnSourceTimeout`, `sourceLost`, `p0ActiveTimeout`, `dmxRxPacket`, `dmxSendInstant`.
Readings of the model's own: log entries 56 and 84. -/
def Obligations.ContextTimersAndDmx : Prop :=
  (∀ (s : State) (x : Fin 512), s.chip.ingests = true → s.chip.ctxEn x.val = true → s.chip.ctxType x.val = ctxSacn →
    (s.chip.ctx x.val).syncUniv ≠ 0 →
    ends (.sacnSyncTimeout x) s (fun c => (c.ctx x.val).syncFree = true ∧
      (c.ctx x.val).latest = (s.chip.ctx x.val).latest ∧ s.chip.Only [.ctxs] c)) ∧
  (∀ (s : State) (x : Fin 512) (a b pa pb : Nat), s.chip.ingests = true → s.chip.ctxEn x.val = true →
    s.chip.ctxType x.val = ctxSacn → (s.chip.ctx x.val).sources = [(a, pa), (b, pb)] → a ≠ b →
    (s.chip.ctx x.val).followed = some a →
    ends (.sacnSourceTimeout x a) s (fun c => (c.ctx x.val).sources = [(b, pb)] ∧ (c.ctx x.val).followed = some b ∧
      c.count (ctxCnt x.val 0x60) = min (s.chip.count (ctxCnt x.val 0x60) + 1) (2 ^ 48 - 1) ∧
      c.get (STC_CSTAT.SOURCE_CHANGE_SEEN x.val) = 1)) ∧
  (∀ (s : State) (x : Fin 512), s.chip.ingests = true → s.chip.ctxActs x.val = true → s.chip.ctxState x.val = 2 →
    (s.chip.ctx x.val).syncUniv = 0 → s.chip.ctxMaps x.val = false →
    ends (.sourceLost x) s (fun c => c.ctxState x.val = 3 ∧ (c.ctx x.val).waiting = none ∧
      (c.ctx x.val).sources = (s.chip.ctx x.val).sources ∧ c.feeds = s.chip.feeds)) ∧
  (∀ (s : State) (x : Fin 512) (p : PortIx), s.chip.ingests = true → s.chip.ctxActs x.val = true →
    ends (.p0ActiveTimeout x p) s (fun c => c.get (activeFld x.val p) = 0 ∧
      c.get (activeFld x.val (otherPort p)) = s.chip.get (activeFld x.val (otherPort p)) ∧
      s.chip.Only [.regs] c ∧ s.chip.sameRegsBut c [0x48000 + 0x10 * x.val])) ∧
  (∀ (s : State) (p : Fin 4) (framing : Bool) (startCode : Nat) (slots : List Byte), s.chip.ingests = true →
    s.chip.dmxMode p.val = 2 → s.chip.bridgeLive = true →
    ends (.dmxRxPacket p true framing startCode slots) s (fun c =>
      c.count (brgCnt p.val 0x10) = min (s.chip.count (brgCnt p.val 0x10) + 1) (2 ^ 48 - 1) ∧
      c.get (BRG_PORTp_EVENT.RX_SHORT_BREAK p.val) = 1 ∧ c.dmx = s.chip.dmx)) ∧
  (∀ (s : State) (p : Fin 4) (startCode : Nat) (slots : List Byte), s.chip.ingests = true →
    s.chip.dmxMode p.val = 2 → s.chip.bridgeLive = true → startCode ≠ 0 → startCode ≠ 0xCC →
    ends (.dmxRxPacket p false false startCode slots) s (fun c =>
      c.count (brgCnt p.val 0x08) = min (s.chip.count (brgCnt p.val 0x08) + 1) (2 ^ 48 - 1) ∧
      s.chip.Only [.counters] c ∧ s.chip.sameCountersBut c [brgCnt p.val 0x08])) ∧
  (∀ (s : State) (p : Fin 4) (x : Nat) (slots : List Byte), s.chip.ingests = true → s.chip.dmxMode p.val = 2 →
    s.chip.bridgeLive = true → x < 512 → s.chip.ctxActs x = true → s.chip.ctxType x = ctxDmx →
    s.chip.get (STC_MATCH.STREAM_ID x) = p.val → s.chip.ctxMaps x = false →
    (∀ y, y < 512 → y ≠ x → s.chip.ctxEn y = false) → slots.length = 512 →
    ends (.dmxRxPacket p false false 0 slots) s (fun c => (c.ctx x).latest = slots.map (·.toNat) ++
        (s.chip.ctx x).latest.drop 512 ∧ c.ctxState x = 2 ∧ s.chip.Only [.regs, .counters, .ctxs] c ∧
      s.chip.sameRegsBut c [0x48000 + 0x10 * x])) ∧
  (∀ (s : State) (p : Fin 4), s.chip.ingests = true → s.chip.dmxMode p.val = 1 → s.chip.bridgeLive = true →
    (s.chip.dmxPort p.val).toIdle = [] → (s.chip.dmxPort p.val).runq = [] →
    ends (.dmxSendInstant p) s (fun c => (c.dmxPort p.val).sent =
        (List.range (s.chip.get (BRG_PORTp_CFG.SLOTS p.val))).map (fun k =>
          (smGet (fun _ => none) (s.chip.dmxPort p.val).out (k + 1)).getD (s.chip.get (BRG_PORTp_CFG.IDLE_LEVEL p.val))) ∧
      (c.dmxPort p.val).lastSend = some s.chip.now ∧ (c.dmxPort p.val).delayed = false ∧
      c.count (brgCnt p.val 0x00) = min (s.chip.count (brgCnt p.val 0x00) + 1) (2 ^ 48 - 1) ∧
      s.chip.Only [.dmx, .counters] c ∧ s.chip.sameCountersBut c [brgCnt p.val 0x00]))

/-- RDM and the port semaphores (R402, R404, R405): the response to a request ends it with its data, or with
`NO_RESPONSE`; an ACK_TIMER wait ends in a further request; the final result goes to the requester; a lease expires, and
a request that waits too long ends with `SEM_TIMEOUT`.
Rows whose completion this states (`exec` answers a next state with the effect given): `rdmResponse`,
`ackTimerWaitEnd`, `bridgeResult`, `semExpired`, `semTimeout`.
Readings of the model's own: log entry 75. -/
def Obligations.RdmAndSemaphores : Prop :=
  (∀ (s : State) (p : Fin 4) (r : RdmReq) (q : List RdmReq), s.chip.ingests = true →
    (s.chip.dmxPort p.val).runq = r :: q → (s.chip.dmxPort p.val).phase = .sent →
    ends (.rdmResponse p .none) s (fun c => (c.dmxPort p.val).phase = .done .farFailed 0x01 r.pid [] ∧
      (c.dmxPort p.val).runq = r :: q ∧ c.get (BRG_PORTp_STATUS.RDM_BUSY p.val) = 0 ∧
      s.chip.Only [.regs, .dmx] c ∧ s.chip.sameRegsBut c [0xA0010 + 0x20 * p.val])) ∧
  (∀ (s : State) (p : Fin 4) (r : RdmReq) (q : List RdmReq) (uid pid : Nat) (data : List Byte), s.chip.ingests = true →
    (s.chip.dmxPort p.val).runq = r :: q → (s.chip.dmxPort p.val).phase = .sent → r.kind ≠ 3 →
    (s.chip.dmxPort p.val).joined.length + data.length ≤ 243 →
    ends (.rdmResponse p (.ack uid pid data)) s (fun c => (∃ body, (c.dmxPort p.val).phase = .done .ok 0 0 body ∧
        body.drop 13 = (s.chip.dmxPort p.val).joined ++ data) ∧ s.chip.Only [.regs, .dmx] c ∧
      s.chip.sameRegsBut c [0xA0010 + 0x20 * p.val])) ∧
  (∀ (s : State) (p : Fin 4) (r : RdmReq) (q : List RdmReq), s.chip.ingests = true →
    (s.chip.dmxPort p.val).runq = r :: q → (s.chip.dmxPort p.val).phase = .timerWait →
    s.chip.time.c.toNat - (s.chip.dmxPort p.val).startC < s.chip.get BRG_RDM.ACK_TIMER_MAX * 80000000 →
    ends (.ackTimerWaitEnd p) s (fun c => (c.dmxPort p.val).phase = .sent ∧
      c.count (brgCnt p.val 0x18) = min (s.chip.count (brgCnt p.val 0x18) + 1) (2 ^ 48 - 1) ∧
      s.chip.Only [.regs, .dmx, .counters] c)) ∧
  (∀ (s : State) (p : Fin 4) (r : RdmReq) (body : List Byte), s.chip.ingests = true → s.chip.bridgeLive = true →
    (s.chip.dmxPort p.val).runq = [r] → (s.chip.dmxPort p.val).phase = .done .ok 0 0 body →
    (s.chip.dmxPort p.val).waiting = [] → r.cmd.src = .host → r.cmd.noReply = false → r.cmd.node ≠ 0xFFFF →
    s.chip.sel.hostOut.length < 4 → s.chip.heldPlace r.cmd = none →
    ends (.bridgeResult p) s (fun c => (c.dmxPort p.val).runq = [] ∧ s.chip.answered c r.cmd .ok body ∧
      s.chip.Only [.regs, .dmx, .sel, .answer] c)) ∧
  (∀ (s : State) (p : Fin 4), s.chip.ingests = true → (s.chip.dmxPort p.val).holder.isSome = true →
    (s.chip.dmxPort p.val).waiting = [] →
    ends (.semExpired p) s (fun c => (c.dmxPort p.val).holder = none ∧ c.get (BRG_PORTp_STATUS.SEM_HELD p.val) = 0 ∧
      c.get (BRG_PORTp_EVENT.SEM_EXPIRED p.val) = 1)) ∧
  (∀ (s : State) (p : Fin 4) (r : RdmReq) (q : List RdmReq), s.chip.ingests = true →
    (s.chip.dmxPort p.val).waiting = r :: q → r.cmd.src = .host → r.cmd.noReply = false → r.cmd.node ≠ 0xFFFF →
    s.chip.sel.hostOut.length < 4 → s.chip.heldPlace r.cmd = none →
    ends (.semTimeout p) s (fun c => (c.dmxPort p.val).waiting = q ∧
      c.count (brgCnt p.val 0x28) = min (s.chip.count (brgCnt p.val 0x28) + 1) (2 ^ 48 - 1) ∧
      c.answer.status = .semTimeout ∧ c.sel.hostOut.length = s.chip.sel.hostOut.length + 1 ∧
      s.chip.Only [.regs, .dmx, .counters, .sel, .answer] c))

/-! The control plane. -/

/-- `PING`, `IDENTIFY` and `READ` (R352, R355, R361, R362, R363, R443): what each answers to the host, and that nothing else
changes but the idle time of a transaction that the command names. A command that names a transaction neither open nor
scheduled is refused with `TXN_UNKNOWN`.
Rows whose completion this states (`exec` answers a next state with the effect given): `ping`, `identify`, `read`. -/
def Obligations.PingIdentifyRead : Prop :=
  (∀ (s : State) (cmd : Cmd), s.chip.hostRuns cmd 0x0001 = true → cmd.payload.length ≤ 64 →
    ends (.ping cmd) s (fun c => s.chip.answered c cmd .ok cmd.payload ∧ s.chip.Only [.answer, .counters, .sel] c ∧
      c.sel.txns = (s.chip.touchTxn cmd).sel.txns)) ∧
  (∀ (s : State) (cmd : Cmd), s.chip.st = .stopped ∨ s.chip.st = .running → s.chip.hostAsks cmd = true →
    cmd.opcode = 0x0001 → cmd.epoch = s.chip.epoch → cmd.payload.length ≤ 64 → s.chip.namesUnknown cmd = true →
    ends (.ping cmd) s (fun c => s.chip.answered c cmd .txnUnknown [] ∧ s.chip.Only [.answer, .counters, .sel] c)) ∧
  (∀ (s : State) (cmd : Cmd), s.chip.hostRuns cmd 0x0002 = true → cmd.payload = [] →
    ends (.identify cmd) s (fun c => s.chip.answered c cmd .ok s.chip.identity ∧
      s.chip.Only [.answer, .counters, .sel] c)) ∧
  (∀ (s : State) (cmd : Cmd), s.chip.hostRuns cmd 0x0010 = true → cmd.payload = [0#8, 1#8] → cmd.arg % 4 = 0 →
    badWord 1 cmd.arg = none →
    ends (.read cmd []) s (fun c => s.chip.answered c cmd .ok (bytesBE 4 (s.chip.readWord cmd.arg).2) ∧
      (s.chip.readWord cmd.arg).1.Only [.answer, .counters, .sel] c)) ∧
  (∀ (s : State) (cmd : Cmd), s.chip.hostRuns cmd 0x0010 = true → cmd.payload = [0#8, 1#8] → cmd.arg % 4 = 0 →
    badWord 1 cmd.arg = none →
    ends (.read cmd [0]) s (fun c => s.chip.answered c cmd .poison [0#8, 0#8, 0#8, 0#8] ∧
      (s.chip.readWord cmd.arg).1.Only [.answer, .counters, .sel] c)) ∧
  (∀ (s : State) (cmd : Cmd), s.chip.hostRuns cmd 0x0010 = true → cmd.payload = [0#8, 1#8] → cmd.arg % 4 ≠ 0 →
    ends (.read cmd []) s (fun c => s.chip.answered c cmd .badAddress [] ∧ s.chip.Only [.answer, .counters, .sel] c))

/-- `WRITE`, `WRITE_MASKED` and the write of one field (R352, R353): a class L word takes the written bits and no other; a
class S word keeps its value in Running; an unaligned address is refused; and a write of part
of one register that is not answered `OK` changes nothing. `ID_SEL_NOTIFY` and `ID_NODE` stand for their
classes.
Rows whose completion this states (`exec` answers a next state with the effect given): `write`, `writeMasked`,
`registerWrite`.
Readings of the model's own: log entries 41 and 66. -/
def Obligations.Writes : Prop :=
  (∀ (s : State) (cmd : Cmd) (v : Nat), s.chip.hostRuns cmd 0x0011 = true → cmd.payload = bytesBE 4 v → v < 2 ^ 32 →
    cmd.arg = 0x104 → cmd.txn = 0 → s.chip.sel.txns = [] → s.chip.layoutOld = false →
    ends (.write cmd) s (fun c => s.chip.answered c cmd .ok (writeResult 0xFFFFFFFF 0xFFFF false) ∧
      c.get (ID_SEL_NOTIFY.NOTIFY_ADDR 0) = v ∧ s.chip.Only [.regs, .answer, .counters, .sel, .sched] c ∧
      c.sched = { s.chip.sched with shedEnd := c.sched.shedEnd } ∧ s.chip.sameRegsBut c [0x104])) ∧
  (∀ (s : State) (cmd : Cmd) (m v : Nat), s.chip.hostRuns cmd 0x0012 = true →
    cmd.payload = bytesBE 4 m ++ bytesBE 4 v → m < 2 ^ 32 → v < 2 ^ 32 → cmd.arg = 0x104 → cmd.txn = 0 →
    s.chip.sel.txns = [] → s.chip.layoutOld = false →
    ends (.writeMasked cmd) s (fun c => s.chip.answered c cmd .ok (writeResult 0xFFFFFFFF 0xFFFF false) ∧
      (∀ b, b < 32 → (c.reg 0x104).getLsbD b = (if m.testBit b then v.testBit b else (s.chip.reg 0x104).getLsbD b)) ∧
      s.chip.Only [.regs, .answer, .counters, .sel, .sched] c ∧
      c.sched = { s.chip.sched with shedEnd := c.sched.shedEnd } ∧ s.chip.sameRegsBut c [0x104])) ∧
  (∀ (s : State) (m v : BitVec 32), s.chip.st = .stopped ∨ s.chip.st = .running → s.chip.sel.txns = [] →
    s.chip.layoutOld = false →
    ends (.registerWrite 0x104 m v) s (fun c => c.answer.status = .ok ∧
      (∀ b, b < 32 → (c.reg 0x104).getLsbD b = (if m.getLsbD b then v.getLsbD b else (s.chip.reg 0x104).getLsbD b)) ∧
      s.chip.Only [.regs, .answer, .sched] c ∧ c.sched = { s.chip.sched with shedEnd := c.sched.shedEnd } ∧
      s.chip.sameRegsBut c [0x104])) ∧
  (∀ (s : State) (v : BitVec 32), s.chip.st = .running → s.chip.sel.txns = [] →
    v.toNat % 2 ^ 16 ≠ s.chip.get ID_NODE.NODE_ID →
    ends (.registerWrite 0x20 0xFFFF#32 v) s (fun c => c.answer.status = .fieldClass ∧ s.chip.Only [.answer] c)) ∧
  (∀ (s : State) (v : BitVec 32), s.chip.st = .stopped → s.chip.sel.txns = [] → s.chip.layoutOld = false →
    ends (.registerWrite 0x20 0xFFFF#32 v) s (fun c => c.answer.status = .ok ∧
      c.get ID_NODE.NODE_ID = v.toNat % 2 ^ 16 ∧ s.chip.Only [.regs, .answer, .sched] c ∧
      c.sched = { s.chip.sched with shedEnd := c.sched.shedEnd } ∧ s.chip.sameRegsBut c [0x20])) ∧
  (∀ (s : State) (a : Nat) (m v : BitVec 32), s.chip.st = .stopped ∨ s.chip.st = .running → a % 4 ≠ 0 →
    ends (.registerWrite a m v) s (fun c => c.answer = ⟨.badAddress, []⟩ ∧ s.chip.Only [.answer] c)) ∧
  (∀ (s : State) (a : Nat) (m v : BitVec 32), ends (.registerWrite a m v) s (fun c =>
    c.answer.status = .ok ∨ s.chip.Only [.answer] c))

/-- Transactions (R355, R356, R358, R361): one opens with a fresh ID; its commit puts its words in force at once and closes
it; a rollback leaves the registers as they are; its status is told; and 10 s without a command end it.
Rows whose completion this states (`exec` answers a next state with the effect given): `txnBegin`, `txnCommit`,
`txnRollback`, `txnStatus`, `txnTimeout`, `txnDue`.
Readings of the model's own: log entry 40. -/
def Obligations.Transactions : Prop :=
  (∀ (s : State) (cmd : Cmd), s.chip.hostRuns cmd 0x0020 = true → cmd.payload = [] → cmd.gang = 0xFF →
    s.chip.sel.txns = [] → s.chip.sel.closed = [] →
    ends (.txnBegin cmd) s (fun c => s.chip.answered c cmd .ok [] ∧
      c.sel.txns = [⟨s.chip.sel.nextTxn, cmd.key.val, .isOpen, [], none, 0xFFFFFFFF, s.chip.time.c.toNat⟩] ∧
      c.get ID_SEL_STATUS.TXN_OPEN = 1 ∧ s.chip.Only [.regs, .answer, .counters, .sel] c)) ∧
  (∀ (s : State) (cmd : Cmd), s.chip.hostRuns cmd 0x0020 = true → cmd.payload = [] → 8 ≤ s.chip.sel.txns.length →
    ends (.txnBegin cmd) s (fun c => s.chip.answered c cmd .busy [] ∧ c.sel.txns.map (·.id) = s.chip.sel.txns.map (·.id) ∧
      s.chip.Only [.answer, .counters, .sel] c)) ∧
  (∀ (s : State) (cmd : Cmd) (t : Txn) (v : Nat), s.chip.hostRuns cmd 0x0021 = true →
    cmd.payload = List.replicate 12 0#8 → cmd.gang = 0xFF → s.chip.sel.txns = [t] → t.id = cmd.txn → t.key = cmd.key.val →
    t.state = .isOpen → t.words = [⟨0x104, 0xFFFFFFFF, v⟩] → v < 2 ^ 32 → s.chip.gang.txns = [] →
    s.chip.layoutOld = false →
    ends (.txnCommit cmd) s (fun c => s.chip.answered c cmd .ok (writeResult 0xFFFFFFFF 0xFFFF false) ∧ c.sel.txns = [] ∧
      c.get (ID_SEL_NOTIFY.NOTIFY_ADDR 0) = v ∧ s.chip.Only [.regs, .answer, .counters, .sel, .sched] c ∧
      c.sched = { s.chip.sched with shedEnd := c.sched.shedEnd } ∧
      s.chip.sameRegsBut c [0x104, 0x114])) ∧
  (∀ (s : State) (cmd : Cmd) (t : Txn), s.chip.hostRuns cmd 0x0022 = true → cmd.payload = [] → cmd.gang = 0xFF →
    s.chip.sel.txns = [t] → t.id = cmd.txn → t.key = cmd.key.val → t.state = .isOpen → s.chip.gang.txns = [] →
    ends (.txnRollback cmd) s (fun c => s.chip.answered c cmd .ok [] ∧ c.sel.txns = [] ∧
      (c.sel.closed.head?).map (·.state) = some .rolledBack ∧ s.chip.Only [.regs, .answer, .counters, .sel] c ∧
      s.chip.sameRegsBut c [0x114])) ∧
  (∀ (s : State) (cmd : Cmd) (t : Txn), s.chip.hostRuns cmd 0x0023 = true → cmd.payload = [] →
    s.chip.sel.txns = [t] → t.id = cmd.txn → t.key = cmd.key.val →
    ends (.txnStatus cmd) s (fun c => s.chip.answered c cmd .ok
        ([byteOf (txnCode t.state), 0#8, 0#8, 0#8] ++ bytesBE 4 t.words.length ++ bytesBE 4 t.effect) ∧
      c.sel.txns = [{ t with since := s.chip.time.c.toNat }] ∧ s.chip.Only [.answer, .counters, .sel] c)) ∧
  (∀ (s : State) (t : Txn), s.chip.timed = true → s.chip.sel.txns = [t] → t.state = .isOpen →
    t.since ≠ s.chip.time.c.toNat → s.chip.gang.txns = [] →
    ends (.txnTimeout t.id) s (fun c => c.sel.txns = [] ∧ (c.sel.closed.head?).map (·.state) = some .timedOut ∧
      c.reg 0x104 = s.chip.reg 0x104)) ∧
  (∀ (s : State) (t : Txn) (v : Nat), s.chip.st = .stopped ∨ s.chip.st = .running → s.chip.sel.txns = [t] →
    t.state = .scheduled → t.dueAt ≤ s.chip.now → t.words = [⟨0x104, 0xFFFFFFFF, v⟩] → v < 2 ^ 32 → s.chip.gang.txns = [] →
    s.chip.layoutOld = false →
    ends (.txnDue t.id) s (fun c => c.sel.txns = [] ∧ (c.sel.closed.head?).map (·.state) = some .applied ∧
      c.get (ID_SEL_NOTIFY.NOTIFY_ADDR 0) = v))

/-- Statistics, events and the trace by command (R144, R249, R366): a peek leaves the counters, a plain read clears them;
fetched and acknowledged events and fetched trace entries are removed, a word bad in both of its copies being given as 0 with
status `POISON` (R193, R443).
Rows whose completion this states (`exec` answers a next state with the effect given): `statsRead`, `eventFetch`,
`eventAck`, `traceRead`.
Readings of the model's own: log entry 50. -/
def Obligations.StatisticsEventsTrace : Prop :=
  (∀ (s : State) (cmd : Cmd), s.chip.hostRuns cmd 0x0040 = true → cmd.payload = [1#8, 1#8] → cmd.arg = 0x100500 →
    ends (.statsRead cmd) s (fun c => s.chip.answered c cmd .ok (bytesBE 8 (s.chip.count 0x100500)) ∧
      c.count 0x100500 = s.chip.count 0x100500 ∧ s.chip.Only [.answer, .counters, .sel] c)) ∧
  (∀ (s : State) (cmd : Cmd), s.chip.hostRuns cmd 0x0040 = true → cmd.payload = [1#8, 0#8] → cmd.arg = 0x100500 →
    ends (.statsRead cmd) s (fun c => s.chip.answered c cmd .ok (bytesBE 8 (s.chip.count 0x100500)) ∧
      c.count 0x100500 = 0 ∧ c.count 0x100508 = s.chip.count 0x100508 ∧ s.chip.Only [.answer, .counters, .sel] c)) ∧
  (∀ (s : State) (cmd : Cmd) (e : EventRec), s.chip.hostRuns cmd 0x0050 = true → cmd.payload = [1#8] →
    s.chip.evq = [e] → e.prio ≤ 7 →
    ends (.eventFetch ⟨cmd, []⟩) s (fun c => s.chip.answered c cmd .ok e.bytes ∧ c.evq = [] ∧
      s.chip.Only [.answer, .counters, .sel, .evq] c)) ∧
  (∀ (s : State) (cmd : Cmd), s.chip.hostRuns cmd 0x0050 = true → cmd.payload = [1#8] → s.chip.evq = [] →
    ends (.eventFetch ⟨cmd, []⟩) s (fun c => s.chip.answered c cmd .ok (List.replicate 24 0#8) ∧
      s.chip.Only [.answer, .counters, .sel] c)) ∧
  (∀ (s : State) (cmd : Cmd) (e : EventRec), s.chip.hostRuns cmd 0x0050 = true → cmd.payload = [1#8] →
    s.chip.evq = [e] → e.prio ≤ 7 →
    ends (.eventFetch ⟨cmd, [0]⟩) s (fun c => s.chip.answered c cmd .poison (List.replicate 4 0#8 ++ e.bytes.drop 4) ∧
      c.evq = [] ∧ s.chip.Only [.answer, .counters, .sel, .evq] c)) ∧
  (∀ (s : State) (cmd : Cmd) (e : EventRec), s.chip.hostRuns cmd 0x0051 = true → cmd.payload = bytesBE 4 e.id →
    e.id < 2 ^ 32 → s.chip.evq = [e] →
    ends (.eventAck cmd) s (fun c => s.chip.answered c cmd .ok [1#8] ∧ c.evq = [] ∧
      s.chip.Only [.answer, .counters, .sel, .evq] c)) ∧
  (∀ (s : State) (cmd : Cmd) (id : Nat), s.chip.hostRuns cmd 0x0051 = true → cmd.payload = bytesBE 4 id →
    id < 2 ^ 32 → (∀ e ∈ s.chip.evq, e.id ≠ id) →
    ends (.eventAck cmd) s (fun c => s.chip.answered c cmd .ok [0#8] ∧ c.evq = s.chip.evq ∧
      s.chip.Only [.answer, .counters, .sel] c)) ∧
  (∀ (s : State) (cmd : Cmd) (e : List Nat) (q : List (List Nat)), s.chip.hostRuns cmd 0x00B0 = true →
    cmd.payload = [1#8] → s.chip.sched.trace = e :: q → s.chip.sched.traceC ≠ some s.chip.time.c.toNat →
    ends (.traceRead ⟨cmd, []⟩) s (fun c => s.chip.answered c cmd .ok (e.flatMap (bytesBE 4)) ∧ c.sched.trace = q ∧
      c.get SCH_TRACE_STATUS.TR_COUNT = q.length % 2 ^ 13 ∧ s.chip.Only [.regs, .answer, .counters, .sel, .sched] c))

/-- `BULK_LOAD` and `GATE` (R261, R453, R455, R456, R457): a load into the calibration share is stored; a quiesced core is
marked and not fenced, and a resume unmarks it; a fenced core refuses both.
Rows whose completion this states (`exec` answers a next state with the effect given): `bulkLoad`, `gateQuiesce`,
`gateResume`.
Readings of the model's own: log entries 3 and 51. -/
def Obligations.BulkLoadAndGate : Prop :=
  (∀ (s : State) (cmd : Cmd) (o : Nat), s.chip.hostRuns cmd 0x0030 = true → cmd.txn = 0 → cmd.arg % 4 = 0 →
    4 ≤ cmd.payload.length → cmd.payload.length ≤ 8192 → cmd.payload.length % 16 = 0 →
    s.chip.shareAt cmd.arg cmd.payload.length = some (.cal, o) → o % 16 = 0 → s.chip.relayoutDue = false →
    ends (.bulkLoad cmd) s (fun c => s.chip.answered c cmd .ok [] ∧
      c.sramOps = s.chip.sramOps ++ [.store cmd.arg cmd.payload] ∧
      s.chip.Only [.answer, .counters, .sel, .sramOps] c)) ∧
  (∀ (s : State) (cmd : Cmd), s.chip.hostRuns cmd 0x0030 = true → cmd.txn = 0 →
    4 ≤ cmd.payload.length → cmd.payload.length ≤ 8192 → cmd.payload.length % 4 = 0 →
    s.chip.shareAt cmd.arg cmd.payload.length = none →
    ends (.bulkLoad cmd) s (fun c => s.chip.answered c cmd .badAddress [] ∧
      s.chip.Only [.answer, .counters, .sel] c)) ∧
  (∀ (s : State) (cmd : Cmd) (k : Fin 64), s.chip.hostRuns cmd 0x00C0 = true →
    cmd.payload = [0#8, 0#8, 0#8, byteOf k.val] → s.chip.coreUnfenced k.val = true →
    s.chip.bit (gateBit k.val) = false → s.chip.gateConflict cmd k.val = false → s.chip.unitInError k.val = false →
    s.chip.unitBusy k.val = false →
    ends (.gateQuiesce cmd true) s (fun c => s.chip.answered c cmd .ok [] ∧ c.bit (gateBit k.val) = true ∧
      c.coreLive k.val = false ∧ c.coreUnfenced k.val = true)) ∧
  (∀ (s : State) (cmd : Cmd) (k : Fin 64) (done : Bool), s.chip.hostRuns cmd 0x00C0 = true →
    cmd.payload = [0#8, 0#8, 0#8, byteOf k.val] → s.chip.coreUnfenced k.val = false →
    ends (.gateQuiesce cmd done) s (fun c => s.chip.answered c cmd .txnConflict [] ∧
      s.chip.Only [.answer, .counters, .sel] c)) ∧
  (∀ (s : State) (cmd : Cmd) (k : Fin 64), s.chip.hostRuns cmd 0x00C0 = true →
    cmd.payload = [0#8, 1#8, 0#8, byteOf k.val] → s.chip.coreUnfenced k.val = true →
    s.chip.bit (gateBit k.val) = true → s.chip.unitInError k.val = false →
    ends (.gateResume cmd) s (fun c => s.chip.answered c cmd .ok [] ∧ c.bit (gateBit k.val) = false ∧
      c.coreUnfenced k.val = true))

/-- `RESET` and `DORMANT` (R365): the reply is given first; while it has not left, nothing begins; once it has, the reset
with cause `COMMAND` or Dormant begins; with `NO_REPLY` it begins at acceptance; `DORMANT` in Updating and Fenced is `BUSY`.
In Recovery, where R351 and R365 differ, the model answers `BAD_OPCODE`.
Rows whose completion this states (`exec` answers a next state with the effect given): `reset`, `dormant`,
`commandActionStart`.
Readings of the model's own: log entry 112. -/
def Obligations.ResetAndDormantCommands : Prop :=
  (∀ (s : State) (cmd : Cmd) (b : BitVec 8), s.chip.hostRuns cmd 0x00D0 = true → cmd.payload = [b] →
    ends (.reset cmd) s (fun c => s.chip.answered c cmd .ok [] ∧ c.sel.action = some .reset ∧ c.st = s.chip.st ∧
      s.chip.Only [.answer, .counters, .sel] c)) ∧
  (∀ (s : State) (cmd : Cmd), s.chip.hostRuns cmd 0x00E0 = true → cmd.payload = [] →
    ends (.dormant cmd) s (fun c => s.chip.answered c cmd .ok [] ∧ c.sel.action = some .dormant ∧ c.st = s.chip.st ∧
      s.chip.Only [.answer, .counters, .sel] c)) ∧
  (∀ s : State, s.chip.awake = true → s.chip.sel.action = some .reset → s.chip.replyWaits 0x00D0 = true →
    ends .commandActionStart s (fun c => c = s.chip)) ∧
  (∀ s : State, s.chip.awake = true → s.chip.sel.action = some .dormant → s.chip.replyWaits 0x00E0 = true →
    ends .commandActionStart s (fun c => c = s.chip)) ∧
  (∀ s : State, s.chip.awake = true → s.chip.sel.action = some .reset → s.chip.replyWaits 0x00D0 = false →
    s.chip.sched.items = [] →
    ends .commandActionStart s (fun c => c.st = .reset ∧ c.aon.resetCause = causeCommand ∧ c.regs = [] ∧ c.evq = [] ∧
      c.sel = Selul.start ∧ c.errs.log = s.chip.errs.log)) ∧
  (∀ s : State, s.chip.st = .stopped ∨ s.chip.st = .running → s.chip.sel.action = some .dormant →
    s.chip.replyWaits 0x00E0 = false → s.chip.sched.items = [] →
    ends .commandActionStart s (fun c => c.st = .dormant ∧ c.regs = [] ∧ c.evq = [] ∧
      c.aon.wakeEn = s.chip.get PRT0_WAKE_CTRL.WAKE_EN ∧ c.aon.resetCause = s.chip.aon.resetCause)) ∧
  (∀ (s : State) (cmd : Cmd) (b : BitVec 8), s.chip.hostRuns { cmd with noReply := false } 0x00D0 = true →
    cmd.noReply = true → cmd.payload = [b] → s.chip.sched.items = [] →
    ends (.reset cmd) s (fun c => c.st = .reset ∧ c.aon.resetCause = causeCommand ∧ c.regs = [] ∧ c.evq = [])) ∧
  (∀ (s : State) (cmd : Cmd), s.chip.hostRuns { cmd with noReply := false } 0x00E0 = true → cmd.noReply = true →
    cmd.payload = [] → s.chip.sched.items = [] →
    ends (.dormant cmd) s (fun c => c.st = .dormant ∧ c.regs = [] ∧ c.evq = [])) ∧
  (∀ (s : State) (cmd : Cmd), s.chip.st = .updating ∨ s.chip.st = .fenced ∨ (s.chip.st = .recovery ∧ s.chip.power.locked = false) →
    s.chip.hostAsks cmd = true → cmd.opcode = 0x00E0 → cmd.epoch = s.chip.epoch → cmd.payload = [] →
    ends (.dormant cmd) s (fun c =>
      s.chip.answered c cmd (if s.chip.st = .recovery then .badOpcode else .busy) [] ∧
      c.sel.action = s.chip.sel.action ∧ c.st = s.chip.st ∧ s.chip.Only [.answer, .counters, .sel] c))

/-- Starting and stopping the display (R12, R33, R303, R304): START waits for a lock frame, and is refused where a rule of the
configuration is broken; STOP blanks the outputs.
Rows whose completion this states (`exec` answers a next state with the effect given): `start`, `stop`.
Readings of the model's own: log entry 96. -/
def Obligations.StartAndStop : Prop :=
  (∀ s : State, s.chip.st = .stopped → s.chip.sel.txns = [] → s.chip.pend = [] → s.chip.scan.tests = [] →
    s.chip.startOk = true →
    ends .start s (fun c => c.st = .running ∧ c.answer.status = .ok ∧
      c.scan.display = (if s.chip.timeValid then .waitLock else .blank) ∧ s.chip.Only [.st, .regs, .scan, .answer] c ∧
      s.chip.sameRegsBut c [0x80044, 0x88044])) ∧
  (∀ s : State, s.chip.st = .stopped → s.chip.sel.txns = [] → s.chip.pend = [] → s.chip.startOk = false →
    ends .start s (fun c => c.answer.status = .txnConflict ∧ s.chip.Only [.answer] c)) ∧
  (∀ s : State, s.chip.st = .running → s.chip.sel.txns = [] → s.chip.sched.items = [] →
    ends .stop s (fun c => c.st = .stopped ∧ c.scan.display = .blank ∧ c.scan.rowOn = none ∧ c.scan.lanes = [] ∧
      c.answer.status = .ok))

/-- Packets and the host port (R335, R336, R339, R344, R345, R347, R348): a fresh authentic packet for the device enters the
command queue; one with a wrong trailer, or with an old sequence number, does not and is counted; the host clocks its
replies out.
Rows whose completion this states (`exec` answers a next state with the effect given): `selulPacket`, `hqPut`,
`hqGet`, `hqStat`, `broadcastReply`.
Readings of the model's own: log entry 43. -/
def Obligations.PacketsAndHostPort : Prop :=
  (∀ (s : State) (p : PortIx) (ip : IpHdr) (b : List Byte), s.chip.st = .stopped ∨ s.chip.st = .running →
    s.chip.power.portsUp = true → ip.dport = 47800 → s.chip.linkUp p = true → s.chip.ownsIp p ip.dst = true →
    ip.frag = false → readable b = true → sizeRight b = true →
    s.chip.authentic s.nv (parseCmd (.net ip.src ip.sport) p b) b = true → s.chip.sel.requesters = [] →
    s.chip.sel.floors.getD (parseCmd (.net ip.src ip.sport) p b).key.val none = none → s.chip.gang.role ≠ .apex →
    s.chip.nodeMine (parseCmd (.net ip.src ip.sport) p b) = true →
    s.chip.gangMine (parseCmd (.net ip.src ip.sport) p b) = true → s.chip.sel.cmdq.length < 64 →
    ends (.selulPacket p ip b) s (fun c => c.sel.cmdq = s.chip.sel.cmdq ++ [(parseCmd (.net ip.src ip.sport) p b,
        s.nv.keyAt (parseCmd (.net ip.src ip.sport) p b).key.val)] ∧
      c.get ID_SEL_STATUS.CMDQ_USED = s.chip.sel.cmdq.length + 1 ∧ c.get ID_SEL_STATUS.REQUESTERS = 1 ∧
      c.ports = (s.chip.keepFrame p).ports ∧ s.chip.Only [.regs, .sel, .ports] c ∧ s.chip.sameRegsBut c [0x114])) ∧
  (∀ (s : State) (p : PortIx) (ip : IpHdr) (b : List Byte), s.chip.st = .stopped ∨ s.chip.st = .running →
    s.chip.power.portsUp = true → ip.dport = 47800 → s.chip.linkUp p = true → s.chip.ownsIp p ip.dst = true →
    ip.frag = false → readable b = true → sizeRight b = true →
    s.chip.authentic s.nv (parseCmd (.net ip.src ip.sport) p b) b = false →
    ends (.selulPacket p ip b) s (fun c => c.sel.cmdq = s.chip.sel.cmdq ∧ c.get ID_SEL_EVENT.AUTH_FAIL_SEEN = 1 ∧
      c.answer.status = .authFail ∧ c.sel.requesters = s.chip.sel.requesters)) ∧
  (∀ (s : State) (b : List Byte), s.chip.st = .stopped ∨ s.chip.st = .running → s.chip.hostServed = true →
    s.chip.emulates = false → s.chip.sel.hostIn < 2 → readable b = true → sizeRight b = true →
    s.chip.authentic s.nv (parseCmd .host 0 b) b = true → s.chip.judgeCmd (parseCmd .host 0 b) = .fresh →
    s.chip.gang.role ≠ .apex → s.chip.nodeMine (parseCmd .host 0 b) = true →
    s.chip.gangMine (parseCmd .host 0 b) = true → s.chip.sel.cmdq.length < 64 →
    ends (.hqPut b) s (fun c => c.sel.cmdq = s.chip.sel.cmdq ++ [(parseCmd .host 0 b,
        s.nv.keyAt (parseCmd .host 0 b).key.val)] ∧
      c.get ID_SEL_STATUS.CMDQ_USED = s.chip.sel.cmdq.length + 1 ∧ s.chip.Only [.regs, .sel] c ∧
      s.chip.sameRegsBut c [0x114])) ∧
  (∀ (s : State) (b : List Byte), s.chip.st = .stopped ∨ s.chip.st = .running → s.chip.hostServed = true →
    s.chip.emulates = false → s.chip.sel.hostIn < 2 → readable b = true → sizeRight b = true →
    s.chip.authentic s.nv (parseCmd .host 0 b) b = true → s.chip.judgeCmd (parseCmd .host 0 b) = .old →
    ends (.hqPut b) s (fun c => c.count 0x100928 = min (s.chip.count 0x100928 + 1) (2 ^ 48 - 1) ∧
      s.chip.Only [.counters] c ∧ s.chip.sameCountersBut c [0x100928])) ∧
  (∀ (s : State) (b : List Byte), s.chip.hostServed = true → s.chip.emulates = false → 2 ≤ s.chip.sel.hostIn →
    ends (.hqPut b) s (fun c => c.sel.hqOverrun = true ∧ c.sel.cmdq = s.chip.sel.cmdq ∧ s.chip.Only [.sel] c)) ∧
  (∀ (s : State) (n : Nat) (r : Reply) (l : List Reply), s.chip.hostServed = true → s.chip.emulates = false →
    s.chip.sel.hostOut = r :: l →
    ends (.hqGet n) s (fun c => c.answer = ⟨.ok, (List.range n).map (fun i => (r.bytes.getD i 0#8).toNat)⟩ ∧
      c.sel.hostOut = (if r.bytes.length ≤ n then l else r :: l) ∧ s.chip.Only [.answer, .sel] c)) ∧
  (∀ s : State, s.chip.hostServed = true → s.chip.emulates = false →
    ends .hqStat s (fun c => c.answer = ⟨.ok, [(if s.chip.sel.hostOut.isEmpty then 0 else 1) +
        (if s.chip.sel.hostIn < 2 then 2 else 0) + (if s.chip.evq.isEmpty then 0 else 4) +
        (if s.chip.sel.hqOverrun then 8 else 0)]⟩ ∧
      c.sel.hqOverrun = false ∧ s.chip.Only [.answer, .sel] c)) ∧
  (∀ (s : State) (r : Reply) (l : List Reply), s.chip.awake = true → s.chip.sel.delayed = r :: l → r.dst = .host →
    s.chip.sel.hostOut.length < 4 →
    ends .broadcastReply s (fun c => c.sel.delayed = l ∧ c.sel.hostOut = s.chip.sel.hostOut ++ [r] ∧
      s.chip.Only [.sel] c))

/-! Firmware, life-cycle and calibration. -/

/-- Loading and verifying an image (R468, R469, R470): the block at offset 0 starts a new load in the other slot; a bad block
is told; a verification is pending until its result; an image that fails a check is no longer `VALID` (R14).
Rows whose completion this states (`exec` answers a next state with the effect given): `fwBlock`, `blockBad`,
`fwVerify`, `verifyDone`.
Readings of the model's own: log entries 64, 138 and 139. -/
def Obligations.FirmwareLoad : Prop :=
  (∀ (s : State) (cmd : Cmd), s.chip.hostRuns cmd 0x0070 = true → cmd.arg = 0 → 4 ≤ cmd.payload.length →
    cmd.payload.length ≤ 8192 → s.chip.loading.buffered + cmd.payload.length ≤ 65536 →
    s.chip.get FWU_STATUS.ACT_PENDING = 0 → s.chip.loading.toVerify = none →
    ends (.fwBlock cmd) s (fun c => s.chip.answered c cmd .ok [] ∧ c.loading.ranges = [(0, cmd.payload.length)] ∧
      c.loading.buffered ≤ s.chip.loading.buffered + cmd.payload.length ∧ c.loading.bad = [] ∧ c.get FWU_STATUS.LOAD_STATE = 1 ∧ c.get FWU_STATUS.OTHER_VALID = 0 ∧
      c.nvOps = s.chip.nvOps ++ [.eraseImage s.nv.other 0 slotLen, .otherValid false,
        .writeImage s.nv.other 0 cmd.payload] ∧
      s.chip.Only [.regs, .loading, .nvOps, .freeCtr, .counters, .answer, .sel] c ∧
      s.chip.sameRegsBut c [0xE0004, 0xE0008, 0xE000C, 0xE0010, 0xE0014, 0xE001C])) ∧
  (∀ (s : State) (cmd : Cmd), s.chip.hostRuns cmd 0x0070 = true → 4 ≤ cmd.payload.length →
    cmd.payload.length ≤ 8192 → s.chip.loading.toVerify.isSome = true → cmd.arg % 4 = 0 →
    cmd.arg + cmd.payload.length ≤ slotLen →
    ends (.fwBlock cmd) s (fun c => s.chip.answered c cmd .busy [] ∧ s.chip.Only [.answer, .counters, .sel] c)) ∧
  (∀ (s : State) (i : Nat), s.chip.awake = true → s.chip.loading.active = true →
    s.chip.loading.ranges = [(0, imgLen (s.nv.image s.nv.other))] → 65536 * (i + 1) < imgLen (s.nv.image s.nv.other) →
    i < imgBlocks (s.nv.image s.nv.other) → s.chip.loading.bad = [] → blockGood (s.nv.image s.nv.other) i = false →
    ends (.blockBad i) s (fun c => c.loading.bad = [i] ∧ c.get FWU_EVENT.BLOCK_BAD = 1 ∧
      c.loading.ranges = s.chip.loading.ranges)) ∧
  (∀ (s : State) (cmd : Cmd), s.chip.hostRuns cmd 0x0071 = true → cmd.payload = [] → s.chip.loading.toVerify = none →
    ends (.fwVerify cmd) s (fun c => s.chip.answered c cmd .pending [] ∧
      c.loading.toVerify = some (cmd, s.nv.keyAt cmd.key.val) ∧ c.get FWU_STATUS.LOAD_STATE = 2 ∧
      s.chip.Only [.regs, .loading, .counters, .answer, .sel] c)) ∧
  (∀ (s : State) (cmd : Cmd) (key : Option (List Byte)), s.chip.awake = true →
    s.chip.loading.toVerify = some (cmd, key) → cmd.src = .host → cmd.noReply = false → cmd.node ≠ 0xFFFF →
    s.chip.sel.hostOut.length < 4 → s.chip.heldPlace cmd = none →
    ends .verifyDone s (fun c => c.loading.toVerify = none ∧ c.get FWU_EVENT.VERIFY_DONE = 1 ∧
      s.chip.answered c cmd .ok [byteOf (s.chip.verifyResult s.nv).1] ∧
      c.get FWU_VERIFY.RESULT = (s.chip.verifyResult s.nv).1 % 2 ^ 8 ∧
      c.get FWU_STATUS.LOAD_STATE = (if (s.chip.verifyResult s.nv).1 = 0 then 3 else 4) ∧
      (if (s.chip.verifyResult s.nv).1 = 1 then c.nvOps = s.chip.nvOps ∧
          c.get FWU_STATUS.OTHER_VALID = s.chip.get FWU_STATUS.OTHER_VALID
        else c.nvOps = s.chip.nvOps ++ [.otherValid (decide ((s.chip.verifyResult s.nv).1 = 0))] ∧
          c.get FWU_STATUS.OTHER_VALID = (if (s.chip.verifyResult s.nv).1 = 0 then 1 else 0))))

/-- Activation, revert and saved settings (R33, R473, R474, R476, R478). A copy holds the values in force at `SAVE`.
Rows whose completion this states (`exec` answers a next state with the effect given): `fwActivate`,
`activationStart`, `actCancel`, `fwRevert`, `save`, `saveDone`.
Readings of the model's own: log entries 64, 65 and 126. -/
def Obligations.ActivationAndSettings : Prop :=
  (∀ (s : State) (cmd : Cmd), s.chip.hostRuns cmd 0x0072 = true → cmd.payload = List.replicate 12 0#8 →
    s.chip.get FWU_STATUS.OTHER_VALID = 1 → s.chip.get FWU_STATUS.ACT_PENDING = 0 →
    ends (.fwActivate cmd) s (fun c => s.chip.answered c cmd .ok [] ∧ c.sel.action = some .activate ∧
      s.chip.Only [.answer, .counters, .sel] c)) ∧
  (∀ (s : State) (cmd : Cmd) (g : FullTime), s.chip.hostRuns cmd 0x0072 = true →
    cmd.payload = [1#8, 0#8] ++ bytesBE 6 g.sec ++ bytesBE 4 g.ns → g.sec < 2 ^ 48 → g.ns < 2 ^ 32 →
    s.chip.now < FullTime.at g → s.chip.get FWU_STATUS.OTHER_VALID = 1 → s.chip.get FWU_STATUS.ACT_PENDING = 0 →
    ends (.fwActivate cmd) s (fun c => s.chip.answered c cmd .ok [] ∧ c.loading.actTime = some g ∧
      c.get FWU_STATUS.ACT_PENDING = 1 ∧ c.get FWU_ACT_SEC_LO.ACT_SEC_LO = g.sec % 2 ^ 32 ∧
      c.get FWU_ACT_NS.ACT_NS = g.ns ∧ s.chip.Only [.regs, .loading, .answer, .counters, .sel] c)) ∧
  (∀ (s : State) (cmd : Cmd), s.chip.hostRuns cmd 0x0072 = true → cmd.payload.length = 12 →
    s.chip.get FWU_STATUS.OTHER_VALID = 0 →
    ends (.fwActivate cmd) s (fun c => s.chip.answered c cmd .txnConflict [] ∧
      s.chip.Only [.answer, .counters, .sel] c)) ∧
  (∀ s : State, s.chip.mayUpdate true = true → s.chip.actDue = true → s.chip.sched.items = [] →
    ends .activationStart s (fun c => c.st = .reset ∧ c.aon.resetCause = causeCommand ∧
      c.nvOps = s.chip.nvOps ++ [.copySettings s.nv.primary s.nv.other, .activated true, .primary s.nv.other,
        .otherValid (s.chip.st != .recovery || (checkImage s.nv (s.nv.image s.nv.primary)).1 == 0),
        .running (s.chip.st == .running)])) ∧
  (∀ s : State, s.chip.awake = true → s.chip.mayUpdate true = false ∨ s.chip.actDue = false →
    ends .activationStart s (fun c => c = s.chip)) ∧
  (∀ s : State, s.chip.st = .stopped ∨ s.chip.st = .running → s.chip.sel.txns = [] →
    s.chip.loading.actTime.isSome = true →
    ends .actCancel s (fun c => c.answer.status = .ok ∧ c.loading.actTime = none ∧
      c.get FWU_STATUS.ACT_PENDING = 0 ∧ c.get FWU_EVENT.ACT_CANCELLED = 1)) ∧
  (∀ (s : State) (cmd : Cmd), s.chip.hostRuns cmd 0x0073 = true → cmd.payload = [] →
    s.chip.get FWU_STATUS.OTHER_VALID = 1 → s.chip.get FWU_STATUS.ACT_PENDING = 0 →
    ends (.fwRevert cmd) s (fun c => s.chip.answered c cmd .ok [] ∧ c.sel.action = some .revert ∧
      s.chip.Only [.answer, .counters, .sel] c)) ∧
  (∀ s : State, s.chip.st = .stopped ∨ s.chip.st = .running → s.chip.sel.txns = [] → s.chip.loading.saving = none →
    ends .save s (fun c => c.answer.status = .ok ∧ c.loading.saving = some s.chip.savedWords ∧
      s.chip.Only [.loading, .answer] c)) ∧
  (∀ s : State, s.chip.st = .stopped ∨ s.chip.st = .running → s.chip.sel.txns = [] →
    s.chip.loading.saving.isSome = true →
    ends .save s (fun c => c.answer.status = .busy ∧ s.chip.Only [.answer] c)) ∧
  (∀ (s : State) (ws : List (Nat × Word)), s.chip.awake = true → s.chip.loading.saving = some ws →
    ends (.saveDone true) s (fun c => c.loading.saving = none ∧
      c.get FWU_SAVE_GEN.SAVE_GEN = (s.chip.get FWU_SAVE_GEN.SAVE_GEN + 1) % 2 ^ 32 ∧
      c.nvOps = s.chip.nvOps ++ [.saveSettings s.nv.primary
        ⟨(s.chip.get FWU_SAVE_GEN.SAVE_GEN + 1) % 2 ^ 32, s.chip.get FWU_SETTINGS.FMT_OWN, ws⟩] ∧
      s.chip.Only [.regs, .loading, .nvOps, .counters] c ∧ s.chip.sameRegsBut c [0xE0034])) ∧
  (∀ s : State, s.chip.awake = true → s.chip.loading.saving.isSome = true →
    ends (.saveDone false) s (fun c => c.loading.saving = none ∧ c.get FWU_EVENT.SAVE_FAIL = 1 ∧
      c.nvOps = s.chip.nvOps))

/-- The life-cycle (R364, R480, R481, R483): the subcommands in a state that allows them, under key slot 0.
Rows whose completion this states (`exec` answers a next state with the effect given): `lcStatus`, `lcOpen`, `lcSeal`,
`lcPin`, `raiseFloor`, `consent`, `consentExpiry`.
Readings of the model's own: log entries 38 and 39. -/
def Obligations.LifeCycle : Prop :=
  (∀ (s : State) (cmd : Cmd), s.chip.hostRuns cmd 0x00A0 = true → cmd.payload = [1#8] → s.nv.lifecycle < 4 →
    ends (.lcStatus cmd) s (fun c => s.chip.answered c cmd .ok ([byteOf s.nv.lifecycle,
        if s.nv.pinned then byteOf s.nv.profile else 0xFF#8, if s.chip.loading.armed.isSome then 1#8 else 0#8, 0#8] ++
        bytesBE 4 s.nv.floor) ∧ s.chip.Only [.answer, .counters, .sel] c)) ∧
  (∀ (s : State) (cmd : Cmd), s.chip.hostRuns cmd 0x00A0 = true → cmd.payload = [2#8] → cmd.key.val = 0 →
    s.nv.lifecycle = 0 → (s.nv.keyAt 0).isSome = true →
    ends (.lcOpen cmd) s (fun c => s.chip.answered c cmd .ok [] ∧ c.nvOps = s.chip.nvOps ++ [.lifecycle 1] ∧
      c.get ID_LIFECYCLE.LC_STATE = 1 ∧ c.get ID_LIFECYCLE.DEBUG_OPEN = 0 ∧ c.sel.action = some .lifecycle ∧
      s.chip.Only [.regs, .nvOps, .answer, .counters, .sel] c ∧ s.chip.sameRegsBut c [0x28])) ∧
  (∀ (s : State) (cmd : Cmd), s.chip.hostRuns cmd 0x00A0 = true → cmd.payload = [3#8] → cmd.key.val = 0 →
    s.nv.lifecycle = 1 →
    ends (.lcSeal cmd) s (fun c => s.chip.answered c cmd .ok [] ∧
      c.nvOps = s.chip.nvOps ++ [.lifecycle 2, .pin true] ∧ c.get ID_LIFECYCLE.LC_STATE = 2 ∧
      c.get ID_PROFILE.PINNED = 1 ∧ c.sel.action = some .lifecycle)) ∧
  (∀ (s : State) (cmd : Cmd), s.chip.hostRuns cmd 0x00A0 = true → cmd.payload = [3#8] → cmd.key.val ≠ 0 →
    s.nv.lifecycle = 1 →
    ends (.lcSeal cmd) s (fun c => s.chip.answered c cmd .lifecycleDenied [] ∧
      s.chip.Only [.answer, .counters, .sel] c)) ∧
  (∀ (s : State) (cmd : Cmd), s.chip.hostRuns cmd 0x00A0 = true → cmd.payload = [4#8] → cmd.key.val = 0 →
    s.nv.lifecycle = 0 ∨ s.nv.lifecycle = 1 →
    ends (.lcPin cmd) s (fun c => s.chip.answered c cmd .ok [] ∧ c.nvOps = s.chip.nvOps ++ [.pin true] ∧
      c.get ID_PROFILE.PINNED = 1 ∧ s.chip.Only [.regs, .nvOps, .answer, .counters, .sel] c)) ∧
  (∀ (s : State) (cmd : Cmd) (v : Nat), s.chip.hostRuns cmd 0x00A0 = true → cmd.payload = 5#8 :: bytesBE 4 v →
    cmd.key.val = 0 → s.nv.lifecycle = 1 ∨ s.nv.lifecycle = 2 → s.nv.floor < v → v < 2 ^ 32 →
    v ≤ imgSecurity (s.nv.image s.nv.primary) →
    ends (.raiseFloor cmd) s (fun c => s.chip.answered c cmd .ok [] ∧ c.nvOps = s.chip.nvOps ++ [.floor v] ++
        (if imgSecurity (s.nv.image s.nv.other) < v then [.otherValid false] else []) ∧
      c.get FWU_FLOOR.FLOOR = v ∧ s.chip.Only [.regs, .nvOps, .answer, .counters, .sel] c)) ∧
  (∀ (s : State) (cmd : Cmd), s.chip.hostRuns cmd 0x00A0 = true → cmd.payload = [6#8] → cmd.key.val = 0 →
    s.nv.lifecycle = 1 ∨ s.nv.lifecycle = 2 ∨ s.nv.lifecycle = 3 →
    ends (.consent cmd) s (fun c => (∃ n, n.length = 8 ∧ c.loading.armed = some n ∧ s.chip.answered c cmd .ok n) ∧
      c.get ID_LIFECYCLE.RETURN_ARMED = 1 ∧ c.nvOps = s.chip.nvOps)) ∧
  (∀ s : State, s.chip.awake = true →
    ends .consentExpiry s (fun c => c.loading.armed = none ∧ c.get ID_LIFECYCLE.RETURN_ARMED = 0 ∧
      s.chip.Only [.regs, .loading] c ∧ s.chip.sameRegsBut c [0x28]))

/-- Return, re-blanking, decommissioning and keys (R364, R482, R483): a token ends the arm, and only a good one moves the
state; what a transition erases; a key slot that is set or cleared.
Rows whose completion this states (`exec` answers a next state with the effect given): `lcReturn`, `reblank`,
`decommission`, `setKey`, `clearKey`.
Readings of the model's own: log entries 10 and 109. -/
def Obligations.ReturnAndKeys : Prop :=
  (∀ (s : State) (cmd : Cmd) (n : List Byte), s.chip.hostRuns cmd 0x00A0 = true → cmd.payload.length = 66 →
    cmd.payload.head? = some 7#8 → s.nv.lifecycle = 1 ∨ s.nv.lifecycle = 2 → s.chip.loading.armed = some n →
    ends (.lcReturn cmd) s (fun c => c.loading.armed = none ∧
      if tokenGood n 3 cmd.payload then s.chip.answered c cmd .ok [] ∧
        c.nvOps = s.chip.nvOps ++ [.lifecycle 3, .pin false, .eraseSettings] ∧ c.sel.action = some .lifecycle
      else s.chip.answered c cmd .lifecycleDenied [] ∧ c.nvOps = s.chip.nvOps ∧ c.sel.action = s.chip.sel.action)) ∧
  (∀ (s : State) (cmd : Cmd) (n : List Byte), s.chip.hostRuns cmd 0x00A0 = true → cmd.payload.length = 66 →
    cmd.payload.head? = some 8#8 → s.nv.lifecycle = 3 → s.chip.loading.armed = some n →
    ends (.reblank cmd) s (fun c => c.loading.armed = none ∧
      if tokenGood n 0 cmd.payload then s.chip.answered c cmd .ok [] ∧
        c.nvOps = s.chip.nvOps ++ [.lifecycle 0, .eraseKeys, .eraseProfile, .eraseEpoch] ∧
        c.sel.action = some .lifecycle
      else s.chip.answered c cmd .lifecycleDenied [] ∧ c.nvOps = s.chip.nvOps ∧ c.sel.action = s.chip.sel.action)) ∧
  (∀ (s : State) (cmd : Cmd), s.chip.hostRuns cmd 0x00A0 = true → cmd.key.val = 0 →
    s.nv.lifecycle = 1 ∨ s.nv.lifecycle = 2 ∨ s.nv.lifecycle = 3 → cmd.payload = 9#8 :: uniqueBytes.drop 12 →
    ends (.decommission cmd) s (fun c => s.chip.answered c cmd .ok [] ∧
      c.nvOps = s.chip.nvOps ++ [.lifecycle 4, .eraseKeys, .eraseSettings, .eraseImage 0 0 slotLen,
        .eraseImage 1 0 slotLen, .eraseEpoch] ∧ c.sel.action = some .lifecycle)) ∧
  (∀ (s : State) (cmd : Cmd) (slot : Nat) (k : List Byte), s.chip.hostRuns cmd 0x00A0 = true → cmd.key.val = 0 →
    s.nv.lifecycle = 0 ∨ s.nv.lifecycle = 1 ∨ s.nv.lifecycle = 3 → slot < 8 → k.length = 32 →
    cmd.payload = 0x20#8 :: byteOf slot :: k →
    ends (.setKey cmd) s (fun c => s.chip.answered c cmd .ok [] ∧ c.nvOps = s.chip.nvOps ++ [.key slot (some k)] ∧
      c.get ID_SEL_STATUS.KEYS_SET = keysSet (s.nv.keys.set slot (some k)) % 2 ^ 8 ∧
      s.chip.Only [.regs, .nvOps, .answer, .counters, .sel] c)) ∧
  (∀ (s : State) (cmd : Cmd) (slot : Nat), s.chip.hostRuns cmd 0x00A0 = true → cmd.key.val = 0 →
    s.nv.lifecycle = 0 ∨ s.nv.lifecycle = 1 ∨ s.nv.lifecycle = 3 → slot < 8 → cmd.payload = [0x21#8, byteOf slot] →
    ends (.clearKey cmd) s (fun c => s.chip.answered c cmd .ok [] ∧ c.nvOps = s.chip.nvOps ++ [.key slot none] ∧
      s.chip.Only [.regs, .nvOps, .answer, .counters, .sel] c)) ∧
  (∀ (s : State) (cmd : Cmd), s.chip.hostRuns cmd 0x00A0 = true → cmd.key.val = 0 → s.nv.lifecycle = 2 →
    cmd.payload = [0x21#8, 0#8] →
    ends (.clearKey cmd) s (fun c => s.chip.answered c cmd .lifecycleDenied [] ∧
      s.chip.Only [.answer, .counters, .sel] c))

/-- Self-calibration (R490 to R493, R495 to R499): a commanded and an automatic run start; an item within its range is
applied and passes, and one outside it fails and changes no value; a run ends with its result. With one temperature set its
values are aimed at, in Running tap by tap; with none only the die temperature changes; a place without a set reads as zero.
Rows whose completion this states (`exec` answers a next state with the effect given): `calRun`, `calTrigger`,
`calItemDone`, `calDone`, `deskewStep`, `deskewNoWindow`, `calInterpolate`, `calSetRead`.
Readings of the model's own: log entry 78. -/
def Obligations.Calibration : Prop :=
  (∀ (s : State) (cmd : Cmd) (map : Nat), s.chip.hostRuns cmd 0x0080 = true → cmd.payload = bytesBE 2 map → 0 < map →
    map < 32 → map % 2 = 0 → s.chip.calib.run = none →
    ends (.calRun cmd) s (fun c => s.chip.answered c cmd .pending [] ∧ c.get CAL_STATUS.RUNNING = map ∧
      c.calib.run = some ⟨0, bitItems map, [], [], [], List.range 16, some (cmd, s.nv.keyAt cmd.key.val)⟩ ∧
      s.chip.Only [.regs, .calib, .counters, .answer, .sel] c)) ∧
  (∀ (s : State) (cmd : Cmd) (map : Nat), s.chip.hostRuns cmd 0x0080 = true → cmd.payload = bytesBE 2 map → 0 < map →
    map < 32 → s.chip.calib.run.isSome = true →
    ends (.calRun cmd) s (fun c => s.chip.answered c cmd .busy [] ∧ s.chip.Only [.counters, .answer, .sel] c)) ∧
  (∀ (s : State) (n : Nat), s.chip.st = .stopped ∨ s.chip.st = .running → s.chip.get CAL_CTRL.AUTO_EN = 1 →
    s.chip.triggerDue n = true → s.chip.get CAL_CTRL.AUTO_MASK ≠ 0 → s.chip.calib.run = none →
    ends (.calTrigger n) s (fun c =>
      c.calib.run = some ⟨n, bitItems (2 * s.chip.get CAL_CTRL.AUTO_MASK), [], [], [], List.range 16, none⟩ ∧
      s.chip.Only [.regs, .calib] c ∧ s.chip.sameRegsBut c [0xF0004])) ∧
  (∀ (s : State) (r : CalRun) (p0 p1 : Int), s.chip.st = .stopped ∨ s.chip.st = .running → s.chip.calib.run = some r →
    r.items = [1] → mag p0 ≤ 5000 → mag p1 ≤ 5000 →
    ends (.calItemDone (.phase (some p0) (some p1))) s (fun c => c.getS CAL_PHASE_OFS0.PHASE_OFS = p0 ∧
      c.getS CAL_PHASE_OFS1.PHASE_OFS = p1 ∧ c.get TIM_STATUS.PHASE_VALID = 1 ∧
      (c.calib.run.map (·.passed)) = some (r.passed ++ [1]) ∧ s.chip.Only [.regs, .calib] c)) ∧
  (∀ (s : State) (r : CalRun) (p0 p1 : Int), s.chip.st = .stopped ∨ s.chip.st = .running → s.chip.calib.run = some r →
    r.items = [1] → 5000 < mag p0 →
    ends (.calItemDone (.phase (some p0) (some p1))) s (fun c => c.get CAL_EVENT.PHASE_RANGE = 1 ∧
      c.get CAL_PHASE_OFS0.PHASE_OFS = s.chip.get CAL_PHASE_OFS0.PHASE_OFS ∧
      (c.calib.run.map (·.failed)) = some (r.failed ++ [1]) ∧
      c.count 0x100F08 = min (s.chip.count 0x100F08 + 1) (2 ^ 48 - 1) ∧ s.chip.Only [.regs, .calib, .counters] c)) ∧
  (∀ (s : State) (r : CalRun), s.chip.timed = true → s.chip.calib.run = some r → r.items = [] → r.passed = [1] →
    r.failed = [2] → r.cmd = none → s.chip.calib.queued = none →
    ends .calDone s (fun c => c.calib.run = none ∧ c.get CAL_RESULT.DONE = 2 ∧ c.get CAL_RESULT.FAILED = 4 ∧
      c.get CAL_EVENT.CAL_DONE = 1 ∧ c.get CAL_EVENT.CAL_FAIL = 1 ∧ c.get CAL_STATUS.RUNNING = 0 ∧
      c.count 0x100F00 = min (s.chip.count 0x100F00 + 1) (2 ^ 48 - 1) ∧ s.chip.Only [.regs, .calib, .counters] c)) ∧
  (∀ (s : State) (r : CalRun) (quad : Nat) (taps : List (Nat × Int)), s.chip.st = .running → s.chip.calib.run = some r →
    r.items.head? = some 3 → s.chip.get CHN_STATUS.RB_READY = 1 → s.chip.scan.display = .showing →
    s.chip.deskewRoom = true → quad ∈ r.quads →
    ends (.deskewStep quad taps) s (fun c => c.calib.run = some { r with
        taps := r.taps ++ taps.filter (fun t => t.1 / 4 == quad), quads := r.quads.filter (· != quad) } ∧
      c.count 0x100F10 = min (s.chip.count 0x100F10 + 1) (2 ^ 48 - 1) ∧ s.chip.Only [.regs, .calib, .counters] c)) ∧
  (∀ (s : State) (r : CalRun), s.chip.st = .running → s.chip.calib.run = some r → r.items = [3] →
    ends .deskewNoWindow s (fun c => c.get CAL_EVENT.DESKEW_NO_WINDOW = 1 ∧
      (c.calib.run.map (·.failed)) = some (r.failed ++ [3]) ∧ s.chip.Only [.regs, .calib, .counters] c)) ∧
  (∀ (s : State) (k n : Nat) (x : CalSet) (t : Int), s.chip.st = .running → s.chip.calib.sets = [(k, n, x)] →
    ends (.calInterpolate t) s (fun c => c.get CAL_TEMP.DIE_TEMP = satSigned 16 t ∧ c.calib.tapsTo = some
        (if x.temp = t then (interpSet x x t).taps else x.taps) ∧
      c.calib.phaseTo = some (x.phase0, x.phase1) ∧ s.chip.Only [.regs, .calib] c ∧
      s.chip.sameRegsBut c [0xF0008])) ∧
  (∀ (s : State) (t : Int), s.chip.timed = true → s.chip.calib.sets = [] →
    ends (.calInterpolate t) s (fun c => c.get CAL_TEMP.DIE_TEMP = satSigned 16 t ∧ s.chip.Only [.regs] c ∧
      s.chip.sameRegsBut c [0xF0008])) ∧
  (∀ (s : State) (k : Fin 8), s.chip.writable = true → s.chip.calib.sets = [] →
    ends (.calSetRead k) s (fun c => c.answer = ⟨.ok, [0]⟩ ∧ s.chip.Only [.regs, .answer] c)) ∧
  (∀ (s : State) (k : Fin 8) (n : Nat) (x : CalSet), s.chip.writable = true → s.chip.calib.sets = [(k.val, n, x)] →
    ends (.calSetRead k) s (fun c => c.answer = ⟨.ok, [satSigned 16 x.temp + 2 ^ 16]⟩ ∧
      c.get ⟨0xF0104 + 32 * k.val, 0, 32⟩ = satSigned 32 x.phase0 ∧
      c.get ⟨0xF0108 + 32 * k.val, 0, 32⟩ = satSigned 32 x.phase1 ∧ s.chip.Only [.regs, .answer] c))


/-! The gang and the bridge. -/

/-- The election (R377, R379, R380): a member judges its apex lost; a candidate claims with the next gang epoch, which is
written to flash; a claimant becomes apex; and what a `CLAIM` or `POLL` of a higher, an equal and a lower gang epoch does.
Rows whose completion this states (`exec` answers a next state with the effect given): `apexLost`, `claimSend`,
`apexChange`, `claimReceived`, `pollReceived`.
Readings of the model's own: log entry 70. -/
def Obligations.GangElection : Prop :=
  (∀ (s : State), s.chip.timed = true → s.chip.power.portsUp = true → s.chip.inGang = true → s.chip.gang.role = .member →
    ends .apexLost s (fun c => c.gang.role = (if s.chip.mayClaim then .backoff else .member) ∧
      c.get GNG_STATUS.APEX_KNOWN = 0 ∧ s.chip.Only [.regs, .gang] c ∧ s.chip.sameRegsBut c [0xB0020])) ∧
  (∀ (s : State), s.chip.timed = true → s.chip.power.portsUp = true → s.chip.inGang = true → s.chip.gang.role = .backoff →
    s.chip.mayClaim = true →
    ends .claimSend s (fun c => c.gang.role = .claimant ∧ c.gangEpoch = (s.chip.gangEpoch + 1) % 2 ^ 32 ∧
      c.nvOps = s.chip.nvOps ++ [.gangEpoch ((s.chip.gangEpoch + 1) % 2 ^ 32)] ∧
      c.gang.gseq = (s.chip.gang.gseq + 1) % 2 ^ 32 ∧ s.chip.sentOn c (.gang 3) ∧ c.st = s.chip.st)) ∧
  (∀ (s : State), s.chip.timed = true → s.chip.power.portsUp = true → s.chip.inGang = true → s.chip.gang.role = .claimant →
    ends .apexChange s (fun c => c.gang.role = .apex ∧ c.get GNG_STATUS.IS_APEX = 1 ∧
      c.get GNG_STATUS.APEX_ADDR = gangAddr s.chip ∧ c.get GNG_STATUS.APEX_KNOWN = 1 ∧ c.get GNG_EVENT.APEX_CHANGE = 1 ∧
      s.chip.Only eventParts c)) ∧
  (∀ (s : State) (src gseq epoch : Nat) (body : List Byte), s.chip.gangHears s.nv src gseq epoch = true →
    body.length = 15 → s.chip.timeNear body = true → s.chip.gangEpoch < epoch → s.chip.gang.role ≠ .apex →
    ends (.claimReceived (s.chip.gangMsg s.nv 3 src 0xFF gseq epoch body)) s (fun c => c.gang.role = .member ∧
      c.gangEpoch = epoch ∧ c.get GNG_STATUS.APEX_ADDR = src ∧ c.get GNG_STATUS.APEX_KNOWN = 1 ∧
      c.nvOps = s.chip.nvOps ++ [.gangEpoch epoch] ∧ s.chip.Only [.regs, .gang, .nvOps] c ∧
      s.chip.sameRegsBut c [0xB0020, 0xB0038])) ∧
  (∀ (s : State) (src gseq epoch : Nat) (body : List Byte), s.chip.gangHears s.nv src gseq epoch = true →
    body.length = 15 → s.chip.timeNear body = true → epoch < s.chip.gangEpoch →
    ends (.claimReceived (s.chip.gangMsg s.nv 3 src 0xFF gseq epoch body)) s (fun c => c.gang.role = s.chip.gang.role ∧
      s.chip.Only [.gang] c)) ∧
  (∀ (s : State) (src gseq : Nat) (body : List Byte), s.chip.gangHears s.nv src gseq s.chip.gangEpoch = true →
    body.length = 15 → s.chip.timeNear body = true → s.chip.gang.role = .claimant →
    ends (.claimReceived (s.chip.gangMsg s.nv 3 src 0xFF gseq s.chip.gangEpoch body)) s (fun c =>
      (fieldBE body 10 1 < s.chip.get GNG_CTRL.APEX_PRIO → c.gang.role = .member ∧ c.get GNG_STATUS.APEX_ADDR = src) ∧
      (s.chip.get GNG_CTRL.APEX_PRIO < fieldBE body 10 1 → c.gang.role = .claimant) ∧
      (fieldBE body 10 1 = s.chip.get GNG_CTRL.APEX_PRIO → src < gangAddr s.chip → c.gang.role = .member) ∧
      (fieldBE body 10 1 = s.chip.get GNG_CTRL.APEX_PRIO → gangAddr s.chip ≤ src → c.gang.role = .claimant) ∧
      s.chip.Only [.regs, .gang] c ∧ s.chip.sameRegsBut c [0xB0020])) ∧
  (∀ (s : State) (src gseq epoch : Nat) (body : List Byte), s.chip.gangHears s.nv src gseq epoch = true →
    body.length = 14 → s.chip.timeNear body = true → s.chip.gangEpoch < epoch → s.chip.gang.role = .apex →
    s.chip.st = .stopped →
    ends (.pollReceived (s.chip.gangMsg s.nv 1 src 0xFF gseq epoch body)) s (fun c => c.gang.role = .member ∧
      c.gang.relays = [] ∧ c.get GNG_STATUS.IS_APEX = 0 ∧ c.get GNG_STATUS.APEX_ADDR = src ∧ c.gangEpoch = epoch ∧
      c.st = .fenced ∧ c.gang.statusDue = some src))

/-- Polling and the member table (R375, R376, R382, R383, R384, R409, R410): a member notes a `POLL` and sends its `STATUS`;
the apex records it, decides the table, sends `POLL`, forgets silent members and shows a member's record; a message with a
wrong trailer is counted.
Rows whose completion this states (`exec` answers a next state with the effect given): `pollReceived`, `statusSend`,
`statusReceived`, `poll`, `forget`, `gangMemberRead`.
Readings of the model's own: log entry 70. -/
def Obligations.GangPollingAndTable : Prop :=
  (∀ (s : State) (src gseq : Nat) (body : List Byte), s.chip.gangHears s.nv src gseq s.chip.gangEpoch = true →
    body.length = 14 → s.chip.timeNear body = true → s.chip.gang.role = .member →
    ends (.pollReceived (s.chip.gangMsg s.nv 1 src 0xFF gseq s.chip.gangEpoch body)) s (fun c =>
      c.gang.statusDue = some src ∧ c.gang.role = .member ∧ c.get GNG_STATUS.APEX_ADDR = src ∧
      c.get GNG_STATUS.APEX_KNOWN = 1 ∧ s.chip.Only [.regs, .gang] c ∧ s.chip.sameRegsBut c [0xB0020])) ∧
  (∀ (s : State) (src gseq epoch : Nat) (body : List Byte), s.chip.timed = true → s.chip.power.portsUp = true →
    s.chip.inGang = true → s.nv.keyAt (s.chip.get GNG_ID.KEY_SLOT) = none → src < 64 → body.length = 14 →
    ends (.pollReceived (s.chip.gangMsg s.nv 1 src 0xFF gseq epoch body)) s (fun c =>
      c.count 0x100A18 = min (s.chip.count 0x100A18 + 1) (2 ^ 48 - 1) ∧ s.chip.Only [.counters] c ∧
      s.chip.sameCountersBut c [0x100A18])) ∧
  (∀ (s : State) (a : Nat), s.chip.timed = true → s.chip.power.portsUp = true → s.chip.inGang = true →
    s.chip.gang.statusDue = some a →
    ends .statusSend s (fun c => c.gang.statusDue = none ∧ c.gang.gseq = (s.chip.gang.gseq + 1) % 2 ^ 32 ∧
      s.chip.sentOn c (.gang 2) ∧ c.gang.role = s.chip.gang.role ∧ c.st = s.chip.st)) ∧
  (∀ (s : State) (src gseq : Nat) (body : List Byte), s.chip.gangHears s.nv src gseq s.chip.gangEpoch = true →
    body.length = 12 → s.chip.gang.role = .apex → s.chip.msgMode = false →
    ends (.statusReceived (s.chip.gangMsg s.nv 2 src (gangAddr s.chip) gseq s.chip.gangEpoch body)) s (fun c =>
      (∃ m, c.gang.member src = some m ∧ m.words = [fieldBE body 0 4, fieldBE body 4 4, fieldBE body 8 4] ∧
        fieldBE body 8 4 ∈ m.boots ∧ m.heardC = s.chip.time.c.toNat) ∧
      ((fieldBE body 0 4).testBit 27 = false → c.get (evtPend src) = 0) ∧
      (∀ a, a ≠ src → c.gang.member a = s.chip.gang.member a) ∧ s.chip.Only [.regs, .gang] c ∧
      s.chip.sameRegsBut c [0xB0030 + 4 * (src / 32)])) ∧
  (∀ (s : State), s.chip.timed = true → s.chip.power.portsUp = true → s.chip.inGang = true → s.chip.gang.role = .apex →
    s.chip.st ≠ .fenced → s.chip.gang.members = [] → s.chip.gang.inbox = [] →
    ends .poll s (fun c => c.gang.gseq = (s.chip.gang.gseq + 1) % 2 ^ 32 ∧ s.chip.sentOn c (.gang 1) ∧
      c.get GNG_STATUS.MEMBERS = 0 ∧ c.gang.role = .apex)) ∧
  (∀ (s : State) (m : Member) (b : Nat), s.chip.timed = true → s.chip.power.portsUp = true → s.chip.inGang = true →
    s.chip.gang.role = .apex → s.chip.st ≠ .fenced → s.chip.gang.members = [m] → s.chip.gang.inbox = [] → m.addr < 64 →
    m.boots = [b] → m.present = false → m.duplicate = false →
    ends .poll s (fun c => (∃ m', c.gang.member m.addr = some m' ∧ m'.present = true ∧ m'.silent = false ∧
        m'.duplicate = false ∧ m'.misses = 0 ∧ m'.boots = [] ∧ m'.words = m.words) ∧
      c.get GNG_STATUS.MEMBERS = 1 ∧ c.get GNG_EVENT.MEMBER_NEW = 1)) ∧
  (∀ (s : State) (m : Member), s.chip.timed = true → s.chip.power.portsUp = true → s.chip.inGang = true →
    s.chip.gang.role = .apex → s.chip.st ≠ .fenced → s.chip.gang.members = [m] → s.chip.gang.inbox = [] → m.addr < 64 →
    m.boots = [] → m.present = true → m.silent = false → s.chip.missLimit ≤ m.misses + 1 → s.chip.gang.relays = [] →
    ends .poll s (fun c => (∃ m', c.gang.member m.addr = some m' ∧ m'.silent = true ∧ m'.present = true ∧
        m'.misses = m.misses + 1) ∧ c.get GNG_EVENT.MEMBER_LOST = 1)) ∧
  (∀ (s : State), s.chip.st = .stopped ∨ s.chip.st = .running → s.chip.sel.txns = [] →
    ends .forget s (fun c => c.gang.members = s.chip.gang.members.filter (fun m => !m.silent) ∧
      c.gang.relays = s.chip.gang.relays ∧ c.gang.role = s.chip.gang.role ∧ c.answer.status = .ok ∧
      s.chip.Only [.regs, .gang, .answer] c ∧ s.chip.sameRegsBut c [0xB0020, 0xB0028, 0xB002C])) ∧
  (∀ (s : State) (a : Fin 64), s.chip.writable = true → s.chip.gang.member a.val = none →
    ends (.gangMemberRead a) s (fun c => c.answer = ⟨.ok, [0]⟩ ∧ c.gang = s.chip.gang ∧
      (∀ k, k < 4 → (c.reg (0xB0100 + 16 * a.val + 4 * k)).toNat = 0) ∧ s.chip.Only [.regs, .answer] c)) ∧
  (∀ (s : State) (a : Fin 64) (m : Member), s.chip.writable = true → s.chip.gang.member a.val = some m →
    ends (.gangMemberRead a) s (fun c => c.answer.status = .ok ∧ c.gang = s.chip.gang ∧
      (c.reg (0xB0104 + 16 * a.val)).toNat = m.words.getD 1 0 % 2 ^ 32 ∧
      (c.reg (0xB0108 + 16 * a.val)).toNat = m.words.getD 2 0 % 2 ^ 32 ∧
      (c.reg (0xB010C + 16 * a.val)).toNat =
        min 0xFFFF ((s.chip.time.c.toNat - m.heardC) / 800000) + min 15 m.misses * 2 ^ 16 ∧
      (c.reg (0xB0100 + 16 * a.val)).toNat.testBit 20 = m.present ∧
      (c.reg (0xB0100 + 16 * a.val)).toNat.testBit 21 = m.silent ∧
      (c.reg (0xB0100 + 16 * a.val)).toNat.testBit 28 = m.duplicate ∧ s.chip.Only [.regs, .answer] c))

/-- Relays and signals (R385, R386, R388, R389, R390): a member runs a relayed `PING` and returns a `RELAY_REPLY`, which it keeps;
the apex forms the final reply from it; an unanswered relay is resent, or fails with `FAR_FAILED` and an empty payload; a
`SIGNAL` draws an `ACK` and becomes an event; an `ACK` ends the signal, which is resent or given up without one.
Rows whose completion this states (`exec` answers a next state with the effect given): `relayReceived`,
`relayReplyReceived`, `relayTimeout`, `signalReceived`, `ackReceived`, `signalResend`.
Readings of the model's own: log entries 46, 48 and 71. -/
def Obligations.RelaysAndSignals : Prop :=
  (∀ (s : State) (p : PortIx) (src gseq : Nat) (x : Cmd), s.chip.gangHears s.nv src gseq s.chip.gangEpoch = true →
    x.opcode = 0x0001 → x.payload.length ≤ 64 → x.node = 0 → x.txn = 0 → s.chip.st ≠ .updating → s.chip.sel.cmdq = [] →
    s.chip.heardBoot src = true →
    ends (.relayReceived p (s.chip.gangMsg s.nv 4 src (gangAddr s.chip) gseq s.chip.gangEpoch (Cmd.body x)) true []) s
      (fun c => (∃ m, c.gang.formed.head? = some (src, gseq, m)) ∧ c.answer.status = .ok ∧
        c.gang.gseq = (s.chip.gang.gseq + 1) % 2 ^ 32 ∧ s.chip.sentOn c (.gang 5) ∧ c.gang.role = s.chip.gang.role ∧
        c.sel.cmdq = s.chip.sel.cmdq)) ∧
  (∀ (s : State) (gseq flags tag txn ep seq node arg : Nat) (r : Relay) (payload : List Byte),
    s.chip.gangHears s.nv r.addr gseq s.chip.gangEpoch = true → s.chip.gang.role = .apex → s.chip.gang.relays = [r] →
    s.chip.gang.inbox = [] → s.chip.msgMode = false → r.use = .direct → r.gseq < 2 ^ 32 → r.cmd.src = .host →
    r.cmd.noReply = false → r.cmd.node ≠ 0xFFFF → s.chip.sel.hostOut.length < 4 → s.chip.heldPlace r.cmd = none →
    payload.length ≤ 1024 → ep % 2 ^ 32 ≤ s.chip.epoch →
    ends (.relayReplyReceived (s.chip.gangMsg s.nv 5 r.addr (gangAddr s.chip) gseq s.chip.gangEpoch (bytesBE 4 r.gseq ++
        (selulHead flags r.cmd.opcode 0 r.cmd.gang tag txn ep seq node payload.length arg ++ payload)))) s (fun c =>
      c.gang.relays = [] ∧ c.count 0x100A00 = min (s.chip.count 0x100A00 + 1) (2 ^ 48 - 1) ∧
      s.chip.answered c r.cmd .ok payload ∧
      (∃ q, c.sel.hostOut = s.chip.sel.hostOut ++ [q] ∧ q.node = node % 2 ^ 16 ∧ q.epoch = ep % 2 ^ 32) ∧
      s.chip.Only [.gang, .counters, .sel, .answer] c)) ∧
  (∀ (s : State) (r : Relay), s.chip.timed = true → s.chip.power.portsUp = true → s.chip.gang.relays = [r] →
    r.pending = false → r.tries < max 1 (s.chip.get GNG_TIMING.LINK_TRIES) →
    ends (.relayTimeout r.gseq) s (fun c => c.gang = { s.chip.gang with relays := [{ r with tries := r.tries + 1 }] } ∧
      (∀ p, s.chip.linkUp p = true → (s.chip.port p).txq.length < 64 → ∃ k n t,
        (c.port p).txq = (s.chip.port p).txq ++ [⟨.gang k r.bytes, n, t⟩]) ∧
      c.count 0x100A08 = min (s.chip.count 0x100A08 + 1) (2 ^ 48 - 1) ∧ s.chip.Only [.gang, .ports, .regs, .counters] c)) ∧
  (∀ (s : State) (r : Relay), s.chip.timed = true → s.chip.power.portsUp = true → s.chip.gang.relays = [r] →
    r.pending = false → max 1 (s.chip.get GNG_TIMING.LINK_TRIES) ≤ r.tries → r.use = .direct → r.cmd.src = .host →
    r.cmd.noReply = false → r.cmd.node ≠ 0xFFFF → s.chip.sel.hostOut.length < 4 → s.chip.heldPlace r.cmd = none →
    ends (.relayTimeout r.gseq) s (fun c => c.gang = { s.chip.gang with relays := [] } ∧
      s.chip.answered c r.cmd .farFailed [] ∧ c.count 0x100A10 = min (s.chip.count 0x100A10 + 1) (2 ^ 48 - 1) ∧
      s.chip.Only [.gang, .counters, .sel, .answer] c)) ∧
  (∀ (s : State) (src gseq : Nat) (e : EventRec), s.chip.gangHears s.nv src gseq s.chip.gangEpoch = true →
    s.chip.gang.role = .apex → s.chip.msgMode = true → s.chip.gang.inbox = [] → e.type % 2 ^ 16 ≠ 0x0008 →
    ends (.signalReceived (s.chip.gangMsg s.nv 6 src (gangAddr s.chip) gseq s.chip.gangEpoch e.bytes)) s (fun c =>
      c.get GNG_EVENT.MEMBER_EVENT = 1 ∧ c.gang.gseq = (s.chip.gang.gseq + 1) % 2 ^ 32 ∧
      (∃ m, ∀ p, s.chip.linkUp p = true → (s.chip.port p).txq.length < 64 → ∃ n t l,
        (c.port p).txq = (s.chip.port p).txq ++ ⟨.gang 7 m, n, t⟩ :: l))) ∧
  (∀ (s : State) (src gseq k : Nat), s.chip.gangHears s.nv src gseq s.chip.gangEpoch = true → k < 2 ^ 32 →
    ends (.ackReceived (s.chip.gangMsg s.nv 7 src (gangAddr s.chip) gseq s.chip.gangEpoch (bytesBE 4 k))) s (fun c =>
      c.gang.signals = s.chip.gang.signals.filter (fun x => x.gseq != k) ∧ c.gang.role = s.chip.gang.role ∧
      s.chip.Only [.gang] c)) ∧
  (∀ (s : State) (x : SignalOut), s.chip.timed = true → s.chip.power.portsUp = true → s.chip.gang.signals = [x] →
    ends (.signalResend x.gseq) s (fun c =>
      (x.tries < max 1 (s.chip.get GNG_TIMING.LINK_TRIES) →
        c.gang = { s.chip.gang with signals := [{ x with tries := x.tries + 1 }] } ∧
        (∀ p, s.chip.linkUp p = true → (s.chip.port p).txq.length < 64 → ∃ k n t,
          (c.port p).txq = (s.chip.port p).txq ++ [⟨.gang k x.bytes, n, t⟩])) ∧
      (max 1 (s.chip.get GNG_TIMING.LINK_TRIES) ≤ x.tries → c.gang = { s.chip.gang with signals := [] } ∧
        s.chip.Only [.gang] c)))

/-- `BRIDGE_REQ` (R402, R403, R404): the semaphore of a free port is taken at once, with `PENDING` and then `OK`; a GET is
queued for RDM; a request waits while another requester holds the semaphore; a port without RDM gives `BAD_ADDRESS`.
`BRIDGE_RESULT` as a command gives `BAD_OPCODE` (R362).
Rows whose completion this states (`exec` answers a next state with the effect given): `bridgeReq`,
`bridgeResultCommand`.
Readings of the model's own: log entry 75. -/
def Obligations.BridgeRequests : Prop :=
  (∀ (s : State) (cmd : Cmd) (p : Fin 4), s.chip.hostRuns cmd 0x0090 = true → s.chip.rdmPort p.val = true →
    cmd.payload = [byteOf p.val, 5#8] → (s.chip.dmxPort p.val).holder = none → (s.chip.dmxPort p.val).runq = [] →
    s.chip.sel.hostOut.length < 3 →
    ends (.bridgeReq cmd) s (fun c => (c.dmxPort p.val).holder = some (cmd.key.val, .host) ∧
      c.get (BRG_PORTp_STATUS.SEM_HELD p.val) = 1 ∧ c.get (BRG_PORTp_STATUS.SEM_KEY p.val) = cmd.key.val ∧
      (∃ a b, c.sel.hostOut = s.chip.sel.hostOut ++ [a, b] ∧ a.status = .pending ∧ a.opcode = 0x0090 ∧ b.status = .ok ∧
        b.opcode = 0x0091 ∧ b.payload = cmd.payload ∧ b.tag = cmd.tag) ∧
      s.chip.Only [.regs, .dmx, .answer, .counters, .sel] c)) ∧
  (∀ (s : State) (cmd : Cmd) (p : Fin 4), s.chip.hostRuns cmd 0x0090 = true → s.chip.rdmPort p.val = true →
    fieldBE cmd.payload 0 1 = p.val → fieldBE cmd.payload 1 1 = 1 → cmd.payload.length = 13 → fieldBE cmd.payload 12 1 = 0 →
    (s.chip.dmxPort p.val).holder = none → (s.chip.dmxPort p.val).runq = [] → s.chip.bridgeLive = true →
    ends (.bridgeReq cmd) s (fun c => s.chip.answered c cmd .pending [] ∧ (c.dmxPort p.val).phase = .queued ∧
      (∃ r, (c.dmxPort p.val).runq = [r] ∧ r.cmd = cmd) ∧ s.chip.Only [.regs, .dmx, .answer, .counters, .sel] c)) ∧
  (∀ (s : State) (cmd : Cmd) (p : Fin 4) (h : Nat × Source), s.chip.hostRuns cmd 0x0090 = true →
    s.chip.rdmPort p.val = true → cmd.payload = [byteOf p.val, 5#8] → (s.chip.dmxPort p.val).holder = some h →
    h ≠ (cmd.key.val, .host) →
    ends (.bridgeReq cmd) s (fun c =>
      ((s.chip.dmxPort p.val).waiting.length < 8 → s.chip.answered c cmd .pending [] ∧
        ∃ r, (c.dmxPort p.val).waiting = (s.chip.dmxPort p.val).waiting ++ [r] ∧ r.cmd = cmd) ∧
      (8 ≤ (s.chip.dmxPort p.val).waiting.length → s.chip.answered c cmd .busy [] ∧ c.dmx = s.chip.dmx) ∧
      (c.dmxPort p.val).holder = some h)) ∧
  (∀ (s : State) (cmd : Cmd), s.chip.hostRuns cmd 0x0090 = true → s.chip.rdmPort (fieldBE cmd.payload 0 1) = false →
    cmd.payload.length = 2 → fieldBE cmd.payload 1 1 = 5 →
    ends (.bridgeReq cmd) s (fun c => s.chip.answered c cmd .badAddress [] ∧ s.chip.Only [.answer, .counters, .sel] c)) ∧
  (∀ (s : State) (cmd : Cmd), s.chip.hostRuns cmd 0x0091 = true →
    ends (.bridgeResultCommand cmd) s (fun c => s.chip.answered c cmd .badOpcode [] ∧
      s.chip.Only [.answer, .counters, .sel] c))

/-- Profile 0 (R406, R407, R408): a write of brightness, in Stopped or Running and in a state without writes; reads; the status
byte, whose busy bit is a free value; messages; a load; the selection of a device; and the reset.
Rows whose completion this states (`exec` answers a next state with the effect given): `wr`, `rd`, `stat`, `msg`,
`blk`, `sel`, `rst`.
Readings of the model's own: log entry 53. -/
def Obligations.EmulationOfTheAM6140 : Prop :=
  (∀ (s : State) (v : Nat), s.chip.emulServed = true → s.chip.emulOwn = true → s.chip.st = .stopped ∨ s.chip.st = .running →
    s.chip.sel.txns = [] → s.chip.layoutOld = false →
    ends (.wr 0x0020 [v]) s (fun c => c.get COL_BRIGHT.BRIGHT = (2 * (v % 256) * 32768 + 255) / 510 ∧ c.answer.status = .ok ∧
      s.chip.Only [.regs, .answer, .sched] c ∧ c.sched = { s.chip.sched with shedEnd := c.sched.shedEnd } ∧
      s.chip.sameRegsBut c [COL_BRIGHT.BRIGHT.addr])) ∧
  (∀ (s : State) (v : Nat), s.chip.emulServed = true → s.chip.emulOwn = true → s.chip.st = .updating →
    s.chip.emul.msgs.length < 64 →
    ends (.wr 0x0020 [v]) s (fun c => c.emul = { s.chip.emul with
        msgs := s.chip.emul.msgs ++ [(0x06, s.chip.emul.sel, s.chip.emul.seq, 0x02)], seq := (s.chip.emul.seq + 1) % 2 ^ 16 } ∧
      c.answer.status = .busy ∧ s.chip.Only [.answer, .emul] c)) ∧
  (∀ (s : State) (n : Nat), s.chip.emulServed = true → s.chip.emulOwn = true →
    ends (.rd 0x0000 1) s (fun c => c.answer = ⟨.ok, [0x6140]⟩ ∧ s.chip.Only [.answer] c) ∧
    ends (.rd 0x0004 1) s (fun c => c.answer = ⟨.ok, [s.chip.get ID_FW.FW_VERSION]⟩ ∧ s.chip.Only [.answer] c) ∧
    ends (.rd 0x0040 1) s (fun c => c.answer = ⟨.ok, [s.chip.get CHN_FMAP_STAT.FMAP_COUNT]⟩ ∧ s.chip.Only [.answer] c) ∧
    (0x0240 ≤ n → n < 2 ^ 16 → ends (.rd n 1) s (fun c => c.answer = ⟨.ok, [0]⟩ ∧ s.chip.Only [.answer] c))) ∧
  (∀ (s : State), s.chip.emulServed = true →
    ends .stat s (fun c => (∃ w, c.answer = ⟨.ok, [w]⟩ ∧ w.testBit 0 = !s.chip.emul.msgs.isEmpty ∧
        w.testBit 3 = s.chip.emul.overrun ∧ w < 16 ∧ w.testBit 2 = false) ∧
      c.emul = { s.chip.emul with overrun := false } ∧ s.chip.Only [.answer, .emul, .freeCtr] c)) ∧
  (∀ (s : State) (n t a q v : Nat) (l : List (Nat × Nat × Nat × Nat)), s.chip.emulServed = true →
    s.chip.emul.msgs = (t, a, q, v) :: l →
    ends (.msg n) s (fun c => (8 ≤ n → c.emul = { s.chip.emul with msgs := l }) ∧ (n < 8 → c.emul = s.chip.emul) ∧
      c.answer.status = .ok ∧ c.answer.words.length = n ∧ (1 ≤ n → c.answer.words.headD 0 = t % 256) ∧
      s.chip.Only [.answer, .emul] c)) ∧
  (∀ (s : State) (n : Nat), s.chip.emulServed = true → s.chip.emul.msgs = [] →
    ends (.msg n) s (fun c => c.answer = ⟨.ok, List.replicate n 0⟩ ∧ s.chip.Only [.answer] c)) ∧
  (∀ (s : State) (a o : Nat) (data : List Byte), s.chip.emulServed = true → s.chip.emulOwn = true →
    s.chip.st = .stopped ∨ s.chip.st = .running → a % 4 = 0 → 4 ≤ data.length → data.length % 16 = 0 →
    s.chip.shareAt a data.length = some (.cal, o) → o % 16 = 0 → s.chip.relayoutDue = false →
    ends (.blk a data) s (fun c => c.answer = ⟨.ok, []⟩ ∧ c.sramOps = s.chip.sramOps ++ [.store a data] ∧
      s.chip.Only [.answer, .sramOps] c)) ∧
  (∀ (s : State) (a : Nat) (data : List Byte), s.chip.emulServed = true → s.chip.emulOwn = true → s.chip.st = .updating →
    4 ≤ data.length → data.length % 4 = 0 →
    ends (.blk a data) s (fun c => c.answer.status = .busy ∧ s.chip.Only [.answer, .emul] c)) ∧
  (∀ (s : State) (a : Nat), s.chip.emulServed = true →
    ends (.sel a) s (fun c => c.emul = { s.chip.emul with sel := a % 256 } ∧ c.answer = ⟨.ok, []⟩ ∧
      s.chip.Only [.answer, .emul] c)) ∧
  (∀ (s : State), s.chip.emulServed = true →
    ends .rst s (fun c => c.st = .reset))

/-! The director pair and errors. -/

/-- Heartbeats, epochs and takeover (R416, R417, R419, R420, R421, R427): a unit sends and takes heartbeats, and takes over
when its peer is lost or a starting unit finds no other director; a starting unit that hears an active one of at least its own
epoch becomes standby; a higher epoch fences an active unit.
Rows whose completion this states (`exec` answers a next state with the effect given): `heartbeatSend`,
`heartbeatReceived`, `hbMiss`, `pairStartListenEnd`.
Readings of the model's own: log entry 69. -/
def Obligations.HeartbeatsAndTakeover : Prop :=
  (∀ (s : State), s.chip.timed = true → s.chip.power.portsUp = true → s.chip.paired = true →
    s.chip.pairState ≠ 3 ∨ s.chip.pair.issued ≤ s.chip.pair.ackJournal →
    ends .heartbeatSend s (fun c => s.chip.sentOn c (.pair 0x11) ∧ c.pair.gseq = (s.chip.pair.gseq + 1) % 2 ^ 32 ∧
      c.pairState = s.chip.pairState ∧ c.epoch = s.chip.epoch ∧ s.chip.Only [.pair, .ports, .regs, .counters] c)) ∧
  (∀ (s : State) (gseq : Nat) (body : List Byte), s.chip.pairHears s.nv gseq s.chip.epoch = true → body.length = 14 →
    fieldBE body 0 1 = 2 → s.chip.pairState = 3 →
    ends (.heartbeatReceived (s.chip.pairMsg s.nv 0x11 0xFF gseq s.chip.epoch body)) s (fun c =>
      c.get RED_STATUS.PEER_UP = 1 ∧ c.pair.misses = 0 ∧ c.pair.peerState = 2 ∧ c.pair.peerEpoch = s.chip.epoch ∧
      c.pairState = 3 ∧ c.epoch = s.chip.epoch ∧ s.chip.Only [.regs, .pair] c ∧ s.chip.sameRegsBut c [0xC0028])) ∧
  (∀ (s : State) (gseq epoch : Nat) (body : List Byte), s.chip.pairHears s.nv gseq epoch = true → body.length = 14 →
    s.chip.epoch < epoch → s.chip.pairState = 3 → s.chip.st = .stopped →
    ends (.heartbeatReceived (s.chip.pairMsg s.nv 0x11 0xFF gseq epoch body)) s (fun c =>
      c.epoch = epoch ∧ c.st = .fenced ∧ c.pairState = 5 ∧ c.get RED_EVENT.FENCED = 1)) ∧
  (∀ (s : State), s.chip.timed = true → s.chip.power.portsUp = true → s.chip.paired = true →
    s.chip.pairState ≠ 0 → s.chip.pairState ≠ 5 → s.chip.pair.misses + 1 < s.chip.hbMiss →
    ends .hbMiss s (fun c => c.pair = { s.chip.pair with misses := s.chip.pair.misses + 1 } ∧
      c.count 0x100C00 = min (s.chip.count 0x100C00 + 1) (2 ^ 48 - 1) ∧ s.chip.Only [.pair, .counters] c ∧
      s.chip.sameCountersBut c [0x100C00])) ∧
  (∀ (s : State), s.chip.timed = true → s.chip.power.portsUp = true → s.chip.paired = true → s.chip.pairState = 3 →
    s.chip.pair.misses + 1 = s.chip.hbMiss →
    ends .hbMiss s (fun c => c.pairState = 4 ∧ c.get RED_STATUS.PEER_UP = 0 ∧ c.get RED_EVENT.PEER_LOST = 1 ∧
      c.pair.peerState = 0 ∧ c.epoch = s.chip.epoch ∧ c.st = s.chip.st)) ∧
  (∀ (s : State), s.chip.timed = true → s.chip.power.portsUp = true → s.chip.paired = true → s.chip.pairState = 2 →
    s.chip.pair.misses + 1 = s.chip.hbMiss →
    ends .hbMiss s (fun c => c.pairState = 3 ∧ c.epoch = (s.chip.epoch + 1) % 2 ^ 32 ∧ c.get RED_EVENT.TOOK_OVER = 1 ∧
      c.nvOps = s.chip.nvOps ++ [.epoch ((s.chip.epoch + 1) % 2 ^ 32)] ∧
      c.count 0x100C28 = min (s.chip.count 0x100C28 + 1) (2 ^ 48 - 1) ∧ c.st = s.chip.st)) ∧
  (∀ (s : State) (gseq epoch : Nat) (body : List Byte), s.chip.pairHears s.nv gseq epoch = true → body.length = 14 →
    s.chip.epoch ≤ epoch → fieldBE body 0 1 = 3 ∨ fieldBE body 0 1 = 4 → s.chip.pairState = 1 →
    s.chip.bit GNG_STATUS.IS_APEX = false →
    ends (.heartbeatReceived (s.chip.pairMsg s.nv 0x11 0xFF gseq epoch body)) s (fun c =>
      c.pairState = 2 ∧ c.epoch = epoch ∧ c.get RED_STATUS.PEER_UP = 1 ∧ c.st = s.chip.st)) ∧
  (∀ (s : State), s.chip.timed = true → s.chip.power.portsUp = true → s.chip.paired = true → s.chip.pairState = 1 →
    ends .pairStartListenEnd s (fun c => c.pairState = 3 ∧ c.epoch = (s.chip.epoch + 1) % 2 ^ 32 ∧
      c.get RED_EVENT.TOOK_OVER = 1))

/-- Snapshots and the journal (R424, R425, R426): the active sends snapshots and journal entries and records what its standby
holds; the standby collects a snapshot, checks its CRC-32, and stores entries, with `JOURNAL_GAP` where one is missing.
Rows whose completion this states (`exec` answers a next state with the effect given): `snapshotSend`, `journalIssue`,
`pairAckReceived`, `snapPartReceived`, `journalReceived`.
Readings of the model's own: log entries 27 and 74. -/
def Obligations.SnapshotsAndJournal : Prop :=
  (∀ (s : State), s.chip.timed = true → s.chip.power.portsUp = true → s.chip.paired = true → s.chip.directs = true →
    s.chip.snapDue = true →
    ends .snapshotSend s (fun c => c.get RED_SNAP.SNAP_SEQ = (s.chip.get RED_SNAP.SNAP_SEQ + 1) % 2 ^ 32 ∧
      c.pair.sinceSnap = 0 ∧ c.pair.journal = s.chip.pair.journal ∧
      c.count 0x100C08 = min (s.chip.count 0x100C08 + 1) (2 ^ 48 - 1) ∧
      s.chip.Only [.pair, .ports, .regs, .counters] c)) ∧
  (∀ (s : State) (record : List Byte), s.chip.timed = true → s.chip.power.portsUp = true → s.chip.paired = true →
    s.chip.directs = true → s.chip.pair.journal.length < 1024 →
    ends (.journalIssue record) s (fun c => c.pair.issued = (s.chip.pair.issued + 1) % 2 ^ 32 ∧
      c.pair.journal = s.chip.pair.journal ++ [((s.chip.pair.issued + 1) % 2 ^ 32, record)] ∧
      c.get RED_JOURNAL.J_HELD = (s.chip.pair.issued + 1) % 2 ^ 32 ∧
      c.count 0x100C18 = min (s.chip.count 0x100C18 + 1) (2 ^ 48 - 1) ∧
      (s.chip.pair.peer.isSome = true → s.chip.sentOn c (.pair 0x13)) ∧
      s.chip.Only [.pair, .ports, .regs, .counters] c)) ∧
  (∀ (s : State) (gseq a b : Nat), s.chip.pairHears s.nv gseq s.chip.epoch = true → s.chip.directs = true →
    s.chip.pair.swap = .none → a < 2 ^ 32 → b < 2 ^ 32 →
    ends (.pairAckReceived (s.chip.pairMsg s.nv 0x14 (unitIdx s.chip) gseq s.chip.epoch (bytesBE 4 a ++ bytesBE 4 b))) s
      (fun c => c.pair.ackSnap = a ∧ c.pair.ackJournal = b ∧ c.pair.journal = s.chip.pair.journal ∧
        s.chip.Only [.pair] c)) ∧
  (∀ (s : State) (gseq seq : Nat) (data : List Byte), s.chip.pairHears s.nv gseq s.chip.epoch = true →
    s.chip.pairState = 2 → s.chip.pair.snapIn = none → seq < 2 ^ 32 → 0 < data.length → data.length ≤ 1024 →
    ends (.snapPartReceived (s.chip.pairMsg s.nv 0x12 (unitIdx s.chip) gseq s.chip.epoch (bytesBE 4 seq ++ bytesBE 2 0 ++
        bytesBE 2 1 ++ bytesBE 4 data.length ++ bytesBE 4 (crc32 (data.map (·.toNat))) ++ data))) s (fun c =>
      c.pair.snap = some ⟨seq, fieldBE data 0 4, data⟩ ∧ c.pair.snapIn = none ∧ c.get RED_SNAP.SNAP_SEQ = seq ∧
      c.pair.journal = s.chip.pair.journal.filter (fun e => decide (fieldBE data 0 4 < e.1)) ∧ c.pairState = 2)) ∧
  (∀ (s : State) (gseq seq crc : Nat) (data : List Byte), s.chip.pairHears s.nv gseq s.chip.epoch = true →
    s.chip.pairState = 2 → s.chip.pair.snapIn = none → seq < 2 ^ 32 → crc < 2 ^ 32 → crc ≠ crc32 (data.map (·.toNat)) →
    data.length ≤ 1024 →
    ends (.snapPartReceived (s.chip.pairMsg s.nv 0x12 (unitIdx s.chip) gseq s.chip.epoch (bytesBE 4 seq ++ bytesBE 2 0 ++
        bytesBE 2 1 ++ bytesBE 4 data.length ++ bytesBE 4 crc ++ data))) s (fun c =>
      c.pair.snap = s.chip.pair.snap ∧ c.pair.journal = s.chip.pair.journal ∧ c.get RED_EVENT.SNAP_BAD = 1 ∧
      c.count 0x100C10 = min (s.chip.count 0x100C10 + 1) (2 ^ 48 - 1) ∧
      c.get RED_SNAP.SNAP_SEQ = s.chip.get RED_SNAP.SNAP_SEQ)) ∧
  (∀ (s : State) (gseq n : Nat) (record : List Byte), s.chip.pairHears s.nv gseq s.chip.epoch = true →
    s.chip.pairState = 2 → s.chip.pair.journal = [] → s.chip.pair.base < n → n < 2 ^ 32 → record.length ≤ 1024 →
    ends (.journalReceived (s.chip.pairMsg s.nv 0x13 (unitIdx s.chip) gseq s.chip.epoch (bytesBE 4 n ++ record))) s
      (fun c => c.pair.journal = [(n, record)] ∧ c.count 0x100C18 = min (s.chip.count 0x100C18 + 1) (2 ^ 48 - 1) ∧
        (n = s.chip.pair.base + 1 → c.get RED_JOURNAL.J_HELD = n ∧ c.get RED_STATUS.JOURNAL_GAP = 0) ∧
        (n ≠ s.chip.pair.base + 1 → c.get RED_STATUS.JOURNAL_GAP = 1 ∧ c.get RED_EVENT.JOURNAL_GAP_SEEN = 1)))

/-- Swaps and substitution (R428, R429, R431, R432, R433): a swap starts with a snapshot, hands over on the right `ACK`, and
fails after 1 s; the standby becomes active by `SWAP`; `ANNOUNCE` is sent by the holder of the entries, adopts its epoch, and
gives the spare its new number; `REPROVISION` leaves Fenced.
Rows whose completion this states (`exec` answers a next state with the effect given): `swapNow`, `swapEveryTimer`,
`pairAckReceived`, `swapFail`, `swapReceived`, `announcePeriodic`, `announceReceived`, `reprovision`.
Readings of the model's own: log entries 26, 73 and 74. -/
def Obligations.SwapsAndSubstitution : Prop :=
  (∀ (s : State), s.chip.st = .stopped ∨ s.chip.st = .running → s.chip.sel.txns = [] → s.chip.swapReady = true →
    s.chip.get RED_SNAP.SNAP_SEQ + 1 < 2 ^ 32 →
    ends .swapNow s (fun c => c.answer.status = .ok ∧ c.pair.swap = .waiting (s.chip.get RED_SNAP.SNAP_SEQ + 1) ∧
      c.get RED_SNAP.SNAP_SEQ = s.chip.get RED_SNAP.SNAP_SEQ + 1 ∧ c.pairState = 3 ∧ c.epoch = s.chip.epoch)) ∧
  (∀ (s : State), s.chip.st = .stopped ∨ s.chip.st = .running → s.chip.sel.txns = [] → s.chip.swapReady = false →
    ends .swapNow s (fun c => c.answer.status = .busy ∧ s.chip.Only [.answer] c)) ∧
  (∀ (s : State), s.chip.timed = true → s.chip.power.portsUp = true → s.chip.swapReady = true →
    s.chip.get RED_ID.SWAP_EVERY ≠ 0 →
    s.chip.pair.activeC + s.chip.get RED_ID.SWAP_EVERY * hourTicks ≤ s.chip.time.c.toNat →
    ends .swapEveryTimer s (fun c => (∃ q, c.pair.swap = .waiting q) ∧ c.pairState = 3 ∧
      c.get RED_SNAP.SNAP_SEQ = (s.chip.get RED_SNAP.SNAP_SEQ + 1) % 2 ^ 32)) ∧
  (∀ (s : State) (gseq seq j : Nat), s.chip.pairHears s.nv gseq s.chip.epoch = true → s.chip.pairState = 3 →
    s.chip.pair.swap = .waiting seq → seq < 2 ^ 32 → j < 2 ^ 32 → s.chip.pair.issued ≤ j →
    ends (.pairAckReceived (s.chip.pairMsg s.nv 0x14 (unitIdx s.chip) gseq s.chip.epoch (bytesBE 4 seq ++ bytesBE 4 j))) s
      (fun c => c.pairState = 2 ∧ c.epoch = (s.chip.epoch + 1) % 2 ^ 32 ∧ c.pair.swap = .none ∧
        c.get RED_EVENT.SWAP_DONE = 1 ∧ c.nvOps = s.chip.nvOps ++ [.epoch ((s.chip.epoch + 1) % 2 ^ 32)])) ∧
  (∀ (s : State) (seq : Nat), s.chip.timed = true → s.chip.power.portsUp = true → s.chip.pair.swap = .waiting seq →
    ends .swapFail s (fun c => c.pair.swap = .none ∧ c.get RED_EVENT.SWAP_FAIL = 1 ∧ c.pairState = s.chip.pairState ∧
      c.epoch = s.chip.epoch)) ∧
  (∀ (s : State) (gseq epoch : Nat), s.chip.pairHears s.nv gseq epoch = true → s.chip.pairState = 2 →
    s.chip.epoch < epoch →
    ends (.swapReceived (s.chip.pairMsg s.nv 0x15 (unitIdx s.chip) gseq epoch (bytesBE 4 epoch))) s (fun c =>
      c.pairState = 3 ∧ c.epoch = epoch ∧ c.get RED_EVENT.SWAP_DONE = 1 ∧
      c.count 0x100C28 = min (s.chip.count 0x100C28 + 1) (2 ^ 48 - 1) ∧ c.st = s.chip.st)) ∧
  (∀ (s : State), s.chip.timed = true → s.chip.power.portsUp = true → s.chip.holdsSubst = true →
    s.chip.substEntries ≠ [] →
    ends .announcePeriodic s (fun c => s.chip.sentOn c (.pair 0x16) ∧ c.pair.gseq = (s.chip.pair.gseq + 1) % 2 ^ 32 ∧
      s.chip.Only [.pair, .ports, .regs, .counters] c)) ∧
  (∀ (s : State) (id src gseq ep : Nat), s.chip.timed = true → s.chip.power.portsUp = true → s.chip.ingests = true →
    (s.nv.keyAt (s.chip.get RED_ID.KEY_SLOT)).isSome = true → s.chip.pair.announcers = [] → id < 2 ^ 16 → src < 2 →
    gseq < 2 ^ 32 → ep < 2 ^ 32 → s.chip.epoch < ep → s.chip.directs = false →
    ends (.announceReceived (linkMsg 0x4C52 0x16 id src 0xFF gseq ep (s.nv.keyAt (s.chip.get RED_ID.KEY_SLOT)) 0
        (bytesBE 4 ep ++ [0#8]))) s (fun c => c.epoch = ep ∧ c.nvOps = s.chip.nvOps ++ [.epoch ep] ∧ c.st = s.chip.st ∧
      s.chip.Only [.regs, .pair, .nvOps] c ∧ s.chip.sameRegsBut c [0xC002C])) ∧
  (∀ (s : State) (id src gseq old spare : Nat), s.chip.timed = true → s.chip.power.portsUp = true →
    s.chip.ingests = true → (s.nv.keyAt (s.chip.get RED_ID.KEY_SLOT)).isSome = true → s.chip.pair.announcers = [] →
    id < 2 ^ 16 → src < 2 → gseq < 2 ^ 32 → old < 2 ^ 16 → 0 < spare → spare < 2 ^ 16 → nodeId s.chip = spare →
    ends (.announceReceived (linkMsg 0x4C52 0x16 id src 0xFF gseq 0 (s.nv.keyAt (s.chip.get RED_ID.KEY_SLOT)) 0
        (bytesBE 4 0 ++ [1#8] ++ (bytesBE 2 old ++ bytesBE 2 spare ++ bytesBE 4 0)))) s (fun c => nodeId c = old ∧
      c.get RED_EVENT.SUBSTITUTED = 1 ∧ c.epoch = s.chip.epoch ∧ c.st = s.chip.st)) ∧
  (∀ (s : State) (id src gseq spare ep : Nat), s.chip.timed = true → s.chip.power.portsUp = true →
    s.chip.st = .stopped ∨ s.chip.st = .running → (s.nv.keyAt (s.chip.get RED_ID.KEY_SLOT)).isSome = true →
    s.chip.pair.announcers = [] → id < 2 ^ 16 → src < 2 → gseq < 2 ^ 32 → spare < 2 ^ 16 → nodeId s.chip ≠ spare →
    0 < nodeId s.chip → s.chip.directs = false → s.chip.epoch < ep → ep < 2 ^ 32 →
    ends (.announceReceived (linkMsg 0x4C52 0x16 id src 0xFF gseq 0 (s.nv.keyAt (s.chip.get RED_ID.KEY_SLOT)) 0
        (bytesBE 4 0 ++ [1#8] ++ (bytesBE 2 (nodeId s.chip) ++ bytesBE 2 spare ++ bytesBE 4 ep)))) s (fun c =>
      c.st = .reset ∧
      c.nvOps = s.chip.nvOps ++ [.nodeSetting (s.chip.get FWU_STATUS.PRIMARY) spare, .fenceMark true])) ∧
  (∀ (s : State), s.chip.st = .fenced → s.chip.sel.txns = [] →
    ends .reprovision s (fun c => c.st = .stopped ∧ c.get RED_EVENT.FENCED = 0 ∧
      c.nvOps = s.chip.nvOps ++ [.fenceMark false]))

/-- Errors (R439, R440, R445, R446, R447, R449): an error takes the slot of its level and is logged; one below what is being
handled there waits, one above it passes up a level; a correctable error is only logged and counted; an error in a fenced
unit is dropped; a completed containment frees the slot and fences the unit, and one that does not complete passes up.
Rows whose completion this states (`exec` answers a next state with the effect given): `errorDetected`,
`handlerComplete`, `handlerTimeout`.
Readings of the model's own: log entries 8, 25 and 94. -/
def Obligations.ErrorHandling : Prop :=
  (∀ (s : State) (k : Fin 64) (d : Nat), s.chip.timed = true → s.chip.unitFenced k.val = false →
    s.chip.fencePending k.val = false → s.chip.errs.slots = [none, none, none, none] →
    s.chip.errs.waiting = [[], [], [], []] →
    ends (.errorDetected 0x0104 k.val d) s (fun c => (∃ j, c.errs.slots = [some j, none, none, none] ∧ j.code = 0x0104 ∧
        j.unit = k.val ∧ j.atLevel = 0) ∧ c.get ERR_STATUS.HANDLER_BUSY = 1 ∧
      c.errs.nextSeq = (s.chip.errs.nextSeq + 1) % 2 ^ 16)) ∧
  (∀ (s : State) (k : Fin 64) (d : Nat), s.chip.timed = true → s.chip.unitFenced k.val = false →
    ends (.errorDetected 0x0101 k.val d) s (fun c =>
      c.count 0x100D30 = min (s.chip.count 0x100D30 + 1) (2 ^ 48 - 1) ∧ c.errs.slots = s.chip.errs.slots ∧
      c.errs.waiting = s.chip.errs.waiting ∧ c.errs.nextSeq = (s.chip.errs.nextSeq + 1) % 2 ^ 16)) ∧
  (∀ (s : State) (code d : Nat) (k : Fin 64), s.chip.timed = true → s.chip.unitFenced k.val = true →
    ends (.errorDetected code k.val d) s (fun c => c = s.chip)) ∧
  (∀ (s : State) (k : Fin 64) (d : Nat) (j : ErrJob), s.chip.timed = true → s.chip.unitFenced k.val = false →
    s.chip.fencePending k.val = false → s.chip.errs.slots = [some j, none, none, none] → j.severity = 2 →
    s.chip.errs.waiting = [[], [], [], []] →
    ends (.errorDetected 0x0104 k.val d) s (fun c => (∃ j', c.errs.waiting = [[j'], [], [], []] ∧ j'.code = 0x0104 ∧
        j'.unit = k.val) ∧ c.errs.slots = s.chip.errs.slots)) ∧
  (∀ (s : State) (k : Fin 64) (d : Nat) (j : ErrJob), s.chip.timed = true → s.chip.unitFenced k.val = false →
    s.chip.fencePending k.val = false → s.chip.errs.slots = [some j, none, none, none] → j.severity < 2 →
    s.chip.errs.waiting = [[], [], [], []] →
    ends (.errorDetected 0x0104 k.val d) s (fun c => (∃ j', c.errs.slots = [some j, some j', none, none] ∧
        j'.code = 0x0104 ∧ j'.unit = k.val ∧ j'.atLevel = 1) ∧
      c.count 0x100D10 = min (s.chip.count 0x100D10 + 1) (2 ^ 48 - 1) ∧ c.errs.waiting = s.chip.errs.waiting)) ∧
  (∀ (s : State) (k : Fin 64) (j : ErrJob), s.chip.timed = true → s.chip.errs.slots = [some j, none, none, none] →
    s.chip.errs.waiting = [[], [], [], []] → j.code = 0x0104 → j.unit = k.val → (∀ i, i < 64 → s.chip.coreUnfenced i = true) →
    2 ≤ s.chip.get ERR_LIMITS.CLUSTER_LIMIT → s.chip.laneFenced 0 = false → s.chip.laneFenced 32 = false →
    s.chip.reg ERR_FENCE_BLOCK.CLUSTER_FENCED.addr = 0#32 →
    ends (.handlerComplete 0) s (fun c => c.get ERR_STATUS.DEGRADED = 1 ∧ c.coreUnfenced k.val = false ∧
      (∀ i, i < 64 → i ≠ k.val → c.coreUnfenced i = true) ∧ c.errs.slots = [none, none, none, none] ∧ c.count 0x100D18 = min (s.chip.count 0x100D18 + 1) (2 ^ 48 - 1))) ∧
  (∀ (s : State) (k : Fin 64) (j : ErrJob), s.chip.timed = true → s.chip.errs.slots = [some j, none, none, none] →
    s.chip.errs.waiting = [[], [], [], []] → j.unit = k.val → s.chip.unitFenced (0x8000 + k.val / 4) = false →
    ends (.handlerTimeout 0) s (fun c => ∃ j', c.errs.slots = [none, some j', none, none] ∧ j'.code = 0x0203 ∧
      j'.unit = 0x8000 + k.val / 4)) ∧
  (∀ (s : State) (l : Fin 4), s.chip.timed = true → s.chip.errs.slots.getD l.val none = none →
    ends (.handlerTimeout l) s (fun c => c = s.chip) ∧ ends (.handlerComplete l) s (fun c => c = s.chip))

/-- The error log and the boundary-scan port (R459, R463, R538, R539): the oldest entry is popped, an empty log gives zero,
and `LOG_CLEAR` empties it; an edge of TCK moves the controller, shifts and updates; TRST_N resets it.
Rows whose completion this states (`exec` answers a next state with the effect given): `logPop`, `logClear`,
`tckEdge`, `trstNLow`.
Readings of the model's own: log entry 54. -/
def Obligations.ErrorLogAndTap : Prop :=
  (∀ (s : State) (e : LogEntry) (l : List LogEntry), s.chip.writable = true → s.chip.errs.log = e :: l →
    e.retained = true ∨ e.tick ≠ s.chip.time.c.toNat →
    ends .logPop s (fun c => c.errs.log = l ∧ c.answer = ⟨.ok, [(logWords e).headD 0 % 2 ^ 32]⟩ ∧
      (∀ k, k < 6 → (c.reg (0xD0010 + 4 * k)).toNat = (logWords e).getD k 0 % 2 ^ 32) ∧
      c.get ERR_STATUS.LOG_COUNT = l.length % 2 ^ 8 ∧ s.chip.Only [.regs, .errs, .answer] c)) ∧
  (∀ (s : State), s.chip.writable = true → s.chip.errs.log = [] →
    ends .logPop s (fun c => c.answer = ⟨.ok, [0]⟩ ∧ s.chip.Only [.regs, .answer] c)) ∧
  (∀ (s : State), s.chip.st = .stopped ∨ s.chip.st = .running → s.chip.sel.txns = [] →
    ends .logClear s (fun c => c.errs.log = [] ∧ c.errs.nextSeq = s.chip.errs.nextSeq ∧
      c.get ERR_STATUS.LOG_COUNT = 0 ∧ c.answer.status = .ok ∧ s.chip.Only [.regs, .errs, .answer] c)) ∧
  (∀ (s : State) (tms tdi : Bool), s.chip.st ≠ .off → s.chip.power.groupAGood = true → s.tap.tck = false →
    ∃ t, exec (.tckEdge true tms tdi) s = .next t ∧ t.tap.state = s.tap.state.next tms ∧ t.tap.tck = true ∧
      t.tap.ir = s.tap.ir ∧ t.tap.tdo = s.tap.tdo ∧
      (s.tap.state = .shiftIr → t.tap.irShift = s.tap.irShift / 2 + (if tdi then 128 else 0)) ∧
      (s.tap.state = .captureIr → t.tap.irShift % 4 = 1) ∧
      (s.tap.state = .captureDr → s.tap.ir = 0x02 → t.tap.idShift = idcode) ∧
      (s.tap.state = .shiftDr → s.tap.ir = 0x02 → t.tap.idShift = s.tap.idShift / 2 + (if tdi then 2 ^ 31 else 0)) ∧
      (s.tap.state = .shiftDr → s.tap.ir = 0xFF → t.tap.bypass = tdi) ∧
      (s.tap.state = .captureDr → s.tap.ir = 0xFF → t.tap.bypass = false) ∧ s.chip.Only [.freeCtr] t.chip ∧
      t.nv = s.nv ∧ t.cal = s.cal ∧ t.sram = s.sram) ∧
  (∀ (s : State) (tms tdi : Bool), s.chip.st ≠ .off → s.chip.power.groupAGood = true → s.tap.tck = true →
    ∃ t, exec (.tckEdge false tms tdi) s = .next t ∧ t.tap.state = s.tap.state ∧ t.tap.tck = false ∧
      (s.tap.state = .updateIr → t.tap.ir = s.tap.irShift) ∧
      (s.tap.state = .updateDr → s.tap.ir = 0x00 ∨ s.tap.ir = 0x01 → t.tap.held = s.tap.boundary) ∧
      (s.tap.state = .shiftIr → t.tap.tdo = decide (s.tap.irShift % 2 = 1)) ∧
      (s.tap.state = .reset → t.tap.ir = 2) ∧ t.chip = s.chip ∧ t.nv = s.nv ∧ t.cal = s.cal ∧ t.sram = s.sram) ∧
  (∀ (s : State), ∃ t, exec .trstNLow s = .next t ∧ t.tap.state = .reset ∧ t.tap.ir = 2 ∧ t.tap.balls = .device ∧
      t.chip = s.chip ∧ t.nv = s.nv ∧ t.cal = s.cal ∧ t.sram = s.sram)

/-! The block as a whole. -/

/-- A step runs the command at the front of the queue with the queue's rest. -/
def Obligations.StepRunsTheFrontCommand : Prop :=
  ∀ (i : Instr) (rest : List Instr) (s : State), step { s with pending := i :: rest } = exec i { s with pending := rest }

/-- While no command waits, one tick of the timebase passes where the time unit is in use (R32), and nothing changes but the
clock, the captures due and the lines to the drivers (the model's choice, log entry 1). Commands that have been put off are
taken first, once the queue is empty: no tick passes while one waits. -/
def Obligations.AnEmptyQueueIsATick : Prop :=
  (∀ s : State, s.pending = [] → s.late = [] → ∃ t, step s = .next t ∧ t.nv = s.nv ∧ t.cal = s.cal ∧ t.sram = s.sram ∧
    t.tap = s.tap ∧ t.pending = [] ∧ t.late = [] ∧
    t.chip.time.c = (if s.chip.timed then s.chip.time.c + 1 else s.chip.time.c) ∧ s.chip.Only tickParts t.chip) ∧
  (∀ (s : State) (i : Instr), s.pending = [] → s.late = [i] → ∃ t, exec i { s with late := [], taking := true } = .next t ∧
    step s = .next { t with taking := false }) ∧
  (∀ (s : State) (i : Instr) (l : List Instr), s.pending = [] → s.late = i :: l → ∃ j k t,
    j ∈ s.late ∧ k.length = l.length ∧ exec j { s with late := k, taking := true } = .next t ∧
    step s = .next { t with taking := false } ∧
    (s.chip.free l [] i = true → j = i ∧ k = l))

/-- Every command completes in every state, and leaves the queue as it is. One before which a rule gives another that waits at
the same instant is put off, and changes nothing else (R571); one that nothing waits beside is in its turn.
Readings of the model's own: log entries 2 and 4. -/
def Obligations.EveryCommandCompletes : Prop :=
  (∀ (i : Instr) (s : State), ∃ t, exec i s = .next t ∧ t.pending = s.pending) ∧ (∀ s : State, safe s) ∧
  (∀ (i : Instr) (s : State), s.turn i = false → exec i s = .next (s.putOff i)) ∧
  (∀ (i : Instr) (s : State), s.pending = [] → s.late = [] → s.turn i = true)

/-- What follows from an effect that leaves a quiet chip (R231, R304, R344, R354, R360, R385): nothing on the chip itself; memory,
flash and fuses take only what the effect owes them. -/
def Obligations.RunOfAQuietChip : Prop :=
  (∀ (s : State) (c : Chip), c.quiet = true → c.Only [.sramOps, .nvOps] (s.run c).chip ∧ (s.run c).chip.sramOps = [] ∧
    (s.run c).chip.nvOps = [] ∧ (s.run c).nv = c.nvOps.foldl NvOp.apply s.nv ∧
    (c.sramOps = [] → (s.run c).cal = s.cal ∧ (s.run c).sram = s.sram)) ∧
  (∀ (s : State) (c : Chip), (s.run c).tap = s.tap ∧ (s.run c).pending = s.pending)

/-- The SRAM window (R215, R261, R569): a store of bytes within one part of the window reads back byte for byte, and every other
byte reads as before.
Readings of the model's own: log entry 3. -/
def Obligations.WindowHoldsWhatIsStored : Prop :=
  ∀ (s : State) (c : Chip) (a : Nat) (l : List Byte), c.quiet = true → c.sramOps = [.store a l] →
    c.get FST_LAYOUT_CAL.CAL_GRAN = s.chip.get FST_LAYOUT_CAL.CAL_GRAN →
    (∀ k, k < l.length → isCal (s.chip.get FST_LAYOUT_CAL.CAL_GRAN) (a + k) = isCal (s.chip.get FST_LAYOUT_CAL.CAL_GRAN) a) →
    (∀ k, k < l.length → (s.run c).byteAt (a + k) = l.getD k 0#8) ∧
    (∀ x, x < a ∨ a + l.length ≤ x → (s.run c).byteAt x = s.byteAt x)

/-- The invariant holds at reset. -/
def Obligations.ResetHasTheInvariant : Prop := State.reset.inv = true ∧ State.reset.pending = []

/-- Every step keeps the canonical form of the memory and leaves nothing owed to memory, flash or fuses. -/
def Obligations.EveryStepKeepsTheInvariant : Prop :=
  ∀ s t : State, s.inv = true → step s = .next t → t.inv = true

/-- Whatever the command and the state, the security floor never falls (R481) and Decommissioned is never left (R484). -/
def Obligations.FloorNeverFallsAndDecommissionedHasNoExit : Prop :=
  ∀ s t : State, step s = .next t → s.nv.floor ≤ t.nv.floor ∧ (s.nv.lifecycle = 4 → t.nv.lifecycle = 4)

/-- The registers right after reset (R8, R343, R358, R562 and the register tables of the spec): a reset value of each group,
empty queues, a part as it ships, and black memory.
Readings of the model's own: log entries 3, 11 and 12. -/
def Obligations.ResetValues : Prop :=
  (∀ x ∈ [(ID_PROFILE.PROFILE, 1), (TIM_SERVO.KP_SHIFT, 2), (TIM_SERVO.KI_SHIFT, 6), (PRTn_CTRL.SPEED 1, 4),
      (PRTn_CTRL.FWD_BURST 1, 8), (FST_FEEDf_CFG.SLOTS 0, 3), (FST_FEEDf_CFG.SLOTS 3, 0),
      (SCH_CORE_LIVE.CORE_LIVE 1, 0xFFFFFFFF), (COL_BRIGHT.BRIGHT, 0x8000), (COL_STATUS.DERATE, 0x8000),
      (CHN_NTCa_CFG0.NTC_BETA 2, 3435), (BRG_PORTp_CFG.SLOTS 3, 512), (BRG_SEM.SEM_LEASE, 2000), (BRG_SEM.SEM_WAIT, 500),
      (GNG_TIMING.POLL_CYCLE_MS, 5), (GNG_TIMING.MISS_LIMIT, 3), (GNG_TIMING.LINK_TRIES, 3), (GNG_ID.KEY_SLOT, 7),
      (RED_CTRL.HB_MS, 5), (RED_CTRL.HB_MISS, 3), (RED_ID.KEY_SLOT, 6), (RED_SNAP_CFG.SNAP_MS, 1000),
      (ERR_LIMITS.CLUSTER_LIMIT, 2), (ERR_LIMITS.ITEM_LIMIT, 5000), (CAL_ADC.ADC_GAIN, 0x8000)],
    State.reset.chip.get x.1 = x.2) ∧
  State.reset.nv = NonVol.factory ∧ State.reset.pending = [] ∧ State.reset.cal = [] ∧ State.reset.sram = [] ∧
  State.reset.chip.evq = [] ∧ State.reset.chip.sel = Selul.start ∧ State.reset.chip.st = .reset
end

