-- ==== Sys2Proof/Laws/Maps.lean ====
section
/-!
SUPPORT. The laws of sparse maps: a read after a write, a write leaves every other key alone, and every operation keeps
the canonical form.
-/

namespace Sys2Proof.Machine

variable {α : Type}

theorem smGet_smErase_self (d : Nat → α) (m : SMap α) (k : Nat) : smGet d (smErase m k) k = d k := by
  induction m with
  | nil => rfl
  | cons p m ih =>
    obtain ⟨a, v⟩ := p
    unfold smErase
    split
    · exact ih
    · rename_i h
      simp [smGet, h, ih]

theorem smGet_smErase_ne (d : Nat → α) (m : SMap α) {k j : Nat} (h : j ≠ k) :
    smGet d (smErase m k) j = smGet d m j := by
  induction m with
  | nil => rfl
  | cons p m ih =>
    obtain ⟨a, v⟩ := p
    unfold smErase
    split
    · rename_i ha
      have haj : a ≠ j := fun e => h (by omega)
      simp [smGet, haj, ih]
    · simp [smGet, ih]

theorem smGet_smInsert_self (d : Nat → α) (m : SMap α) (k : Nat) (v : α) :
    smGet d (smInsert m k v) k = v := by
  induction m with
  | nil => simp [smInsert, smGet]
  | cons p m ih =>
    obtain ⟨a, w⟩ := p
    unfold smInsert
    split
    · simp [smGet]
    · split
      · simp [smGet]
      · rename_i h1 h2
        simp [smGet, h2, ih]

theorem smGet_smInsert_ne (d : Nat → α) (m : SMap α) {k j : Nat} (v : α) (h : j ≠ k) :
    smGet d (smInsert m k v) j = smGet d m j := by
  induction m with
  | nil => simp [smInsert, smGet, Ne.symm h]
  | cons p m ih =>
    obtain ⟨a, w⟩ := p
    unfold smInsert
    split
    · simp [smGet, Ne.symm h]
    · split
      · rename_i h1 h2
        have : a ≠ j := fun e => h (by omega)
        simp [smGet, Ne.symm h, this]
      · simp [smGet, ih]

variable [DecidableEq α]

@[simp] theorem smGet_smSet_self (d : Nat → α) (m : SMap α) (k : Nat) (v : α) :
    smGet d (smSet d m k v) k = v := by
  unfold smSet
  split
  · rename_i h; rw [smGet_smErase_self, h]
  · exact smGet_smInsert_self d m k v

theorem smGet_smSet_ne (d : Nat → α) (m : SMap α) {k j : Nat} (v : α) (h : j ≠ k) :
    smGet d (smSet d m k v) j = smGet d m j := by
  unfold smSet
  split
  · exact smGet_smErase_ne d m h
  · exact smGet_smInsert_ne d m v h

theorem smWfAbove_mono (d : Nat → α) {m : SMap α} {lo hi : Nat} (h : lo ≤ hi)
    (w : smWfAbove d m hi = true) : smWfAbove d m lo = true := by
  cases m with
  | nil => rfl
  | cons p m =>
    obtain ⟨a, v⟩ := p
    simp only [smWfAbove, Bool.and_eq_true, decide_eq_true_eq] at w ⊢
    exact ⟨⟨by omega, w.1.2⟩, w.2⟩

theorem smWfAbove_smErase (d : Nat → α) (m : SMap α) (k lo : Nat)
    (w : smWfAbove d m lo = true) : smWfAbove d (smErase m k) lo = true := by
  induction m generalizing lo with
  | nil => rfl
  | cons p m ih =>
    obtain ⟨a, v⟩ := p
    simp only [smWfAbove, Bool.and_eq_true, decide_eq_true_eq] at w
    unfold smErase
    split
    · exact smWfAbove_mono d (by omega) (ih (a + 1) w.2)
    · simp only [smWfAbove, Bool.and_eq_true, decide_eq_true_eq]
      exact ⟨w.1, ih (a + 1) w.2⟩

theorem smWfAbove_smInsert (d : Nat → α) (m : SMap α) (k lo : Nat) (v : α) (hv : v ≠ d k) (hk : lo ≤ k)
    (w : smWfAbove d m lo = true) : smWfAbove d (smInsert m k v) lo = true := by
  induction m generalizing lo with
  | nil => simp [smInsert, smWfAbove, hv, hk]
  | cons p m ih =>
    obtain ⟨a, u⟩ := p
    simp only [smWfAbove, Bool.and_eq_true, decide_eq_true_eq] at w
    unfold smInsert
    split
    · simp only [smWfAbove, Bool.and_eq_true, decide_eq_true_eq]
      exact ⟨⟨hk, hv⟩, ⟨by omega, w.1.2⟩, w.2⟩
    · split
      · simp only [smWfAbove, Bool.and_eq_true, decide_eq_true_eq]
        rename_i h1 h2
        subst h2
        exact ⟨⟨hk, hv⟩, w.2⟩
      · simp only [smWfAbove, Bool.and_eq_true, decide_eq_true_eq]
        exact ⟨w.1, ih (a + 1) (by omega) w.2⟩

/-- Every write keeps the canonical form. -/
theorem smWf_smSet (d : Nat → α) (m : SMap α) (k : Nat) (v : α) (w : smWf d m = true) :
    smWf d (smSet d m k v) = true := by
  unfold smSet
  split
  · exact smWfAbove_smErase d m k 0 w
  · rename_i h
    exact smWfAbove_smInsert d m k 0 v h (Nat.zero_le k) w

theorem smWf_nil (d : Nat → α) : smWf d ([] : SMap α) = true := rfl

theorem smWf_smSetList (d : Nat → α) (st : Nat) (vs : List α) (m : SMap α) (k : Nat) (w : smWf d m = true) :
    smWf d (smSetList d st m k vs) = true := by
  induction vs generalizing m k with
  | nil => exact w
  | cons v vs ih => exact ih _ _ (smWf_smSet d m k v w)

/-- A list of values stored at consecutive keys leaves every other key. -/
theorem smGet_smSetList_out (d : Nat → α) (l : List α) (m : SMap α) (a x : Nat) (h : x < a ∨ a + l.length ≤ x) :
    smGet d (smSetList d 1 m a l) x = smGet d m x := by
  induction l generalizing m a with
  | nil => rfl
  | cons v l ih =>
    simp only [List.length_cons] at h
    unfold smSetList
    rw [ih _ _ (by omega), smGet_smSet_ne d m v (by omega)]

/-- A list of values stored at consecutive keys reads back. -/
theorem smGet_smSetList_in (d : Nat → α) (l : List α) (m : SMap α) (a k : Nat) (e : α) (h : k < l.length) :
    smGet d (smSetList d 1 m a l) (a + k) = l.getD k e := by
  induction l generalizing m a k with
  | nil => simp at h
  | cons v l ih =>
    unfold smSetList
    cases k with
    | zero => rw [smGet_smSetList_out d l _ _ _ (by omega), Nat.add_zero, smGet_smSet_self]; rfl
    | succ k =>
      have := ih (smSet d m a v) (a + 1) k (by simpa using h)
      rw [show a + (k + 1) = a + 1 + k by omega, this]; rfl

end Sys2Proof.Machine
end

