-- ==== Sys2Proof/Laws/State.lean ====
section
/-!
SUPPORT. The parts of the chip after each of its setters and after the operations that change registers, counters or the
answer only: one lemma for each part and each update, all true by computation.
-/

namespace Sys2Proof.Machine

open Sys2Proof

variable (c : Chip)

/-! `setSt`. -/

@[simp] theorem Chip.setSt_st (x : DevState) : (c.setSt x).st = x := (rfl)
@[simp] theorem Chip.setSt_fromRunning (x : DevState) : (c.setSt x).fromRunning = c.fromRunning := (rfl)
@[simp] theorem Chip.setSt_regs (x : DevState) : (c.setSt x).regs = c.regs := (rfl)
@[simp] theorem Chip.setSt_pend (x : DevState) : (c.setSt x).pend = c.pend := (rfl)
@[simp] theorem Chip.setSt_counters (x : DevState) : (c.setSt x).counters = c.counters := (rfl)
@[simp] theorem Chip.setSt_snaps (x : DevState) : (c.setSt x).snaps = c.snaps := (rfl)
@[simp] theorem Chip.setSt_answer (x : DevState) : (c.setSt x).answer = c.answer := (rfl)
@[simp] theorem Chip.setSt_freeCtr (x : DevState) : (c.setSt x).freeCtr = c.freeCtr := (rfl)
@[simp] theorem Chip.setSt_aon (x : DevState) : (c.setSt x).aon = c.aon := (rfl)
@[simp] theorem Chip.setSt_power (x : DevState) : (c.setSt x).power = c.power := (rfl)
@[simp] theorem Chip.setSt_clk (x : DevState) : (c.setSt x).clk = c.clk := (rfl)
@[simp] theorem Chip.setSt_time (x : DevState) : (c.setSt x).time = c.time := (rfl)
@[simp] theorem Chip.setSt_ports (x : DevState) : (c.setSt x).ports = c.ports := (rfl)
@[simp] theorem Chip.setSt_evq (x : DevState) : (c.setSt x).evq = c.evq := (rfl)
@[simp] theorem Chip.setSt_nextEvent (x : DevState) : (c.setSt x).nextEvent = c.nextEvent := (rfl)
@[simp] theorem Chip.setSt_noticeSeq (x : DevState) : (c.setSt x).noticeSeq = c.noticeSeq := (rfl)
@[simp] theorem Chip.setSt_errs (x : DevState) : (c.setSt x).errs = c.errs := (rfl)
@[simp] theorem Chip.setSt_sel (x : DevState) : (c.setSt x).sel = c.sel := (rfl)
@[simp] theorem Chip.setSt_ctxs (x : DevState) : (c.setSt x).ctxs = c.ctxs := (rfl)
@[simp] theorem Chip.setSt_was (x : DevState) : (c.setSt x).was = c.was := (rfl)
@[simp] theorem Chip.setSt_feeds (x : DevState) : (c.setSt x).feeds = c.feeds := (rfl)
@[simp] theorem Chip.setSt_sramOps (x : DevState) : (c.setSt x).sramOps = c.sramOps := (rfl)
@[simp] theorem Chip.setSt_layout (x : DevState) : (c.setSt x).layout = c.layout := (rfl)
@[simp] theorem Chip.setSt_layoutOld (x : DevState) : (c.setSt x).layoutOld = c.layoutOld := (rfl)
@[simp] theorem Chip.setSt_sched (x : DevState) : (c.setSt x).sched = c.sched := (rfl)
@[simp] theorem Chip.setSt_colour (x : DevState) : (c.setSt x).colour = c.colour := (rfl)
@[simp] theorem Chip.setSt_scan (x : DevState) : (c.setSt x).scan = c.scan := (rfl)
@[simp] theorem Chip.setSt_chains (x : DevState) : (c.setSt x).chains = c.chains := (rfl)
@[simp] theorem Chip.setSt_dmx (x : DevState) : (c.setSt x).dmx = c.dmx := (rfl)
@[simp] theorem Chip.setSt_resend (x : DevState) : (c.setSt x).resend = c.resend := (rfl)
@[simp] theorem Chip.setSt_resendMs (x : DevState) : (c.setSt x).resendMs = c.resendMs := (rfl)
@[simp] theorem Chip.setSt_gang (x : DevState) : (c.setSt x).gang = c.gang := (rfl)
@[simp] theorem Chip.setSt_emul (x : DevState) : (c.setSt x).emul = c.emul := (rfl)
@[simp] theorem Chip.setSt_pair (x : DevState) : (c.setSt x).pair = c.pair := (rfl)
@[simp] theorem Chip.setSt_loading (x : DevState) : (c.setSt x).loading = c.loading := (rfl)
@[simp] theorem Chip.setSt_nvOps (x : DevState) : (c.setSt x).nvOps = c.nvOps := (rfl)
@[simp] theorem Chip.setSt_calib (x : DevState) : (c.setSt x).calib = c.calib := (rfl)

/-! `setFromRunning`. -/

@[simp] theorem Chip.setFromRunning_st (x : Bool) : (c.setFromRunning x).st = c.st := (rfl)
@[simp] theorem Chip.setFromRunning_fromRunning (x : Bool) : (c.setFromRunning x).fromRunning = x := (rfl)
@[simp] theorem Chip.setFromRunning_regs (x : Bool) : (c.setFromRunning x).regs = c.regs := (rfl)
@[simp] theorem Chip.setFromRunning_pend (x : Bool) : (c.setFromRunning x).pend = c.pend := (rfl)
@[simp] theorem Chip.setFromRunning_counters (x : Bool) : (c.setFromRunning x).counters = c.counters := (rfl)
@[simp] theorem Chip.setFromRunning_snaps (x : Bool) : (c.setFromRunning x).snaps = c.snaps := (rfl)
@[simp] theorem Chip.setFromRunning_answer (x : Bool) : (c.setFromRunning x).answer = c.answer := (rfl)
@[simp] theorem Chip.setFromRunning_freeCtr (x : Bool) : (c.setFromRunning x).freeCtr = c.freeCtr := (rfl)
@[simp] theorem Chip.setFromRunning_aon (x : Bool) : (c.setFromRunning x).aon = c.aon := (rfl)
@[simp] theorem Chip.setFromRunning_power (x : Bool) : (c.setFromRunning x).power = c.power := (rfl)
@[simp] theorem Chip.setFromRunning_clk (x : Bool) : (c.setFromRunning x).clk = c.clk := (rfl)
@[simp] theorem Chip.setFromRunning_time (x : Bool) : (c.setFromRunning x).time = c.time := (rfl)
@[simp] theorem Chip.setFromRunning_ports (x : Bool) : (c.setFromRunning x).ports = c.ports := (rfl)
@[simp] theorem Chip.setFromRunning_evq (x : Bool) : (c.setFromRunning x).evq = c.evq := (rfl)
@[simp] theorem Chip.setFromRunning_nextEvent (x : Bool) : (c.setFromRunning x).nextEvent = c.nextEvent := (rfl)
@[simp] theorem Chip.setFromRunning_noticeSeq (x : Bool) : (c.setFromRunning x).noticeSeq = c.noticeSeq := (rfl)
@[simp] theorem Chip.setFromRunning_errs (x : Bool) : (c.setFromRunning x).errs = c.errs := (rfl)
@[simp] theorem Chip.setFromRunning_sel (x : Bool) : (c.setFromRunning x).sel = c.sel := (rfl)
@[simp] theorem Chip.setFromRunning_ctxs (x : Bool) : (c.setFromRunning x).ctxs = c.ctxs := (rfl)
@[simp] theorem Chip.setFromRunning_was (x : Bool) : (c.setFromRunning x).was = c.was := (rfl)
@[simp] theorem Chip.setFromRunning_feeds (x : Bool) : (c.setFromRunning x).feeds = c.feeds := (rfl)
@[simp] theorem Chip.setFromRunning_sramOps (x : Bool) : (c.setFromRunning x).sramOps = c.sramOps := (rfl)
@[simp] theorem Chip.setFromRunning_layout (x : Bool) : (c.setFromRunning x).layout = c.layout := (rfl)
@[simp] theorem Chip.setFromRunning_layoutOld (x : Bool) : (c.setFromRunning x).layoutOld = c.layoutOld := (rfl)
@[simp] theorem Chip.setFromRunning_sched (x : Bool) : (c.setFromRunning x).sched = c.sched := (rfl)
@[simp] theorem Chip.setFromRunning_colour (x : Bool) : (c.setFromRunning x).colour = c.colour := (rfl)
@[simp] theorem Chip.setFromRunning_scan (x : Bool) : (c.setFromRunning x).scan = c.scan := (rfl)
@[simp] theorem Chip.setFromRunning_chains (x : Bool) : (c.setFromRunning x).chains = c.chains := (rfl)
@[simp] theorem Chip.setFromRunning_dmx (x : Bool) : (c.setFromRunning x).dmx = c.dmx := (rfl)
@[simp] theorem Chip.setFromRunning_resend (x : Bool) : (c.setFromRunning x).resend = c.resend := (rfl)
@[simp] theorem Chip.setFromRunning_resendMs (x : Bool) : (c.setFromRunning x).resendMs = c.resendMs := (rfl)
@[simp] theorem Chip.setFromRunning_gang (x : Bool) : (c.setFromRunning x).gang = c.gang := (rfl)
@[simp] theorem Chip.setFromRunning_emul (x : Bool) : (c.setFromRunning x).emul = c.emul := (rfl)
@[simp] theorem Chip.setFromRunning_pair (x : Bool) : (c.setFromRunning x).pair = c.pair := (rfl)
@[simp] theorem Chip.setFromRunning_loading (x : Bool) : (c.setFromRunning x).loading = c.loading := (rfl)
@[simp] theorem Chip.setFromRunning_nvOps (x : Bool) : (c.setFromRunning x).nvOps = c.nvOps := (rfl)
@[simp] theorem Chip.setFromRunning_calib (x : Bool) : (c.setFromRunning x).calib = c.calib := (rfl)

/-! `setRegs`. -/

@[simp] theorem Chip.setRegs_st (x : SMap Word) : (c.setRegs x).st = c.st := (rfl)
@[simp] theorem Chip.setRegs_fromRunning (x : SMap Word) : (c.setRegs x).fromRunning = c.fromRunning := (rfl)
@[simp] theorem Chip.setRegs_regs (x : SMap Word) : (c.setRegs x).regs = x := (rfl)
@[simp] theorem Chip.setRegs_pend (x : SMap Word) : (c.setRegs x).pend = c.pend := (rfl)
@[simp] theorem Chip.setRegs_counters (x : SMap Word) : (c.setRegs x).counters = c.counters := (rfl)
@[simp] theorem Chip.setRegs_snaps (x : SMap Word) : (c.setRegs x).snaps = c.snaps := (rfl)
@[simp] theorem Chip.setRegs_answer (x : SMap Word) : (c.setRegs x).answer = c.answer := (rfl)
@[simp] theorem Chip.setRegs_freeCtr (x : SMap Word) : (c.setRegs x).freeCtr = c.freeCtr := (rfl)
@[simp] theorem Chip.setRegs_aon (x : SMap Word) : (c.setRegs x).aon = c.aon := (rfl)
@[simp] theorem Chip.setRegs_power (x : SMap Word) : (c.setRegs x).power = c.power := (rfl)
@[simp] theorem Chip.setRegs_clk (x : SMap Word) : (c.setRegs x).clk = c.clk := (rfl)
@[simp] theorem Chip.setRegs_time (x : SMap Word) : (c.setRegs x).time = c.time := (rfl)
@[simp] theorem Chip.setRegs_ports (x : SMap Word) : (c.setRegs x).ports = c.ports := (rfl)
@[simp] theorem Chip.setRegs_evq (x : SMap Word) : (c.setRegs x).evq = c.evq := (rfl)
@[simp] theorem Chip.setRegs_nextEvent (x : SMap Word) : (c.setRegs x).nextEvent = c.nextEvent := (rfl)
@[simp] theorem Chip.setRegs_noticeSeq (x : SMap Word) : (c.setRegs x).noticeSeq = c.noticeSeq := (rfl)
@[simp] theorem Chip.setRegs_errs (x : SMap Word) : (c.setRegs x).errs = c.errs := (rfl)
@[simp] theorem Chip.setRegs_sel (x : SMap Word) : (c.setRegs x).sel = c.sel := (rfl)
@[simp] theorem Chip.setRegs_ctxs (x : SMap Word) : (c.setRegs x).ctxs = c.ctxs := (rfl)
@[simp] theorem Chip.setRegs_was (x : SMap Word) : (c.setRegs x).was = c.was := (rfl)
@[simp] theorem Chip.setRegs_feeds (x : SMap Word) : (c.setRegs x).feeds = c.feeds := (rfl)
@[simp] theorem Chip.setRegs_sramOps (x : SMap Word) : (c.setRegs x).sramOps = c.sramOps := (rfl)
@[simp] theorem Chip.setRegs_layout (x : SMap Word) : (c.setRegs x).layout = c.layout := (rfl)
@[simp] theorem Chip.setRegs_layoutOld (x : SMap Word) : (c.setRegs x).layoutOld = c.layoutOld := (rfl)
@[simp] theorem Chip.setRegs_sched (x : SMap Word) : (c.setRegs x).sched = c.sched := (rfl)
@[simp] theorem Chip.setRegs_colour (x : SMap Word) : (c.setRegs x).colour = c.colour := (rfl)
@[simp] theorem Chip.setRegs_scan (x : SMap Word) : (c.setRegs x).scan = c.scan := (rfl)
@[simp] theorem Chip.setRegs_chains (x : SMap Word) : (c.setRegs x).chains = c.chains := (rfl)
@[simp] theorem Chip.setRegs_dmx (x : SMap Word) : (c.setRegs x).dmx = c.dmx := (rfl)
@[simp] theorem Chip.setRegs_resend (x : SMap Word) : (c.setRegs x).resend = c.resend := (rfl)
@[simp] theorem Chip.setRegs_resendMs (x : SMap Word) : (c.setRegs x).resendMs = c.resendMs := (rfl)
@[simp] theorem Chip.setRegs_gang (x : SMap Word) : (c.setRegs x).gang = c.gang := (rfl)
@[simp] theorem Chip.setRegs_emul (x : SMap Word) : (c.setRegs x).emul = c.emul := (rfl)
@[simp] theorem Chip.setRegs_pair (x : SMap Word) : (c.setRegs x).pair = c.pair := (rfl)
@[simp] theorem Chip.setRegs_loading (x : SMap Word) : (c.setRegs x).loading = c.loading := (rfl)
@[simp] theorem Chip.setRegs_nvOps (x : SMap Word) : (c.setRegs x).nvOps = c.nvOps := (rfl)
@[simp] theorem Chip.setRegs_calib (x : SMap Word) : (c.setRegs x).calib = c.calib := (rfl)

/-! `setPend`. -/

@[simp] theorem Chip.setPend_st (x : List Pend) : (c.setPend x).st = c.st := (rfl)
@[simp] theorem Chip.setPend_fromRunning (x : List Pend) : (c.setPend x).fromRunning = c.fromRunning := (rfl)
@[simp] theorem Chip.setPend_regs (x : List Pend) : (c.setPend x).regs = c.regs := (rfl)
@[simp] theorem Chip.setPend_pend (x : List Pend) : (c.setPend x).pend = x := (rfl)
@[simp] theorem Chip.setPend_counters (x : List Pend) : (c.setPend x).counters = c.counters := (rfl)
@[simp] theorem Chip.setPend_snaps (x : List Pend) : (c.setPend x).snaps = c.snaps := (rfl)
@[simp] theorem Chip.setPend_answer (x : List Pend) : (c.setPend x).answer = c.answer := (rfl)
@[simp] theorem Chip.setPend_freeCtr (x : List Pend) : (c.setPend x).freeCtr = c.freeCtr := (rfl)
@[simp] theorem Chip.setPend_aon (x : List Pend) : (c.setPend x).aon = c.aon := (rfl)
@[simp] theorem Chip.setPend_power (x : List Pend) : (c.setPend x).power = c.power := (rfl)
@[simp] theorem Chip.setPend_clk (x : List Pend) : (c.setPend x).clk = c.clk := (rfl)
@[simp] theorem Chip.setPend_time (x : List Pend) : (c.setPend x).time = c.time := (rfl)
@[simp] theorem Chip.setPend_ports (x : List Pend) : (c.setPend x).ports = c.ports := (rfl)
@[simp] theorem Chip.setPend_evq (x : List Pend) : (c.setPend x).evq = c.evq := (rfl)
@[simp] theorem Chip.setPend_nextEvent (x : List Pend) : (c.setPend x).nextEvent = c.nextEvent := (rfl)
@[simp] theorem Chip.setPend_noticeSeq (x : List Pend) : (c.setPend x).noticeSeq = c.noticeSeq := (rfl)
@[simp] theorem Chip.setPend_errs (x : List Pend) : (c.setPend x).errs = c.errs := (rfl)
@[simp] theorem Chip.setPend_sel (x : List Pend) : (c.setPend x).sel = c.sel := (rfl)
@[simp] theorem Chip.setPend_ctxs (x : List Pend) : (c.setPend x).ctxs = c.ctxs := (rfl)
@[simp] theorem Chip.setPend_was (x : List Pend) : (c.setPend x).was = c.was := (rfl)
@[simp] theorem Chip.setPend_feeds (x : List Pend) : (c.setPend x).feeds = c.feeds := (rfl)
@[simp] theorem Chip.setPend_sramOps (x : List Pend) : (c.setPend x).sramOps = c.sramOps := (rfl)
@[simp] theorem Chip.setPend_layout (x : List Pend) : (c.setPend x).layout = c.layout := (rfl)
@[simp] theorem Chip.setPend_layoutOld (x : List Pend) : (c.setPend x).layoutOld = c.layoutOld := (rfl)
@[simp] theorem Chip.setPend_sched (x : List Pend) : (c.setPend x).sched = c.sched := (rfl)
@[simp] theorem Chip.setPend_colour (x : List Pend) : (c.setPend x).colour = c.colour := (rfl)
@[simp] theorem Chip.setPend_scan (x : List Pend) : (c.setPend x).scan = c.scan := (rfl)
@[simp] theorem Chip.setPend_chains (x : List Pend) : (c.setPend x).chains = c.chains := (rfl)
@[simp] theorem Chip.setPend_dmx (x : List Pend) : (c.setPend x).dmx = c.dmx := (rfl)
@[simp] theorem Chip.setPend_resend (x : List Pend) : (c.setPend x).resend = c.resend := (rfl)
@[simp] theorem Chip.setPend_resendMs (x : List Pend) : (c.setPend x).resendMs = c.resendMs := (rfl)
@[simp] theorem Chip.setPend_gang (x : List Pend) : (c.setPend x).gang = c.gang := (rfl)
@[simp] theorem Chip.setPend_emul (x : List Pend) : (c.setPend x).emul = c.emul := (rfl)
@[simp] theorem Chip.setPend_pair (x : List Pend) : (c.setPend x).pair = c.pair := (rfl)
@[simp] theorem Chip.setPend_loading (x : List Pend) : (c.setPend x).loading = c.loading := (rfl)
@[simp] theorem Chip.setPend_nvOps (x : List Pend) : (c.setPend x).nvOps = c.nvOps := (rfl)
@[simp] theorem Chip.setPend_calib (x : List Pend) : (c.setPend x).calib = c.calib := (rfl)

/-! `setCounters`. -/

@[simp] theorem Chip.setCounters_st (x : SMap Nat) : (c.setCounters x).st = c.st := (rfl)
@[simp] theorem Chip.setCounters_fromRunning (x : SMap Nat) : (c.setCounters x).fromRunning = c.fromRunning := (rfl)
@[simp] theorem Chip.setCounters_regs (x : SMap Nat) : (c.setCounters x).regs = c.regs := (rfl)
@[simp] theorem Chip.setCounters_pend (x : SMap Nat) : (c.setCounters x).pend = c.pend := (rfl)
@[simp] theorem Chip.setCounters_counters (x : SMap Nat) : (c.setCounters x).counters = x := (rfl)
@[simp] theorem Chip.setCounters_snaps (x : SMap Nat) : (c.setCounters x).snaps = c.snaps := (rfl)
@[simp] theorem Chip.setCounters_answer (x : SMap Nat) : (c.setCounters x).answer = c.answer := (rfl)
@[simp] theorem Chip.setCounters_freeCtr (x : SMap Nat) : (c.setCounters x).freeCtr = c.freeCtr := (rfl)
@[simp] theorem Chip.setCounters_aon (x : SMap Nat) : (c.setCounters x).aon = c.aon := (rfl)
@[simp] theorem Chip.setCounters_power (x : SMap Nat) : (c.setCounters x).power = c.power := (rfl)
@[simp] theorem Chip.setCounters_clk (x : SMap Nat) : (c.setCounters x).clk = c.clk := (rfl)
@[simp] theorem Chip.setCounters_time (x : SMap Nat) : (c.setCounters x).time = c.time := (rfl)
@[simp] theorem Chip.setCounters_ports (x : SMap Nat) : (c.setCounters x).ports = c.ports := (rfl)
@[simp] theorem Chip.setCounters_evq (x : SMap Nat) : (c.setCounters x).evq = c.evq := (rfl)
@[simp] theorem Chip.setCounters_nextEvent (x : SMap Nat) : (c.setCounters x).nextEvent = c.nextEvent := (rfl)
@[simp] theorem Chip.setCounters_noticeSeq (x : SMap Nat) : (c.setCounters x).noticeSeq = c.noticeSeq := (rfl)
@[simp] theorem Chip.setCounters_errs (x : SMap Nat) : (c.setCounters x).errs = c.errs := (rfl)
@[simp] theorem Chip.setCounters_sel (x : SMap Nat) : (c.setCounters x).sel = c.sel := (rfl)
@[simp] theorem Chip.setCounters_ctxs (x : SMap Nat) : (c.setCounters x).ctxs = c.ctxs := (rfl)
@[simp] theorem Chip.setCounters_was (x : SMap Nat) : (c.setCounters x).was = c.was := (rfl)
@[simp] theorem Chip.setCounters_feeds (x : SMap Nat) : (c.setCounters x).feeds = c.feeds := (rfl)
@[simp] theorem Chip.setCounters_sramOps (x : SMap Nat) : (c.setCounters x).sramOps = c.sramOps := (rfl)
@[simp] theorem Chip.setCounters_layout (x : SMap Nat) : (c.setCounters x).layout = c.layout := (rfl)
@[simp] theorem Chip.setCounters_layoutOld (x : SMap Nat) : (c.setCounters x).layoutOld = c.layoutOld := (rfl)
@[simp] theorem Chip.setCounters_sched (x : SMap Nat) : (c.setCounters x).sched = c.sched := (rfl)
@[simp] theorem Chip.setCounters_colour (x : SMap Nat) : (c.setCounters x).colour = c.colour := (rfl)
@[simp] theorem Chip.setCounters_scan (x : SMap Nat) : (c.setCounters x).scan = c.scan := (rfl)
@[simp] theorem Chip.setCounters_chains (x : SMap Nat) : (c.setCounters x).chains = c.chains := (rfl)
@[simp] theorem Chip.setCounters_dmx (x : SMap Nat) : (c.setCounters x).dmx = c.dmx := (rfl)
@[simp] theorem Chip.setCounters_resend (x : SMap Nat) : (c.setCounters x).resend = c.resend := (rfl)
@[simp] theorem Chip.setCounters_resendMs (x : SMap Nat) : (c.setCounters x).resendMs = c.resendMs := (rfl)
@[simp] theorem Chip.setCounters_gang (x : SMap Nat) : (c.setCounters x).gang = c.gang := (rfl)
@[simp] theorem Chip.setCounters_emul (x : SMap Nat) : (c.setCounters x).emul = c.emul := (rfl)
@[simp] theorem Chip.setCounters_pair (x : SMap Nat) : (c.setCounters x).pair = c.pair := (rfl)
@[simp] theorem Chip.setCounters_loading (x : SMap Nat) : (c.setCounters x).loading = c.loading := (rfl)
@[simp] theorem Chip.setCounters_nvOps (x : SMap Nat) : (c.setCounters x).nvOps = c.nvOps := (rfl)
@[simp] theorem Chip.setCounters_calib (x : SMap Nat) : (c.setCounters x).calib = c.calib := (rfl)

/-! `setSnaps`. -/

@[simp] theorem Chip.setSnaps_st (x : SMap Nat) : (c.setSnaps x).st = c.st := (rfl)
@[simp] theorem Chip.setSnaps_fromRunning (x : SMap Nat) : (c.setSnaps x).fromRunning = c.fromRunning := (rfl)
@[simp] theorem Chip.setSnaps_regs (x : SMap Nat) : (c.setSnaps x).regs = c.regs := (rfl)
@[simp] theorem Chip.setSnaps_pend (x : SMap Nat) : (c.setSnaps x).pend = c.pend := (rfl)
@[simp] theorem Chip.setSnaps_counters (x : SMap Nat) : (c.setSnaps x).counters = c.counters := (rfl)
@[simp] theorem Chip.setSnaps_snaps (x : SMap Nat) : (c.setSnaps x).snaps = x := (rfl)
@[simp] theorem Chip.setSnaps_answer (x : SMap Nat) : (c.setSnaps x).answer = c.answer := (rfl)
@[simp] theorem Chip.setSnaps_freeCtr (x : SMap Nat) : (c.setSnaps x).freeCtr = c.freeCtr := (rfl)
@[simp] theorem Chip.setSnaps_aon (x : SMap Nat) : (c.setSnaps x).aon = c.aon := (rfl)
@[simp] theorem Chip.setSnaps_power (x : SMap Nat) : (c.setSnaps x).power = c.power := (rfl)
@[simp] theorem Chip.setSnaps_clk (x : SMap Nat) : (c.setSnaps x).clk = c.clk := (rfl)
@[simp] theorem Chip.setSnaps_time (x : SMap Nat) : (c.setSnaps x).time = c.time := (rfl)
@[simp] theorem Chip.setSnaps_ports (x : SMap Nat) : (c.setSnaps x).ports = c.ports := (rfl)
@[simp] theorem Chip.setSnaps_evq (x : SMap Nat) : (c.setSnaps x).evq = c.evq := (rfl)
@[simp] theorem Chip.setSnaps_nextEvent (x : SMap Nat) : (c.setSnaps x).nextEvent = c.nextEvent := (rfl)
@[simp] theorem Chip.setSnaps_noticeSeq (x : SMap Nat) : (c.setSnaps x).noticeSeq = c.noticeSeq := (rfl)
@[simp] theorem Chip.setSnaps_errs (x : SMap Nat) : (c.setSnaps x).errs = c.errs := (rfl)
@[simp] theorem Chip.setSnaps_sel (x : SMap Nat) : (c.setSnaps x).sel = c.sel := (rfl)
@[simp] theorem Chip.setSnaps_ctxs (x : SMap Nat) : (c.setSnaps x).ctxs = c.ctxs := (rfl)
@[simp] theorem Chip.setSnaps_was (x : SMap Nat) : (c.setSnaps x).was = c.was := (rfl)
@[simp] theorem Chip.setSnaps_feeds (x : SMap Nat) : (c.setSnaps x).feeds = c.feeds := (rfl)
@[simp] theorem Chip.setSnaps_sramOps (x : SMap Nat) : (c.setSnaps x).sramOps = c.sramOps := (rfl)
@[simp] theorem Chip.setSnaps_layout (x : SMap Nat) : (c.setSnaps x).layout = c.layout := (rfl)
@[simp] theorem Chip.setSnaps_layoutOld (x : SMap Nat) : (c.setSnaps x).layoutOld = c.layoutOld := (rfl)
@[simp] theorem Chip.setSnaps_sched (x : SMap Nat) : (c.setSnaps x).sched = c.sched := (rfl)
@[simp] theorem Chip.setSnaps_colour (x : SMap Nat) : (c.setSnaps x).colour = c.colour := (rfl)
@[simp] theorem Chip.setSnaps_scan (x : SMap Nat) : (c.setSnaps x).scan = c.scan := (rfl)
@[simp] theorem Chip.setSnaps_chains (x : SMap Nat) : (c.setSnaps x).chains = c.chains := (rfl)
@[simp] theorem Chip.setSnaps_dmx (x : SMap Nat) : (c.setSnaps x).dmx = c.dmx := (rfl)
@[simp] theorem Chip.setSnaps_resend (x : SMap Nat) : (c.setSnaps x).resend = c.resend := (rfl)
@[simp] theorem Chip.setSnaps_resendMs (x : SMap Nat) : (c.setSnaps x).resendMs = c.resendMs := (rfl)
@[simp] theorem Chip.setSnaps_gang (x : SMap Nat) : (c.setSnaps x).gang = c.gang := (rfl)
@[simp] theorem Chip.setSnaps_emul (x : SMap Nat) : (c.setSnaps x).emul = c.emul := (rfl)
@[simp] theorem Chip.setSnaps_pair (x : SMap Nat) : (c.setSnaps x).pair = c.pair := (rfl)
@[simp] theorem Chip.setSnaps_loading (x : SMap Nat) : (c.setSnaps x).loading = c.loading := (rfl)
@[simp] theorem Chip.setSnaps_nvOps (x : SMap Nat) : (c.setSnaps x).nvOps = c.nvOps := (rfl)
@[simp] theorem Chip.setSnaps_calib (x : SMap Nat) : (c.setSnaps x).calib = c.calib := (rfl)

/-! `setAnswer`. -/

@[simp] theorem Chip.setAnswer_st (x : Answer) : (c.setAnswer x).st = c.st := (rfl)
@[simp] theorem Chip.setAnswer_fromRunning (x : Answer) : (c.setAnswer x).fromRunning = c.fromRunning := (rfl)
@[simp] theorem Chip.setAnswer_regs (x : Answer) : (c.setAnswer x).regs = c.regs := (rfl)
@[simp] theorem Chip.setAnswer_pend (x : Answer) : (c.setAnswer x).pend = c.pend := (rfl)
@[simp] theorem Chip.setAnswer_counters (x : Answer) : (c.setAnswer x).counters = c.counters := (rfl)
@[simp] theorem Chip.setAnswer_snaps (x : Answer) : (c.setAnswer x).snaps = c.snaps := (rfl)
@[simp] theorem Chip.setAnswer_answer (x : Answer) : (c.setAnswer x).answer = x := (rfl)
@[simp] theorem Chip.setAnswer_freeCtr (x : Answer) : (c.setAnswer x).freeCtr = c.freeCtr := (rfl)
@[simp] theorem Chip.setAnswer_aon (x : Answer) : (c.setAnswer x).aon = c.aon := (rfl)
@[simp] theorem Chip.setAnswer_power (x : Answer) : (c.setAnswer x).power = c.power := (rfl)
@[simp] theorem Chip.setAnswer_clk (x : Answer) : (c.setAnswer x).clk = c.clk := (rfl)
@[simp] theorem Chip.setAnswer_time (x : Answer) : (c.setAnswer x).time = c.time := (rfl)
@[simp] theorem Chip.setAnswer_ports (x : Answer) : (c.setAnswer x).ports = c.ports := (rfl)
@[simp] theorem Chip.setAnswer_evq (x : Answer) : (c.setAnswer x).evq = c.evq := (rfl)
@[simp] theorem Chip.setAnswer_nextEvent (x : Answer) : (c.setAnswer x).nextEvent = c.nextEvent := (rfl)
@[simp] theorem Chip.setAnswer_noticeSeq (x : Answer) : (c.setAnswer x).noticeSeq = c.noticeSeq := (rfl)
@[simp] theorem Chip.setAnswer_errs (x : Answer) : (c.setAnswer x).errs = c.errs := (rfl)
@[simp] theorem Chip.setAnswer_sel (x : Answer) : (c.setAnswer x).sel = c.sel := (rfl)
@[simp] theorem Chip.setAnswer_ctxs (x : Answer) : (c.setAnswer x).ctxs = c.ctxs := (rfl)
@[simp] theorem Chip.setAnswer_was (x : Answer) : (c.setAnswer x).was = c.was := (rfl)
@[simp] theorem Chip.setAnswer_feeds (x : Answer) : (c.setAnswer x).feeds = c.feeds := (rfl)
@[simp] theorem Chip.setAnswer_sramOps (x : Answer) : (c.setAnswer x).sramOps = c.sramOps := (rfl)
@[simp] theorem Chip.setAnswer_layout (x : Answer) : (c.setAnswer x).layout = c.layout := (rfl)
@[simp] theorem Chip.setAnswer_layoutOld (x : Answer) : (c.setAnswer x).layoutOld = c.layoutOld := (rfl)
@[simp] theorem Chip.setAnswer_sched (x : Answer) : (c.setAnswer x).sched = c.sched := (rfl)
@[simp] theorem Chip.setAnswer_colour (x : Answer) : (c.setAnswer x).colour = c.colour := (rfl)
@[simp] theorem Chip.setAnswer_scan (x : Answer) : (c.setAnswer x).scan = c.scan := (rfl)
@[simp] theorem Chip.setAnswer_chains (x : Answer) : (c.setAnswer x).chains = c.chains := (rfl)
@[simp] theorem Chip.setAnswer_dmx (x : Answer) : (c.setAnswer x).dmx = c.dmx := (rfl)
@[simp] theorem Chip.setAnswer_resend (x : Answer) : (c.setAnswer x).resend = c.resend := (rfl)
@[simp] theorem Chip.setAnswer_resendMs (x : Answer) : (c.setAnswer x).resendMs = c.resendMs := (rfl)
@[simp] theorem Chip.setAnswer_gang (x : Answer) : (c.setAnswer x).gang = c.gang := (rfl)
@[simp] theorem Chip.setAnswer_emul (x : Answer) : (c.setAnswer x).emul = c.emul := (rfl)
@[simp] theorem Chip.setAnswer_pair (x : Answer) : (c.setAnswer x).pair = c.pair := (rfl)
@[simp] theorem Chip.setAnswer_loading (x : Answer) : (c.setAnswer x).loading = c.loading := (rfl)
@[simp] theorem Chip.setAnswer_nvOps (x : Answer) : (c.setAnswer x).nvOps = c.nvOps := (rfl)
@[simp] theorem Chip.setAnswer_calib (x : Answer) : (c.setAnswer x).calib = c.calib := (rfl)

/-! `setFreeCtr`. -/

@[simp] theorem Chip.setFreeCtr_st (x : Nat) : (c.setFreeCtr x).st = c.st := (rfl)
@[simp] theorem Chip.setFreeCtr_fromRunning (x : Nat) : (c.setFreeCtr x).fromRunning = c.fromRunning := (rfl)
@[simp] theorem Chip.setFreeCtr_regs (x : Nat) : (c.setFreeCtr x).regs = c.regs := (rfl)
@[simp] theorem Chip.setFreeCtr_pend (x : Nat) : (c.setFreeCtr x).pend = c.pend := (rfl)
@[simp] theorem Chip.setFreeCtr_counters (x : Nat) : (c.setFreeCtr x).counters = c.counters := (rfl)
@[simp] theorem Chip.setFreeCtr_snaps (x : Nat) : (c.setFreeCtr x).snaps = c.snaps := (rfl)
@[simp] theorem Chip.setFreeCtr_answer (x : Nat) : (c.setFreeCtr x).answer = c.answer := (rfl)
@[simp] theorem Chip.setFreeCtr_freeCtr (x : Nat) : (c.setFreeCtr x).freeCtr = x := (rfl)
@[simp] theorem Chip.setFreeCtr_aon (x : Nat) : (c.setFreeCtr x).aon = c.aon := (rfl)
@[simp] theorem Chip.setFreeCtr_power (x : Nat) : (c.setFreeCtr x).power = c.power := (rfl)
@[simp] theorem Chip.setFreeCtr_clk (x : Nat) : (c.setFreeCtr x).clk = c.clk := (rfl)
@[simp] theorem Chip.setFreeCtr_time (x : Nat) : (c.setFreeCtr x).time = c.time := (rfl)
@[simp] theorem Chip.setFreeCtr_ports (x : Nat) : (c.setFreeCtr x).ports = c.ports := (rfl)
@[simp] theorem Chip.setFreeCtr_evq (x : Nat) : (c.setFreeCtr x).evq = c.evq := (rfl)
@[simp] theorem Chip.setFreeCtr_nextEvent (x : Nat) : (c.setFreeCtr x).nextEvent = c.nextEvent := (rfl)
@[simp] theorem Chip.setFreeCtr_noticeSeq (x : Nat) : (c.setFreeCtr x).noticeSeq = c.noticeSeq := (rfl)
@[simp] theorem Chip.setFreeCtr_errs (x : Nat) : (c.setFreeCtr x).errs = c.errs := (rfl)
@[simp] theorem Chip.setFreeCtr_sel (x : Nat) : (c.setFreeCtr x).sel = c.sel := (rfl)
@[simp] theorem Chip.setFreeCtr_ctxs (x : Nat) : (c.setFreeCtr x).ctxs = c.ctxs := (rfl)
@[simp] theorem Chip.setFreeCtr_was (x : Nat) : (c.setFreeCtr x).was = c.was := (rfl)
@[simp] theorem Chip.setFreeCtr_feeds (x : Nat) : (c.setFreeCtr x).feeds = c.feeds := (rfl)
@[simp] theorem Chip.setFreeCtr_sramOps (x : Nat) : (c.setFreeCtr x).sramOps = c.sramOps := (rfl)
@[simp] theorem Chip.setFreeCtr_layout (x : Nat) : (c.setFreeCtr x).layout = c.layout := (rfl)
@[simp] theorem Chip.setFreeCtr_layoutOld (x : Nat) : (c.setFreeCtr x).layoutOld = c.layoutOld := (rfl)
@[simp] theorem Chip.setFreeCtr_sched (x : Nat) : (c.setFreeCtr x).sched = c.sched := (rfl)
@[simp] theorem Chip.setFreeCtr_colour (x : Nat) : (c.setFreeCtr x).colour = c.colour := (rfl)
@[simp] theorem Chip.setFreeCtr_scan (x : Nat) : (c.setFreeCtr x).scan = c.scan := (rfl)
@[simp] theorem Chip.setFreeCtr_chains (x : Nat) : (c.setFreeCtr x).chains = c.chains := (rfl)
@[simp] theorem Chip.setFreeCtr_dmx (x : Nat) : (c.setFreeCtr x).dmx = c.dmx := (rfl)
@[simp] theorem Chip.setFreeCtr_resend (x : Nat) : (c.setFreeCtr x).resend = c.resend := (rfl)
@[simp] theorem Chip.setFreeCtr_resendMs (x : Nat) : (c.setFreeCtr x).resendMs = c.resendMs := (rfl)
@[simp] theorem Chip.setFreeCtr_gang (x : Nat) : (c.setFreeCtr x).gang = c.gang := (rfl)
@[simp] theorem Chip.setFreeCtr_emul (x : Nat) : (c.setFreeCtr x).emul = c.emul := (rfl)
@[simp] theorem Chip.setFreeCtr_pair (x : Nat) : (c.setFreeCtr x).pair = c.pair := (rfl)
@[simp] theorem Chip.setFreeCtr_loading (x : Nat) : (c.setFreeCtr x).loading = c.loading := (rfl)
@[simp] theorem Chip.setFreeCtr_nvOps (x : Nat) : (c.setFreeCtr x).nvOps = c.nvOps := (rfl)
@[simp] theorem Chip.setFreeCtr_calib (x : Nat) : (c.setFreeCtr x).calib = c.calib := (rfl)

/-! `setAon`. -/

@[simp] theorem Chip.setAon_st (x : Aon) : (c.setAon x).st = c.st := (rfl)
@[simp] theorem Chip.setAon_fromRunning (x : Aon) : (c.setAon x).fromRunning = c.fromRunning := (rfl)
@[simp] theorem Chip.setAon_regs (x : Aon) : (c.setAon x).regs = c.regs := (rfl)
@[simp] theorem Chip.setAon_pend (x : Aon) : (c.setAon x).pend = c.pend := (rfl)
@[simp] theorem Chip.setAon_counters (x : Aon) : (c.setAon x).counters = c.counters := (rfl)
@[simp] theorem Chip.setAon_snaps (x : Aon) : (c.setAon x).snaps = c.snaps := (rfl)
@[simp] theorem Chip.setAon_answer (x : Aon) : (c.setAon x).answer = c.answer := (rfl)
@[simp] theorem Chip.setAon_freeCtr (x : Aon) : (c.setAon x).freeCtr = c.freeCtr := (rfl)
@[simp] theorem Chip.setAon_aon (x : Aon) : (c.setAon x).aon = x := (rfl)
@[simp] theorem Chip.setAon_power (x : Aon) : (c.setAon x).power = c.power := (rfl)
@[simp] theorem Chip.setAon_clk (x : Aon) : (c.setAon x).clk = c.clk := (rfl)
@[simp] theorem Chip.setAon_time (x : Aon) : (c.setAon x).time = c.time := (rfl)
@[simp] theorem Chip.setAon_ports (x : Aon) : (c.setAon x).ports = c.ports := (rfl)
@[simp] theorem Chip.setAon_evq (x : Aon) : (c.setAon x).evq = c.evq := (rfl)
@[simp] theorem Chip.setAon_nextEvent (x : Aon) : (c.setAon x).nextEvent = c.nextEvent := (rfl)
@[simp] theorem Chip.setAon_noticeSeq (x : Aon) : (c.setAon x).noticeSeq = c.noticeSeq := (rfl)
@[simp] theorem Chip.setAon_errs (x : Aon) : (c.setAon x).errs = c.errs := (rfl)
@[simp] theorem Chip.setAon_sel (x : Aon) : (c.setAon x).sel = c.sel := (rfl)
@[simp] theorem Chip.setAon_ctxs (x : Aon) : (c.setAon x).ctxs = c.ctxs := (rfl)
@[simp] theorem Chip.setAon_was (x : Aon) : (c.setAon x).was = c.was := (rfl)
@[simp] theorem Chip.setAon_feeds (x : Aon) : (c.setAon x).feeds = c.feeds := (rfl)
@[simp] theorem Chip.setAon_sramOps (x : Aon) : (c.setAon x).sramOps = c.sramOps := (rfl)
@[simp] theorem Chip.setAon_layout (x : Aon) : (c.setAon x).layout = c.layout := (rfl)
@[simp] theorem Chip.setAon_layoutOld (x : Aon) : (c.setAon x).layoutOld = c.layoutOld := (rfl)
@[simp] theorem Chip.setAon_sched (x : Aon) : (c.setAon x).sched = c.sched := (rfl)
@[simp] theorem Chip.setAon_colour (x : Aon) : (c.setAon x).colour = c.colour := (rfl)
@[simp] theorem Chip.setAon_scan (x : Aon) : (c.setAon x).scan = c.scan := (rfl)
@[simp] theorem Chip.setAon_chains (x : Aon) : (c.setAon x).chains = c.chains := (rfl)
@[simp] theorem Chip.setAon_dmx (x : Aon) : (c.setAon x).dmx = c.dmx := (rfl)
@[simp] theorem Chip.setAon_resend (x : Aon) : (c.setAon x).resend = c.resend := (rfl)
@[simp] theorem Chip.setAon_resendMs (x : Aon) : (c.setAon x).resendMs = c.resendMs := (rfl)
@[simp] theorem Chip.setAon_gang (x : Aon) : (c.setAon x).gang = c.gang := (rfl)
@[simp] theorem Chip.setAon_emul (x : Aon) : (c.setAon x).emul = c.emul := (rfl)
@[simp] theorem Chip.setAon_pair (x : Aon) : (c.setAon x).pair = c.pair := (rfl)
@[simp] theorem Chip.setAon_loading (x : Aon) : (c.setAon x).loading = c.loading := (rfl)
@[simp] theorem Chip.setAon_nvOps (x : Aon) : (c.setAon x).nvOps = c.nvOps := (rfl)
@[simp] theorem Chip.setAon_calib (x : Aon) : (c.setAon x).calib = c.calib := (rfl)

/-! `setPower`. -/

@[simp] theorem Chip.setPower_st (x : Power) : (c.setPower x).st = c.st := (rfl)
@[simp] theorem Chip.setPower_fromRunning (x : Power) : (c.setPower x).fromRunning = c.fromRunning := (rfl)
@[simp] theorem Chip.setPower_regs (x : Power) : (c.setPower x).regs = c.regs := (rfl)
@[simp] theorem Chip.setPower_pend (x : Power) : (c.setPower x).pend = c.pend := (rfl)
@[simp] theorem Chip.setPower_counters (x : Power) : (c.setPower x).counters = c.counters := (rfl)
@[simp] theorem Chip.setPower_snaps (x : Power) : (c.setPower x).snaps = c.snaps := (rfl)
@[simp] theorem Chip.setPower_answer (x : Power) : (c.setPower x).answer = c.answer := (rfl)
@[simp] theorem Chip.setPower_freeCtr (x : Power) : (c.setPower x).freeCtr = c.freeCtr := (rfl)
@[simp] theorem Chip.setPower_aon (x : Power) : (c.setPower x).aon = c.aon := (rfl)
@[simp] theorem Chip.setPower_power (x : Power) : (c.setPower x).power = x := (rfl)
@[simp] theorem Chip.setPower_clk (x : Power) : (c.setPower x).clk = c.clk := (rfl)
@[simp] theorem Chip.setPower_time (x : Power) : (c.setPower x).time = c.time := (rfl)
@[simp] theorem Chip.setPower_ports (x : Power) : (c.setPower x).ports = c.ports := (rfl)
@[simp] theorem Chip.setPower_evq (x : Power) : (c.setPower x).evq = c.evq := (rfl)
@[simp] theorem Chip.setPower_nextEvent (x : Power) : (c.setPower x).nextEvent = c.nextEvent := (rfl)
@[simp] theorem Chip.setPower_noticeSeq (x : Power) : (c.setPower x).noticeSeq = c.noticeSeq := (rfl)
@[simp] theorem Chip.setPower_errs (x : Power) : (c.setPower x).errs = c.errs := (rfl)
@[simp] theorem Chip.setPower_sel (x : Power) : (c.setPower x).sel = c.sel := (rfl)
@[simp] theorem Chip.setPower_ctxs (x : Power) : (c.setPower x).ctxs = c.ctxs := (rfl)
@[simp] theorem Chip.setPower_was (x : Power) : (c.setPower x).was = c.was := (rfl)
@[simp] theorem Chip.setPower_feeds (x : Power) : (c.setPower x).feeds = c.feeds := (rfl)
@[simp] theorem Chip.setPower_sramOps (x : Power) : (c.setPower x).sramOps = c.sramOps := (rfl)
@[simp] theorem Chip.setPower_layout (x : Power) : (c.setPower x).layout = c.layout := (rfl)
@[simp] theorem Chip.setPower_layoutOld (x : Power) : (c.setPower x).layoutOld = c.layoutOld := (rfl)
@[simp] theorem Chip.setPower_sched (x : Power) : (c.setPower x).sched = c.sched := (rfl)
@[simp] theorem Chip.setPower_colour (x : Power) : (c.setPower x).colour = c.colour := (rfl)
@[simp] theorem Chip.setPower_scan (x : Power) : (c.setPower x).scan = c.scan := (rfl)
@[simp] theorem Chip.setPower_chains (x : Power) : (c.setPower x).chains = c.chains := (rfl)
@[simp] theorem Chip.setPower_dmx (x : Power) : (c.setPower x).dmx = c.dmx := (rfl)
@[simp] theorem Chip.setPower_resend (x : Power) : (c.setPower x).resend = c.resend := (rfl)
@[simp] theorem Chip.setPower_resendMs (x : Power) : (c.setPower x).resendMs = c.resendMs := (rfl)
@[simp] theorem Chip.setPower_gang (x : Power) : (c.setPower x).gang = c.gang := (rfl)
@[simp] theorem Chip.setPower_emul (x : Power) : (c.setPower x).emul = c.emul := (rfl)
@[simp] theorem Chip.setPower_pair (x : Power) : (c.setPower x).pair = c.pair := (rfl)
@[simp] theorem Chip.setPower_loading (x : Power) : (c.setPower x).loading = c.loading := (rfl)
@[simp] theorem Chip.setPower_nvOps (x : Power) : (c.setPower x).nvOps = c.nvOps := (rfl)
@[simp] theorem Chip.setPower_calib (x : Power) : (c.setPower x).calib = c.calib := (rfl)

/-! `setClk`. -/

@[simp] theorem Chip.setClk_st (x : Clk) : (c.setClk x).st = c.st := (rfl)
@[simp] theorem Chip.setClk_fromRunning (x : Clk) : (c.setClk x).fromRunning = c.fromRunning := (rfl)
@[simp] theorem Chip.setClk_regs (x : Clk) : (c.setClk x).regs = c.regs := (rfl)
@[simp] theorem Chip.setClk_pend (x : Clk) : (c.setClk x).pend = c.pend := (rfl)
@[simp] theorem Chip.setClk_counters (x : Clk) : (c.setClk x).counters = c.counters := (rfl)
@[simp] theorem Chip.setClk_snaps (x : Clk) : (c.setClk x).snaps = c.snaps := (rfl)
@[simp] theorem Chip.setClk_answer (x : Clk) : (c.setClk x).answer = c.answer := (rfl)
@[simp] theorem Chip.setClk_freeCtr (x : Clk) : (c.setClk x).freeCtr = c.freeCtr := (rfl)
@[simp] theorem Chip.setClk_aon (x : Clk) : (c.setClk x).aon = c.aon := (rfl)
@[simp] theorem Chip.setClk_power (x : Clk) : (c.setClk x).power = c.power := (rfl)
@[simp] theorem Chip.setClk_clk (x : Clk) : (c.setClk x).clk = x := (rfl)
@[simp] theorem Chip.setClk_time (x : Clk) : (c.setClk x).time = c.time := (rfl)
@[simp] theorem Chip.setClk_ports (x : Clk) : (c.setClk x).ports = c.ports := (rfl)
@[simp] theorem Chip.setClk_evq (x : Clk) : (c.setClk x).evq = c.evq := (rfl)
@[simp] theorem Chip.setClk_nextEvent (x : Clk) : (c.setClk x).nextEvent = c.nextEvent := (rfl)
@[simp] theorem Chip.setClk_noticeSeq (x : Clk) : (c.setClk x).noticeSeq = c.noticeSeq := (rfl)
@[simp] theorem Chip.setClk_errs (x : Clk) : (c.setClk x).errs = c.errs := (rfl)
@[simp] theorem Chip.setClk_sel (x : Clk) : (c.setClk x).sel = c.sel := (rfl)
@[simp] theorem Chip.setClk_ctxs (x : Clk) : (c.setClk x).ctxs = c.ctxs := (rfl)
@[simp] theorem Chip.setClk_was (x : Clk) : (c.setClk x).was = c.was := (rfl)
@[simp] theorem Chip.setClk_feeds (x : Clk) : (c.setClk x).feeds = c.feeds := (rfl)
@[simp] theorem Chip.setClk_sramOps (x : Clk) : (c.setClk x).sramOps = c.sramOps := (rfl)
@[simp] theorem Chip.setClk_layout (x : Clk) : (c.setClk x).layout = c.layout := (rfl)
@[simp] theorem Chip.setClk_layoutOld (x : Clk) : (c.setClk x).layoutOld = c.layoutOld := (rfl)
@[simp] theorem Chip.setClk_sched (x : Clk) : (c.setClk x).sched = c.sched := (rfl)
@[simp] theorem Chip.setClk_colour (x : Clk) : (c.setClk x).colour = c.colour := (rfl)
@[simp] theorem Chip.setClk_scan (x : Clk) : (c.setClk x).scan = c.scan := (rfl)
@[simp] theorem Chip.setClk_chains (x : Clk) : (c.setClk x).chains = c.chains := (rfl)
@[simp] theorem Chip.setClk_dmx (x : Clk) : (c.setClk x).dmx = c.dmx := (rfl)
@[simp] theorem Chip.setClk_resend (x : Clk) : (c.setClk x).resend = c.resend := (rfl)
@[simp] theorem Chip.setClk_resendMs (x : Clk) : (c.setClk x).resendMs = c.resendMs := (rfl)
@[simp] theorem Chip.setClk_gang (x : Clk) : (c.setClk x).gang = c.gang := (rfl)
@[simp] theorem Chip.setClk_emul (x : Clk) : (c.setClk x).emul = c.emul := (rfl)
@[simp] theorem Chip.setClk_pair (x : Clk) : (c.setClk x).pair = c.pair := (rfl)
@[simp] theorem Chip.setClk_loading (x : Clk) : (c.setClk x).loading = c.loading := (rfl)
@[simp] theorem Chip.setClk_nvOps (x : Clk) : (c.setClk x).nvOps = c.nvOps := (rfl)
@[simp] theorem Chip.setClk_calib (x : Clk) : (c.setClk x).calib = c.calib := (rfl)

/-! `setTime`. -/

@[simp] theorem Chip.setTime_st (x : Time) : (c.setTime x).st = c.st := (rfl)
@[simp] theorem Chip.setTime_fromRunning (x : Time) : (c.setTime x).fromRunning = c.fromRunning := (rfl)
@[simp] theorem Chip.setTime_regs (x : Time) : (c.setTime x).regs = c.regs := (rfl)
@[simp] theorem Chip.setTime_pend (x : Time) : (c.setTime x).pend = c.pend := (rfl)
@[simp] theorem Chip.setTime_counters (x : Time) : (c.setTime x).counters = c.counters := (rfl)
@[simp] theorem Chip.setTime_snaps (x : Time) : (c.setTime x).snaps = c.snaps := (rfl)
@[simp] theorem Chip.setTime_answer (x : Time) : (c.setTime x).answer = c.answer := (rfl)
@[simp] theorem Chip.setTime_freeCtr (x : Time) : (c.setTime x).freeCtr = c.freeCtr := (rfl)
@[simp] theorem Chip.setTime_aon (x : Time) : (c.setTime x).aon = c.aon := (rfl)
@[simp] theorem Chip.setTime_power (x : Time) : (c.setTime x).power = c.power := (rfl)
@[simp] theorem Chip.setTime_clk (x : Time) : (c.setTime x).clk = c.clk := (rfl)
@[simp] theorem Chip.setTime_time (x : Time) : (c.setTime x).time = x := (rfl)
@[simp] theorem Chip.setTime_ports (x : Time) : (c.setTime x).ports = c.ports := (rfl)
@[simp] theorem Chip.setTime_evq (x : Time) : (c.setTime x).evq = c.evq := (rfl)
@[simp] theorem Chip.setTime_nextEvent (x : Time) : (c.setTime x).nextEvent = c.nextEvent := (rfl)
@[simp] theorem Chip.setTime_noticeSeq (x : Time) : (c.setTime x).noticeSeq = c.noticeSeq := (rfl)
@[simp] theorem Chip.setTime_errs (x : Time) : (c.setTime x).errs = c.errs := (rfl)
@[simp] theorem Chip.setTime_sel (x : Time) : (c.setTime x).sel = c.sel := (rfl)
@[simp] theorem Chip.setTime_ctxs (x : Time) : (c.setTime x).ctxs = c.ctxs := (rfl)
@[simp] theorem Chip.setTime_was (x : Time) : (c.setTime x).was = c.was := (rfl)
@[simp] theorem Chip.setTime_feeds (x : Time) : (c.setTime x).feeds = c.feeds := (rfl)
@[simp] theorem Chip.setTime_sramOps (x : Time) : (c.setTime x).sramOps = c.sramOps := (rfl)
@[simp] theorem Chip.setTime_layout (x : Time) : (c.setTime x).layout = c.layout := (rfl)
@[simp] theorem Chip.setTime_layoutOld (x : Time) : (c.setTime x).layoutOld = c.layoutOld := (rfl)
@[simp] theorem Chip.setTime_sched (x : Time) : (c.setTime x).sched = c.sched := (rfl)
@[simp] theorem Chip.setTime_colour (x : Time) : (c.setTime x).colour = c.colour := (rfl)
@[simp] theorem Chip.setTime_scan (x : Time) : (c.setTime x).scan = c.scan := (rfl)
@[simp] theorem Chip.setTime_chains (x : Time) : (c.setTime x).chains = c.chains := (rfl)
@[simp] theorem Chip.setTime_dmx (x : Time) : (c.setTime x).dmx = c.dmx := (rfl)
@[simp] theorem Chip.setTime_resend (x : Time) : (c.setTime x).resend = c.resend := (rfl)
@[simp] theorem Chip.setTime_resendMs (x : Time) : (c.setTime x).resendMs = c.resendMs := (rfl)
@[simp] theorem Chip.setTime_gang (x : Time) : (c.setTime x).gang = c.gang := (rfl)
@[simp] theorem Chip.setTime_emul (x : Time) : (c.setTime x).emul = c.emul := (rfl)
@[simp] theorem Chip.setTime_pair (x : Time) : (c.setTime x).pair = c.pair := (rfl)
@[simp] theorem Chip.setTime_loading (x : Time) : (c.setTime x).loading = c.loading := (rfl)
@[simp] theorem Chip.setTime_nvOps (x : Time) : (c.setTime x).nvOps = c.nvOps := (rfl)
@[simp] theorem Chip.setTime_calib (x : Time) : (c.setTime x).calib = c.calib := (rfl)

/-! `setPorts`. -/

@[simp] theorem Chip.setPorts_st (x : Vector Port 2) : (c.setPorts x).st = c.st := (rfl)
@[simp] theorem Chip.setPorts_fromRunning (x : Vector Port 2) : (c.setPorts x).fromRunning = c.fromRunning := (rfl)
@[simp] theorem Chip.setPorts_regs (x : Vector Port 2) : (c.setPorts x).regs = c.regs := (rfl)
@[simp] theorem Chip.setPorts_pend (x : Vector Port 2) : (c.setPorts x).pend = c.pend := (rfl)
@[simp] theorem Chip.setPorts_counters (x : Vector Port 2) : (c.setPorts x).counters = c.counters := (rfl)
@[simp] theorem Chip.setPorts_snaps (x : Vector Port 2) : (c.setPorts x).snaps = c.snaps := (rfl)
@[simp] theorem Chip.setPorts_answer (x : Vector Port 2) : (c.setPorts x).answer = c.answer := (rfl)
@[simp] theorem Chip.setPorts_freeCtr (x : Vector Port 2) : (c.setPorts x).freeCtr = c.freeCtr := (rfl)
@[simp] theorem Chip.setPorts_aon (x : Vector Port 2) : (c.setPorts x).aon = c.aon := (rfl)
@[simp] theorem Chip.setPorts_power (x : Vector Port 2) : (c.setPorts x).power = c.power := (rfl)
@[simp] theorem Chip.setPorts_clk (x : Vector Port 2) : (c.setPorts x).clk = c.clk := (rfl)
@[simp] theorem Chip.setPorts_time (x : Vector Port 2) : (c.setPorts x).time = c.time := (rfl)
@[simp] theorem Chip.setPorts_ports (x : Vector Port 2) : (c.setPorts x).ports = x := (rfl)
@[simp] theorem Chip.setPorts_evq (x : Vector Port 2) : (c.setPorts x).evq = c.evq := (rfl)
@[simp] theorem Chip.setPorts_nextEvent (x : Vector Port 2) : (c.setPorts x).nextEvent = c.nextEvent := (rfl)
@[simp] theorem Chip.setPorts_noticeSeq (x : Vector Port 2) : (c.setPorts x).noticeSeq = c.noticeSeq := (rfl)
@[simp] theorem Chip.setPorts_errs (x : Vector Port 2) : (c.setPorts x).errs = c.errs := (rfl)
@[simp] theorem Chip.setPorts_sel (x : Vector Port 2) : (c.setPorts x).sel = c.sel := (rfl)
@[simp] theorem Chip.setPorts_ctxs (x : Vector Port 2) : (c.setPorts x).ctxs = c.ctxs := (rfl)
@[simp] theorem Chip.setPorts_was (x : Vector Port 2) : (c.setPorts x).was = c.was := (rfl)
@[simp] theorem Chip.setPorts_feeds (x : Vector Port 2) : (c.setPorts x).feeds = c.feeds := (rfl)
@[simp] theorem Chip.setPorts_sramOps (x : Vector Port 2) : (c.setPorts x).sramOps = c.sramOps := (rfl)
@[simp] theorem Chip.setPorts_layout (x : Vector Port 2) : (c.setPorts x).layout = c.layout := (rfl)
@[simp] theorem Chip.setPorts_layoutOld (x : Vector Port 2) : (c.setPorts x).layoutOld = c.layoutOld := (rfl)
@[simp] theorem Chip.setPorts_sched (x : Vector Port 2) : (c.setPorts x).sched = c.sched := (rfl)
@[simp] theorem Chip.setPorts_colour (x : Vector Port 2) : (c.setPorts x).colour = c.colour := (rfl)
@[simp] theorem Chip.setPorts_scan (x : Vector Port 2) : (c.setPorts x).scan = c.scan := (rfl)
@[simp] theorem Chip.setPorts_chains (x : Vector Port 2) : (c.setPorts x).chains = c.chains := (rfl)
@[simp] theorem Chip.setPorts_dmx (x : Vector Port 2) : (c.setPorts x).dmx = c.dmx := (rfl)
@[simp] theorem Chip.setPorts_resend (x : Vector Port 2) : (c.setPorts x).resend = c.resend := (rfl)
@[simp] theorem Chip.setPorts_resendMs (x : Vector Port 2) : (c.setPorts x).resendMs = c.resendMs := (rfl)
@[simp] theorem Chip.setPorts_gang (x : Vector Port 2) : (c.setPorts x).gang = c.gang := (rfl)
@[simp] theorem Chip.setPorts_emul (x : Vector Port 2) : (c.setPorts x).emul = c.emul := (rfl)
@[simp] theorem Chip.setPorts_pair (x : Vector Port 2) : (c.setPorts x).pair = c.pair := (rfl)
@[simp] theorem Chip.setPorts_loading (x : Vector Port 2) : (c.setPorts x).loading = c.loading := (rfl)
@[simp] theorem Chip.setPorts_nvOps (x : Vector Port 2) : (c.setPorts x).nvOps = c.nvOps := (rfl)
@[simp] theorem Chip.setPorts_calib (x : Vector Port 2) : (c.setPorts x).calib = c.calib := (rfl)

/-! `setEvq`. -/

@[simp] theorem Chip.setEvq_st (x : List EventRec) : (c.setEvq x).st = c.st := (rfl)
@[simp] theorem Chip.setEvq_fromRunning (x : List EventRec) : (c.setEvq x).fromRunning = c.fromRunning := (rfl)
@[simp] theorem Chip.setEvq_regs (x : List EventRec) : (c.setEvq x).regs = c.regs := (rfl)
@[simp] theorem Chip.setEvq_pend (x : List EventRec) : (c.setEvq x).pend = c.pend := (rfl)
@[simp] theorem Chip.setEvq_counters (x : List EventRec) : (c.setEvq x).counters = c.counters := (rfl)
@[simp] theorem Chip.setEvq_snaps (x : List EventRec) : (c.setEvq x).snaps = c.snaps := (rfl)
@[simp] theorem Chip.setEvq_answer (x : List EventRec) : (c.setEvq x).answer = c.answer := (rfl)
@[simp] theorem Chip.setEvq_freeCtr (x : List EventRec) : (c.setEvq x).freeCtr = c.freeCtr := (rfl)
@[simp] theorem Chip.setEvq_aon (x : List EventRec) : (c.setEvq x).aon = c.aon := (rfl)
@[simp] theorem Chip.setEvq_power (x : List EventRec) : (c.setEvq x).power = c.power := (rfl)
@[simp] theorem Chip.setEvq_clk (x : List EventRec) : (c.setEvq x).clk = c.clk := (rfl)
@[simp] theorem Chip.setEvq_time (x : List EventRec) : (c.setEvq x).time = c.time := (rfl)
@[simp] theorem Chip.setEvq_ports (x : List EventRec) : (c.setEvq x).ports = c.ports := (rfl)
@[simp] theorem Chip.setEvq_evq (x : List EventRec) : (c.setEvq x).evq = x := (rfl)
@[simp] theorem Chip.setEvq_nextEvent (x : List EventRec) : (c.setEvq x).nextEvent = c.nextEvent := (rfl)
@[simp] theorem Chip.setEvq_noticeSeq (x : List EventRec) : (c.setEvq x).noticeSeq = c.noticeSeq := (rfl)
@[simp] theorem Chip.setEvq_errs (x : List EventRec) : (c.setEvq x).errs = c.errs := (rfl)
@[simp] theorem Chip.setEvq_sel (x : List EventRec) : (c.setEvq x).sel = c.sel := (rfl)
@[simp] theorem Chip.setEvq_ctxs (x : List EventRec) : (c.setEvq x).ctxs = c.ctxs := (rfl)
@[simp] theorem Chip.setEvq_was (x : List EventRec) : (c.setEvq x).was = c.was := (rfl)
@[simp] theorem Chip.setEvq_feeds (x : List EventRec) : (c.setEvq x).feeds = c.feeds := (rfl)
@[simp] theorem Chip.setEvq_sramOps (x : List EventRec) : (c.setEvq x).sramOps = c.sramOps := (rfl)
@[simp] theorem Chip.setEvq_layout (x : List EventRec) : (c.setEvq x).layout = c.layout := (rfl)
@[simp] theorem Chip.setEvq_layoutOld (x : List EventRec) : (c.setEvq x).layoutOld = c.layoutOld := (rfl)
@[simp] theorem Chip.setEvq_sched (x : List EventRec) : (c.setEvq x).sched = c.sched := (rfl)
@[simp] theorem Chip.setEvq_colour (x : List EventRec) : (c.setEvq x).colour = c.colour := (rfl)
@[simp] theorem Chip.setEvq_scan (x : List EventRec) : (c.setEvq x).scan = c.scan := (rfl)
@[simp] theorem Chip.setEvq_chains (x : List EventRec) : (c.setEvq x).chains = c.chains := (rfl)
@[simp] theorem Chip.setEvq_dmx (x : List EventRec) : (c.setEvq x).dmx = c.dmx := (rfl)
@[simp] theorem Chip.setEvq_resend (x : List EventRec) : (c.setEvq x).resend = c.resend := (rfl)
@[simp] theorem Chip.setEvq_resendMs (x : List EventRec) : (c.setEvq x).resendMs = c.resendMs := (rfl)
@[simp] theorem Chip.setEvq_gang (x : List EventRec) : (c.setEvq x).gang = c.gang := (rfl)
@[simp] theorem Chip.setEvq_emul (x : List EventRec) : (c.setEvq x).emul = c.emul := (rfl)
@[simp] theorem Chip.setEvq_pair (x : List EventRec) : (c.setEvq x).pair = c.pair := (rfl)
@[simp] theorem Chip.setEvq_loading (x : List EventRec) : (c.setEvq x).loading = c.loading := (rfl)
@[simp] theorem Chip.setEvq_nvOps (x : List EventRec) : (c.setEvq x).nvOps = c.nvOps := (rfl)
@[simp] theorem Chip.setEvq_calib (x : List EventRec) : (c.setEvq x).calib = c.calib := (rfl)

/-! `setNextEvent`. -/

@[simp] theorem Chip.setNextEvent_st (x : Nat) : (c.setNextEvent x).st = c.st := (rfl)
@[simp] theorem Chip.setNextEvent_fromRunning (x : Nat) : (c.setNextEvent x).fromRunning = c.fromRunning := (rfl)
@[simp] theorem Chip.setNextEvent_regs (x : Nat) : (c.setNextEvent x).regs = c.regs := (rfl)
@[simp] theorem Chip.setNextEvent_pend (x : Nat) : (c.setNextEvent x).pend = c.pend := (rfl)
@[simp] theorem Chip.setNextEvent_counters (x : Nat) : (c.setNextEvent x).counters = c.counters := (rfl)
@[simp] theorem Chip.setNextEvent_snaps (x : Nat) : (c.setNextEvent x).snaps = c.snaps := (rfl)
@[simp] theorem Chip.setNextEvent_answer (x : Nat) : (c.setNextEvent x).answer = c.answer := (rfl)
@[simp] theorem Chip.setNextEvent_freeCtr (x : Nat) : (c.setNextEvent x).freeCtr = c.freeCtr := (rfl)
@[simp] theorem Chip.setNextEvent_aon (x : Nat) : (c.setNextEvent x).aon = c.aon := (rfl)
@[simp] theorem Chip.setNextEvent_power (x : Nat) : (c.setNextEvent x).power = c.power := (rfl)
@[simp] theorem Chip.setNextEvent_clk (x : Nat) : (c.setNextEvent x).clk = c.clk := (rfl)
@[simp] theorem Chip.setNextEvent_time (x : Nat) : (c.setNextEvent x).time = c.time := (rfl)
@[simp] theorem Chip.setNextEvent_ports (x : Nat) : (c.setNextEvent x).ports = c.ports := (rfl)
@[simp] theorem Chip.setNextEvent_evq (x : Nat) : (c.setNextEvent x).evq = c.evq := (rfl)
@[simp] theorem Chip.setNextEvent_nextEvent (x : Nat) : (c.setNextEvent x).nextEvent = x := (rfl)
@[simp] theorem Chip.setNextEvent_noticeSeq (x : Nat) : (c.setNextEvent x).noticeSeq = c.noticeSeq := (rfl)
@[simp] theorem Chip.setNextEvent_errs (x : Nat) : (c.setNextEvent x).errs = c.errs := (rfl)
@[simp] theorem Chip.setNextEvent_sel (x : Nat) : (c.setNextEvent x).sel = c.sel := (rfl)
@[simp] theorem Chip.setNextEvent_ctxs (x : Nat) : (c.setNextEvent x).ctxs = c.ctxs := (rfl)
@[simp] theorem Chip.setNextEvent_was (x : Nat) : (c.setNextEvent x).was = c.was := (rfl)
@[simp] theorem Chip.setNextEvent_feeds (x : Nat) : (c.setNextEvent x).feeds = c.feeds := (rfl)
@[simp] theorem Chip.setNextEvent_sramOps (x : Nat) : (c.setNextEvent x).sramOps = c.sramOps := (rfl)
@[simp] theorem Chip.setNextEvent_layout (x : Nat) : (c.setNextEvent x).layout = c.layout := (rfl)
@[simp] theorem Chip.setNextEvent_layoutOld (x : Nat) : (c.setNextEvent x).layoutOld = c.layoutOld := (rfl)
@[simp] theorem Chip.setNextEvent_sched (x : Nat) : (c.setNextEvent x).sched = c.sched := (rfl)
@[simp] theorem Chip.setNextEvent_colour (x : Nat) : (c.setNextEvent x).colour = c.colour := (rfl)
@[simp] theorem Chip.setNextEvent_scan (x : Nat) : (c.setNextEvent x).scan = c.scan := (rfl)
@[simp] theorem Chip.setNextEvent_chains (x : Nat) : (c.setNextEvent x).chains = c.chains := (rfl)
@[simp] theorem Chip.setNextEvent_dmx (x : Nat) : (c.setNextEvent x).dmx = c.dmx := (rfl)
@[simp] theorem Chip.setNextEvent_resend (x : Nat) : (c.setNextEvent x).resend = c.resend := (rfl)
@[simp] theorem Chip.setNextEvent_resendMs (x : Nat) : (c.setNextEvent x).resendMs = c.resendMs := (rfl)
@[simp] theorem Chip.setNextEvent_gang (x : Nat) : (c.setNextEvent x).gang = c.gang := (rfl)
@[simp] theorem Chip.setNextEvent_emul (x : Nat) : (c.setNextEvent x).emul = c.emul := (rfl)
@[simp] theorem Chip.setNextEvent_pair (x : Nat) : (c.setNextEvent x).pair = c.pair := (rfl)
@[simp] theorem Chip.setNextEvent_loading (x : Nat) : (c.setNextEvent x).loading = c.loading := (rfl)
@[simp] theorem Chip.setNextEvent_nvOps (x : Nat) : (c.setNextEvent x).nvOps = c.nvOps := (rfl)
@[simp] theorem Chip.setNextEvent_calib (x : Nat) : (c.setNextEvent x).calib = c.calib := (rfl)

/-! `setNoticeSeq`. -/

@[simp] theorem Chip.setNoticeSeq_st (x : Nat) : (c.setNoticeSeq x).st = c.st := (rfl)
@[simp] theorem Chip.setNoticeSeq_fromRunning (x : Nat) : (c.setNoticeSeq x).fromRunning = c.fromRunning := (rfl)
@[simp] theorem Chip.setNoticeSeq_regs (x : Nat) : (c.setNoticeSeq x).regs = c.regs := (rfl)
@[simp] theorem Chip.setNoticeSeq_pend (x : Nat) : (c.setNoticeSeq x).pend = c.pend := (rfl)
@[simp] theorem Chip.setNoticeSeq_counters (x : Nat) : (c.setNoticeSeq x).counters = c.counters := (rfl)
@[simp] theorem Chip.setNoticeSeq_snaps (x : Nat) : (c.setNoticeSeq x).snaps = c.snaps := (rfl)
@[simp] theorem Chip.setNoticeSeq_answer (x : Nat) : (c.setNoticeSeq x).answer = c.answer := (rfl)
@[simp] theorem Chip.setNoticeSeq_freeCtr (x : Nat) : (c.setNoticeSeq x).freeCtr = c.freeCtr := (rfl)
@[simp] theorem Chip.setNoticeSeq_aon (x : Nat) : (c.setNoticeSeq x).aon = c.aon := (rfl)
@[simp] theorem Chip.setNoticeSeq_power (x : Nat) : (c.setNoticeSeq x).power = c.power := (rfl)
@[simp] theorem Chip.setNoticeSeq_clk (x : Nat) : (c.setNoticeSeq x).clk = c.clk := (rfl)
@[simp] theorem Chip.setNoticeSeq_time (x : Nat) : (c.setNoticeSeq x).time = c.time := (rfl)
@[simp] theorem Chip.setNoticeSeq_ports (x : Nat) : (c.setNoticeSeq x).ports = c.ports := (rfl)
@[simp] theorem Chip.setNoticeSeq_evq (x : Nat) : (c.setNoticeSeq x).evq = c.evq := (rfl)
@[simp] theorem Chip.setNoticeSeq_nextEvent (x : Nat) : (c.setNoticeSeq x).nextEvent = c.nextEvent := (rfl)
@[simp] theorem Chip.setNoticeSeq_noticeSeq (x : Nat) : (c.setNoticeSeq x).noticeSeq = x := (rfl)
@[simp] theorem Chip.setNoticeSeq_errs (x : Nat) : (c.setNoticeSeq x).errs = c.errs := (rfl)
@[simp] theorem Chip.setNoticeSeq_sel (x : Nat) : (c.setNoticeSeq x).sel = c.sel := (rfl)
@[simp] theorem Chip.setNoticeSeq_ctxs (x : Nat) : (c.setNoticeSeq x).ctxs = c.ctxs := (rfl)
@[simp] theorem Chip.setNoticeSeq_was (x : Nat) : (c.setNoticeSeq x).was = c.was := (rfl)
@[simp] theorem Chip.setNoticeSeq_feeds (x : Nat) : (c.setNoticeSeq x).feeds = c.feeds := (rfl)
@[simp] theorem Chip.setNoticeSeq_sramOps (x : Nat) : (c.setNoticeSeq x).sramOps = c.sramOps := (rfl)
@[simp] theorem Chip.setNoticeSeq_layout (x : Nat) : (c.setNoticeSeq x).layout = c.layout := (rfl)
@[simp] theorem Chip.setNoticeSeq_layoutOld (x : Nat) : (c.setNoticeSeq x).layoutOld = c.layoutOld := (rfl)
@[simp] theorem Chip.setNoticeSeq_sched (x : Nat) : (c.setNoticeSeq x).sched = c.sched := (rfl)
@[simp] theorem Chip.setNoticeSeq_colour (x : Nat) : (c.setNoticeSeq x).colour = c.colour := (rfl)
@[simp] theorem Chip.setNoticeSeq_scan (x : Nat) : (c.setNoticeSeq x).scan = c.scan := (rfl)
@[simp] theorem Chip.setNoticeSeq_chains (x : Nat) : (c.setNoticeSeq x).chains = c.chains := (rfl)
@[simp] theorem Chip.setNoticeSeq_dmx (x : Nat) : (c.setNoticeSeq x).dmx = c.dmx := (rfl)
@[simp] theorem Chip.setNoticeSeq_resend (x : Nat) : (c.setNoticeSeq x).resend = c.resend := (rfl)
@[simp] theorem Chip.setNoticeSeq_resendMs (x : Nat) : (c.setNoticeSeq x).resendMs = c.resendMs := (rfl)
@[simp] theorem Chip.setNoticeSeq_gang (x : Nat) : (c.setNoticeSeq x).gang = c.gang := (rfl)
@[simp] theorem Chip.setNoticeSeq_emul (x : Nat) : (c.setNoticeSeq x).emul = c.emul := (rfl)
@[simp] theorem Chip.setNoticeSeq_pair (x : Nat) : (c.setNoticeSeq x).pair = c.pair := (rfl)
@[simp] theorem Chip.setNoticeSeq_loading (x : Nat) : (c.setNoticeSeq x).loading = c.loading := (rfl)
@[simp] theorem Chip.setNoticeSeq_nvOps (x : Nat) : (c.setNoticeSeq x).nvOps = c.nvOps := (rfl)
@[simp] theorem Chip.setNoticeSeq_calib (x : Nat) : (c.setNoticeSeq x).calib = c.calib := (rfl)

/-! `setErrs`. -/

@[simp] theorem Chip.setErrs_st (x : Errs) : (c.setErrs x).st = c.st := (rfl)
@[simp] theorem Chip.setErrs_fromRunning (x : Errs) : (c.setErrs x).fromRunning = c.fromRunning := (rfl)
@[simp] theorem Chip.setErrs_regs (x : Errs) : (c.setErrs x).regs = c.regs := (rfl)
@[simp] theorem Chip.setErrs_pend (x : Errs) : (c.setErrs x).pend = c.pend := (rfl)
@[simp] theorem Chip.setErrs_counters (x : Errs) : (c.setErrs x).counters = c.counters := (rfl)
@[simp] theorem Chip.setErrs_snaps (x : Errs) : (c.setErrs x).snaps = c.snaps := (rfl)
@[simp] theorem Chip.setErrs_answer (x : Errs) : (c.setErrs x).answer = c.answer := (rfl)
@[simp] theorem Chip.setErrs_freeCtr (x : Errs) : (c.setErrs x).freeCtr = c.freeCtr := (rfl)
@[simp] theorem Chip.setErrs_aon (x : Errs) : (c.setErrs x).aon = c.aon := (rfl)
@[simp] theorem Chip.setErrs_power (x : Errs) : (c.setErrs x).power = c.power := (rfl)
@[simp] theorem Chip.setErrs_clk (x : Errs) : (c.setErrs x).clk = c.clk := (rfl)
@[simp] theorem Chip.setErrs_time (x : Errs) : (c.setErrs x).time = c.time := (rfl)
@[simp] theorem Chip.setErrs_ports (x : Errs) : (c.setErrs x).ports = c.ports := (rfl)
@[simp] theorem Chip.setErrs_evq (x : Errs) : (c.setErrs x).evq = c.evq := (rfl)
@[simp] theorem Chip.setErrs_nextEvent (x : Errs) : (c.setErrs x).nextEvent = c.nextEvent := (rfl)
@[simp] theorem Chip.setErrs_noticeSeq (x : Errs) : (c.setErrs x).noticeSeq = c.noticeSeq := (rfl)
@[simp] theorem Chip.setErrs_errs (x : Errs) : (c.setErrs x).errs = x := (rfl)
@[simp] theorem Chip.setErrs_sel (x : Errs) : (c.setErrs x).sel = c.sel := (rfl)
@[simp] theorem Chip.setErrs_ctxs (x : Errs) : (c.setErrs x).ctxs = c.ctxs := (rfl)
@[simp] theorem Chip.setErrs_was (x : Errs) : (c.setErrs x).was = c.was := (rfl)
@[simp] theorem Chip.setErrs_feeds (x : Errs) : (c.setErrs x).feeds = c.feeds := (rfl)
@[simp] theorem Chip.setErrs_sramOps (x : Errs) : (c.setErrs x).sramOps = c.sramOps := (rfl)
@[simp] theorem Chip.setErrs_layout (x : Errs) : (c.setErrs x).layout = c.layout := (rfl)
@[simp] theorem Chip.setErrs_layoutOld (x : Errs) : (c.setErrs x).layoutOld = c.layoutOld := (rfl)
@[simp] theorem Chip.setErrs_sched (x : Errs) : (c.setErrs x).sched = c.sched := (rfl)
@[simp] theorem Chip.setErrs_colour (x : Errs) : (c.setErrs x).colour = c.colour := (rfl)
@[simp] theorem Chip.setErrs_scan (x : Errs) : (c.setErrs x).scan = c.scan := (rfl)
@[simp] theorem Chip.setErrs_chains (x : Errs) : (c.setErrs x).chains = c.chains := (rfl)
@[simp] theorem Chip.setErrs_dmx (x : Errs) : (c.setErrs x).dmx = c.dmx := (rfl)
@[simp] theorem Chip.setErrs_resend (x : Errs) : (c.setErrs x).resend = c.resend := (rfl)
@[simp] theorem Chip.setErrs_resendMs (x : Errs) : (c.setErrs x).resendMs = c.resendMs := (rfl)
@[simp] theorem Chip.setErrs_gang (x : Errs) : (c.setErrs x).gang = c.gang := (rfl)
@[simp] theorem Chip.setErrs_emul (x : Errs) : (c.setErrs x).emul = c.emul := (rfl)
@[simp] theorem Chip.setErrs_pair (x : Errs) : (c.setErrs x).pair = c.pair := (rfl)
@[simp] theorem Chip.setErrs_loading (x : Errs) : (c.setErrs x).loading = c.loading := (rfl)
@[simp] theorem Chip.setErrs_nvOps (x : Errs) : (c.setErrs x).nvOps = c.nvOps := (rfl)
@[simp] theorem Chip.setErrs_calib (x : Errs) : (c.setErrs x).calib = c.calib := (rfl)

/-! `setSel`. -/

@[simp] theorem Chip.setSel_st (x : Selul) : (c.setSel x).st = c.st := (rfl)
@[simp] theorem Chip.setSel_fromRunning (x : Selul) : (c.setSel x).fromRunning = c.fromRunning := (rfl)
@[simp] theorem Chip.setSel_regs (x : Selul) : (c.setSel x).regs = c.regs := (rfl)
@[simp] theorem Chip.setSel_pend (x : Selul) : (c.setSel x).pend = c.pend := (rfl)
@[simp] theorem Chip.setSel_counters (x : Selul) : (c.setSel x).counters = c.counters := (rfl)
@[simp] theorem Chip.setSel_snaps (x : Selul) : (c.setSel x).snaps = c.snaps := (rfl)
@[simp] theorem Chip.setSel_answer (x : Selul) : (c.setSel x).answer = c.answer := (rfl)
@[simp] theorem Chip.setSel_freeCtr (x : Selul) : (c.setSel x).freeCtr = c.freeCtr := (rfl)
@[simp] theorem Chip.setSel_aon (x : Selul) : (c.setSel x).aon = c.aon := (rfl)
@[simp] theorem Chip.setSel_power (x : Selul) : (c.setSel x).power = c.power := (rfl)
@[simp] theorem Chip.setSel_clk (x : Selul) : (c.setSel x).clk = c.clk := (rfl)
@[simp] theorem Chip.setSel_time (x : Selul) : (c.setSel x).time = c.time := (rfl)
@[simp] theorem Chip.setSel_ports (x : Selul) : (c.setSel x).ports = c.ports := (rfl)
@[simp] theorem Chip.setSel_evq (x : Selul) : (c.setSel x).evq = c.evq := (rfl)
@[simp] theorem Chip.setSel_nextEvent (x : Selul) : (c.setSel x).nextEvent = c.nextEvent := (rfl)
@[simp] theorem Chip.setSel_noticeSeq (x : Selul) : (c.setSel x).noticeSeq = c.noticeSeq := (rfl)
@[simp] theorem Chip.setSel_errs (x : Selul) : (c.setSel x).errs = c.errs := (rfl)
@[simp] theorem Chip.setSel_sel (x : Selul) : (c.setSel x).sel = x := (rfl)
@[simp] theorem Chip.setSel_ctxs (x : Selul) : (c.setSel x).ctxs = c.ctxs := (rfl)
@[simp] theorem Chip.setSel_was (x : Selul) : (c.setSel x).was = c.was := (rfl)
@[simp] theorem Chip.setSel_feeds (x : Selul) : (c.setSel x).feeds = c.feeds := (rfl)
@[simp] theorem Chip.setSel_sramOps (x : Selul) : (c.setSel x).sramOps = c.sramOps := (rfl)
@[simp] theorem Chip.setSel_layout (x : Selul) : (c.setSel x).layout = c.layout := (rfl)
@[simp] theorem Chip.setSel_layoutOld (x : Selul) : (c.setSel x).layoutOld = c.layoutOld := (rfl)
@[simp] theorem Chip.setSel_sched (x : Selul) : (c.setSel x).sched = c.sched := (rfl)
@[simp] theorem Chip.setSel_colour (x : Selul) : (c.setSel x).colour = c.colour := (rfl)
@[simp] theorem Chip.setSel_scan (x : Selul) : (c.setSel x).scan = c.scan := (rfl)
@[simp] theorem Chip.setSel_chains (x : Selul) : (c.setSel x).chains = c.chains := (rfl)
@[simp] theorem Chip.setSel_dmx (x : Selul) : (c.setSel x).dmx = c.dmx := (rfl)
@[simp] theorem Chip.setSel_resend (x : Selul) : (c.setSel x).resend = c.resend := (rfl)
@[simp] theorem Chip.setSel_resendMs (x : Selul) : (c.setSel x).resendMs = c.resendMs := (rfl)
@[simp] theorem Chip.setSel_gang (x : Selul) : (c.setSel x).gang = c.gang := (rfl)
@[simp] theorem Chip.setSel_emul (x : Selul) : (c.setSel x).emul = c.emul := (rfl)
@[simp] theorem Chip.setSel_pair (x : Selul) : (c.setSel x).pair = c.pair := (rfl)
@[simp] theorem Chip.setSel_loading (x : Selul) : (c.setSel x).loading = c.loading := (rfl)
@[simp] theorem Chip.setSel_nvOps (x : Selul) : (c.setSel x).nvOps = c.nvOps := (rfl)
@[simp] theorem Chip.setSel_calib (x : Selul) : (c.setSel x).calib = c.calib := (rfl)

/-! `setCtxs`. -/

@[simp] theorem Chip.setCtxs_st (x : SMap Ctx) : (c.setCtxs x).st = c.st := (rfl)
@[simp] theorem Chip.setCtxs_fromRunning (x : SMap Ctx) : (c.setCtxs x).fromRunning = c.fromRunning := (rfl)
@[simp] theorem Chip.setCtxs_regs (x : SMap Ctx) : (c.setCtxs x).regs = c.regs := (rfl)
@[simp] theorem Chip.setCtxs_pend (x : SMap Ctx) : (c.setCtxs x).pend = c.pend := (rfl)
@[simp] theorem Chip.setCtxs_counters (x : SMap Ctx) : (c.setCtxs x).counters = c.counters := (rfl)
@[simp] theorem Chip.setCtxs_snaps (x : SMap Ctx) : (c.setCtxs x).snaps = c.snaps := (rfl)
@[simp] theorem Chip.setCtxs_answer (x : SMap Ctx) : (c.setCtxs x).answer = c.answer := (rfl)
@[simp] theorem Chip.setCtxs_freeCtr (x : SMap Ctx) : (c.setCtxs x).freeCtr = c.freeCtr := (rfl)
@[simp] theorem Chip.setCtxs_aon (x : SMap Ctx) : (c.setCtxs x).aon = c.aon := (rfl)
@[simp] theorem Chip.setCtxs_power (x : SMap Ctx) : (c.setCtxs x).power = c.power := (rfl)
@[simp] theorem Chip.setCtxs_clk (x : SMap Ctx) : (c.setCtxs x).clk = c.clk := (rfl)
@[simp] theorem Chip.setCtxs_time (x : SMap Ctx) : (c.setCtxs x).time = c.time := (rfl)
@[simp] theorem Chip.setCtxs_ports (x : SMap Ctx) : (c.setCtxs x).ports = c.ports := (rfl)
@[simp] theorem Chip.setCtxs_evq (x : SMap Ctx) : (c.setCtxs x).evq = c.evq := (rfl)
@[simp] theorem Chip.setCtxs_nextEvent (x : SMap Ctx) : (c.setCtxs x).nextEvent = c.nextEvent := (rfl)
@[simp] theorem Chip.setCtxs_noticeSeq (x : SMap Ctx) : (c.setCtxs x).noticeSeq = c.noticeSeq := (rfl)
@[simp] theorem Chip.setCtxs_errs (x : SMap Ctx) : (c.setCtxs x).errs = c.errs := (rfl)
@[simp] theorem Chip.setCtxs_sel (x : SMap Ctx) : (c.setCtxs x).sel = c.sel := (rfl)
@[simp] theorem Chip.setCtxs_ctxs (x : SMap Ctx) : (c.setCtxs x).ctxs = x := (rfl)
@[simp] theorem Chip.setCtxs_was (x : SMap Ctx) : (c.setCtxs x).was = c.was := (rfl)
@[simp] theorem Chip.setCtxs_feeds (x : SMap Ctx) : (c.setCtxs x).feeds = c.feeds := (rfl)
@[simp] theorem Chip.setCtxs_sramOps (x : SMap Ctx) : (c.setCtxs x).sramOps = c.sramOps := (rfl)
@[simp] theorem Chip.setCtxs_layout (x : SMap Ctx) : (c.setCtxs x).layout = c.layout := (rfl)
@[simp] theorem Chip.setCtxs_layoutOld (x : SMap Ctx) : (c.setCtxs x).layoutOld = c.layoutOld := (rfl)
@[simp] theorem Chip.setCtxs_sched (x : SMap Ctx) : (c.setCtxs x).sched = c.sched := (rfl)
@[simp] theorem Chip.setCtxs_colour (x : SMap Ctx) : (c.setCtxs x).colour = c.colour := (rfl)
@[simp] theorem Chip.setCtxs_scan (x : SMap Ctx) : (c.setCtxs x).scan = c.scan := (rfl)
@[simp] theorem Chip.setCtxs_chains (x : SMap Ctx) : (c.setCtxs x).chains = c.chains := (rfl)
@[simp] theorem Chip.setCtxs_dmx (x : SMap Ctx) : (c.setCtxs x).dmx = c.dmx := (rfl)
@[simp] theorem Chip.setCtxs_resend (x : SMap Ctx) : (c.setCtxs x).resend = c.resend := (rfl)
@[simp] theorem Chip.setCtxs_resendMs (x : SMap Ctx) : (c.setCtxs x).resendMs = c.resendMs := (rfl)
@[simp] theorem Chip.setCtxs_gang (x : SMap Ctx) : (c.setCtxs x).gang = c.gang := (rfl)
@[simp] theorem Chip.setCtxs_emul (x : SMap Ctx) : (c.setCtxs x).emul = c.emul := (rfl)
@[simp] theorem Chip.setCtxs_pair (x : SMap Ctx) : (c.setCtxs x).pair = c.pair := (rfl)
@[simp] theorem Chip.setCtxs_loading (x : SMap Ctx) : (c.setCtxs x).loading = c.loading := (rfl)
@[simp] theorem Chip.setCtxs_nvOps (x : SMap Ctx) : (c.setCtxs x).nvOps = c.nvOps := (rfl)
@[simp] theorem Chip.setCtxs_calib (x : SMap Ctx) : (c.setCtxs x).calib = c.calib := (rfl)

/-! `setWas`. -/

@[simp] theorem Chip.setWas_st (x : List (Int × List StagedWord)) : (c.setWas x).st = c.st := (rfl)
@[simp] theorem Chip.setWas_fromRunning (x : List (Int × List StagedWord)) : (c.setWas x).fromRunning = c.fromRunning := (rfl)
@[simp] theorem Chip.setWas_regs (x : List (Int × List StagedWord)) : (c.setWas x).regs = c.regs := (rfl)
@[simp] theorem Chip.setWas_pend (x : List (Int × List StagedWord)) : (c.setWas x).pend = c.pend := (rfl)
@[simp] theorem Chip.setWas_counters (x : List (Int × List StagedWord)) : (c.setWas x).counters = c.counters := (rfl)
@[simp] theorem Chip.setWas_snaps (x : List (Int × List StagedWord)) : (c.setWas x).snaps = c.snaps := (rfl)
@[simp] theorem Chip.setWas_answer (x : List (Int × List StagedWord)) : (c.setWas x).answer = c.answer := (rfl)
@[simp] theorem Chip.setWas_freeCtr (x : List (Int × List StagedWord)) : (c.setWas x).freeCtr = c.freeCtr := (rfl)
@[simp] theorem Chip.setWas_aon (x : List (Int × List StagedWord)) : (c.setWas x).aon = c.aon := (rfl)
@[simp] theorem Chip.setWas_power (x : List (Int × List StagedWord)) : (c.setWas x).power = c.power := (rfl)
@[simp] theorem Chip.setWas_clk (x : List (Int × List StagedWord)) : (c.setWas x).clk = c.clk := (rfl)
@[simp] theorem Chip.setWas_time (x : List (Int × List StagedWord)) : (c.setWas x).time = c.time := (rfl)
@[simp] theorem Chip.setWas_ports (x : List (Int × List StagedWord)) : (c.setWas x).ports = c.ports := (rfl)
@[simp] theorem Chip.setWas_evq (x : List (Int × List StagedWord)) : (c.setWas x).evq = c.evq := (rfl)
@[simp] theorem Chip.setWas_nextEvent (x : List (Int × List StagedWord)) : (c.setWas x).nextEvent = c.nextEvent := (rfl)
@[simp] theorem Chip.setWas_noticeSeq (x : List (Int × List StagedWord)) : (c.setWas x).noticeSeq = c.noticeSeq := (rfl)
@[simp] theorem Chip.setWas_errs (x : List (Int × List StagedWord)) : (c.setWas x).errs = c.errs := (rfl)
@[simp] theorem Chip.setWas_sel (x : List (Int × List StagedWord)) : (c.setWas x).sel = c.sel := (rfl)
@[simp] theorem Chip.setWas_ctxs (x : List (Int × List StagedWord)) : (c.setWas x).ctxs = c.ctxs := (rfl)
@[simp] theorem Chip.setWas_was (x : List (Int × List StagedWord)) : (c.setWas x).was = x := (rfl)
@[simp] theorem Chip.setWas_feeds (x : List (Int × List StagedWord)) : (c.setWas x).feeds = c.feeds := (rfl)
@[simp] theorem Chip.setWas_sramOps (x : List (Int × List StagedWord)) : (c.setWas x).sramOps = c.sramOps := (rfl)
@[simp] theorem Chip.setWas_layout (x : List (Int × List StagedWord)) : (c.setWas x).layout = c.layout := (rfl)
@[simp] theorem Chip.setWas_layoutOld (x : List (Int × List StagedWord)) : (c.setWas x).layoutOld = c.layoutOld := (rfl)
@[simp] theorem Chip.setWas_sched (x : List (Int × List StagedWord)) : (c.setWas x).sched = c.sched := (rfl)
@[simp] theorem Chip.setWas_colour (x : List (Int × List StagedWord)) : (c.setWas x).colour = c.colour := (rfl)
@[simp] theorem Chip.setWas_scan (x : List (Int × List StagedWord)) : (c.setWas x).scan = c.scan := (rfl)
@[simp] theorem Chip.setWas_chains (x : List (Int × List StagedWord)) : (c.setWas x).chains = c.chains := (rfl)
@[simp] theorem Chip.setWas_dmx (x : List (Int × List StagedWord)) : (c.setWas x).dmx = c.dmx := (rfl)
@[simp] theorem Chip.setWas_resend (x : List (Int × List StagedWord)) : (c.setWas x).resend = c.resend := (rfl)
@[simp] theorem Chip.setWas_resendMs (x : List (Int × List StagedWord)) : (c.setWas x).resendMs = c.resendMs := (rfl)
@[simp] theorem Chip.setWas_gang (x : List (Int × List StagedWord)) : (c.setWas x).gang = c.gang := (rfl)
@[simp] theorem Chip.setWas_emul (x : List (Int × List StagedWord)) : (c.setWas x).emul = c.emul := (rfl)
@[simp] theorem Chip.setWas_pair (x : List (Int × List StagedWord)) : (c.setWas x).pair = c.pair := (rfl)
@[simp] theorem Chip.setWas_loading (x : List (Int × List StagedWord)) : (c.setWas x).loading = c.loading := (rfl)
@[simp] theorem Chip.setWas_nvOps (x : List (Int × List StagedWord)) : (c.setWas x).nvOps = c.nvOps := (rfl)
@[simp] theorem Chip.setWas_calib (x : List (Int × List StagedWord)) : (c.setWas x).calib = c.calib := (rfl)

/-! `setFeeds`. -/

@[simp] theorem Chip.setFeeds_st (x : Vector Feed 4) : (c.setFeeds x).st = c.st := (rfl)
@[simp] theorem Chip.setFeeds_fromRunning (x : Vector Feed 4) : (c.setFeeds x).fromRunning = c.fromRunning := (rfl)
@[simp] theorem Chip.setFeeds_regs (x : Vector Feed 4) : (c.setFeeds x).regs = c.regs := (rfl)
@[simp] theorem Chip.setFeeds_pend (x : Vector Feed 4) : (c.setFeeds x).pend = c.pend := (rfl)
@[simp] theorem Chip.setFeeds_counters (x : Vector Feed 4) : (c.setFeeds x).counters = c.counters := (rfl)
@[simp] theorem Chip.setFeeds_snaps (x : Vector Feed 4) : (c.setFeeds x).snaps = c.snaps := (rfl)
@[simp] theorem Chip.setFeeds_answer (x : Vector Feed 4) : (c.setFeeds x).answer = c.answer := (rfl)
@[simp] theorem Chip.setFeeds_freeCtr (x : Vector Feed 4) : (c.setFeeds x).freeCtr = c.freeCtr := (rfl)
@[simp] theorem Chip.setFeeds_aon (x : Vector Feed 4) : (c.setFeeds x).aon = c.aon := (rfl)
@[simp] theorem Chip.setFeeds_power (x : Vector Feed 4) : (c.setFeeds x).power = c.power := (rfl)
@[simp] theorem Chip.setFeeds_clk (x : Vector Feed 4) : (c.setFeeds x).clk = c.clk := (rfl)
@[simp] theorem Chip.setFeeds_time (x : Vector Feed 4) : (c.setFeeds x).time = c.time := (rfl)
@[simp] theorem Chip.setFeeds_ports (x : Vector Feed 4) : (c.setFeeds x).ports = c.ports := (rfl)
@[simp] theorem Chip.setFeeds_evq (x : Vector Feed 4) : (c.setFeeds x).evq = c.evq := (rfl)
@[simp] theorem Chip.setFeeds_nextEvent (x : Vector Feed 4) : (c.setFeeds x).nextEvent = c.nextEvent := (rfl)
@[simp] theorem Chip.setFeeds_noticeSeq (x : Vector Feed 4) : (c.setFeeds x).noticeSeq = c.noticeSeq := (rfl)
@[simp] theorem Chip.setFeeds_errs (x : Vector Feed 4) : (c.setFeeds x).errs = c.errs := (rfl)
@[simp] theorem Chip.setFeeds_sel (x : Vector Feed 4) : (c.setFeeds x).sel = c.sel := (rfl)
@[simp] theorem Chip.setFeeds_ctxs (x : Vector Feed 4) : (c.setFeeds x).ctxs = c.ctxs := (rfl)
@[simp] theorem Chip.setFeeds_was (x : Vector Feed 4) : (c.setFeeds x).was = c.was := (rfl)
@[simp] theorem Chip.setFeeds_feeds (x : Vector Feed 4) : (c.setFeeds x).feeds = x := (rfl)
@[simp] theorem Chip.setFeeds_sramOps (x : Vector Feed 4) : (c.setFeeds x).sramOps = c.sramOps := (rfl)
@[simp] theorem Chip.setFeeds_layout (x : Vector Feed 4) : (c.setFeeds x).layout = c.layout := (rfl)
@[simp] theorem Chip.setFeeds_layoutOld (x : Vector Feed 4) : (c.setFeeds x).layoutOld = c.layoutOld := (rfl)
@[simp] theorem Chip.setFeeds_sched (x : Vector Feed 4) : (c.setFeeds x).sched = c.sched := (rfl)
@[simp] theorem Chip.setFeeds_colour (x : Vector Feed 4) : (c.setFeeds x).colour = c.colour := (rfl)
@[simp] theorem Chip.setFeeds_scan (x : Vector Feed 4) : (c.setFeeds x).scan = c.scan := (rfl)
@[simp] theorem Chip.setFeeds_chains (x : Vector Feed 4) : (c.setFeeds x).chains = c.chains := (rfl)
@[simp] theorem Chip.setFeeds_dmx (x : Vector Feed 4) : (c.setFeeds x).dmx = c.dmx := (rfl)
@[simp] theorem Chip.setFeeds_resend (x : Vector Feed 4) : (c.setFeeds x).resend = c.resend := (rfl)
@[simp] theorem Chip.setFeeds_resendMs (x : Vector Feed 4) : (c.setFeeds x).resendMs = c.resendMs := (rfl)
@[simp] theorem Chip.setFeeds_gang (x : Vector Feed 4) : (c.setFeeds x).gang = c.gang := (rfl)
@[simp] theorem Chip.setFeeds_emul (x : Vector Feed 4) : (c.setFeeds x).emul = c.emul := (rfl)
@[simp] theorem Chip.setFeeds_pair (x : Vector Feed 4) : (c.setFeeds x).pair = c.pair := (rfl)
@[simp] theorem Chip.setFeeds_loading (x : Vector Feed 4) : (c.setFeeds x).loading = c.loading := (rfl)
@[simp] theorem Chip.setFeeds_nvOps (x : Vector Feed 4) : (c.setFeeds x).nvOps = c.nvOps := (rfl)
@[simp] theorem Chip.setFeeds_calib (x : Vector Feed 4) : (c.setFeeds x).calib = c.calib := (rfl)

/-! `setSramOps`. -/

@[simp] theorem Chip.setSramOps_st (x : List SramOp) : (c.setSramOps x).st = c.st := (rfl)
@[simp] theorem Chip.setSramOps_fromRunning (x : List SramOp) : (c.setSramOps x).fromRunning = c.fromRunning := (rfl)
@[simp] theorem Chip.setSramOps_regs (x : List SramOp) : (c.setSramOps x).regs = c.regs := (rfl)
@[simp] theorem Chip.setSramOps_pend (x : List SramOp) : (c.setSramOps x).pend = c.pend := (rfl)
@[simp] theorem Chip.setSramOps_counters (x : List SramOp) : (c.setSramOps x).counters = c.counters := (rfl)
@[simp] theorem Chip.setSramOps_snaps (x : List SramOp) : (c.setSramOps x).snaps = c.snaps := (rfl)
@[simp] theorem Chip.setSramOps_answer (x : List SramOp) : (c.setSramOps x).answer = c.answer := (rfl)
@[simp] theorem Chip.setSramOps_freeCtr (x : List SramOp) : (c.setSramOps x).freeCtr = c.freeCtr := (rfl)
@[simp] theorem Chip.setSramOps_aon (x : List SramOp) : (c.setSramOps x).aon = c.aon := (rfl)
@[simp] theorem Chip.setSramOps_power (x : List SramOp) : (c.setSramOps x).power = c.power := (rfl)
@[simp] theorem Chip.setSramOps_clk (x : List SramOp) : (c.setSramOps x).clk = c.clk := (rfl)
@[simp] theorem Chip.setSramOps_time (x : List SramOp) : (c.setSramOps x).time = c.time := (rfl)
@[simp] theorem Chip.setSramOps_ports (x : List SramOp) : (c.setSramOps x).ports = c.ports := (rfl)
@[simp] theorem Chip.setSramOps_evq (x : List SramOp) : (c.setSramOps x).evq = c.evq := (rfl)
@[simp] theorem Chip.setSramOps_nextEvent (x : List SramOp) : (c.setSramOps x).nextEvent = c.nextEvent := (rfl)
@[simp] theorem Chip.setSramOps_noticeSeq (x : List SramOp) : (c.setSramOps x).noticeSeq = c.noticeSeq := (rfl)
@[simp] theorem Chip.setSramOps_errs (x : List SramOp) : (c.setSramOps x).errs = c.errs := (rfl)
@[simp] theorem Chip.setSramOps_sel (x : List SramOp) : (c.setSramOps x).sel = c.sel := (rfl)
@[simp] theorem Chip.setSramOps_ctxs (x : List SramOp) : (c.setSramOps x).ctxs = c.ctxs := (rfl)
@[simp] theorem Chip.setSramOps_was (x : List SramOp) : (c.setSramOps x).was = c.was := (rfl)
@[simp] theorem Chip.setSramOps_feeds (x : List SramOp) : (c.setSramOps x).feeds = c.feeds := (rfl)
@[simp] theorem Chip.setSramOps_sramOps (x : List SramOp) : (c.setSramOps x).sramOps = x := (rfl)
@[simp] theorem Chip.setSramOps_layout (x : List SramOp) : (c.setSramOps x).layout = c.layout := (rfl)
@[simp] theorem Chip.setSramOps_layoutOld (x : List SramOp) : (c.setSramOps x).layoutOld = c.layoutOld := (rfl)
@[simp] theorem Chip.setSramOps_sched (x : List SramOp) : (c.setSramOps x).sched = c.sched := (rfl)
@[simp] theorem Chip.setSramOps_colour (x : List SramOp) : (c.setSramOps x).colour = c.colour := (rfl)
@[simp] theorem Chip.setSramOps_scan (x : List SramOp) : (c.setSramOps x).scan = c.scan := (rfl)
@[simp] theorem Chip.setSramOps_chains (x : List SramOp) : (c.setSramOps x).chains = c.chains := (rfl)
@[simp] theorem Chip.setSramOps_dmx (x : List SramOp) : (c.setSramOps x).dmx = c.dmx := (rfl)
@[simp] theorem Chip.setSramOps_resend (x : List SramOp) : (c.setSramOps x).resend = c.resend := (rfl)
@[simp] theorem Chip.setSramOps_resendMs (x : List SramOp) : (c.setSramOps x).resendMs = c.resendMs := (rfl)
@[simp] theorem Chip.setSramOps_gang (x : List SramOp) : (c.setSramOps x).gang = c.gang := (rfl)
@[simp] theorem Chip.setSramOps_emul (x : List SramOp) : (c.setSramOps x).emul = c.emul := (rfl)
@[simp] theorem Chip.setSramOps_pair (x : List SramOp) : (c.setSramOps x).pair = c.pair := (rfl)
@[simp] theorem Chip.setSramOps_loading (x : List SramOp) : (c.setSramOps x).loading = c.loading := (rfl)
@[simp] theorem Chip.setSramOps_nvOps (x : List SramOp) : (c.setSramOps x).nvOps = c.nvOps := (rfl)
@[simp] theorem Chip.setSramOps_calib (x : List SramOp) : (c.setSramOps x).calib = c.calib := (rfl)

/-! `setLayout`. -/

@[simp] theorem Chip.setLayout_st (x : List Nat) : (c.setLayout x).st = c.st := (rfl)
@[simp] theorem Chip.setLayout_fromRunning (x : List Nat) : (c.setLayout x).fromRunning = c.fromRunning := (rfl)
@[simp] theorem Chip.setLayout_regs (x : List Nat) : (c.setLayout x).regs = c.regs := (rfl)
@[simp] theorem Chip.setLayout_pend (x : List Nat) : (c.setLayout x).pend = c.pend := (rfl)
@[simp] theorem Chip.setLayout_counters (x : List Nat) : (c.setLayout x).counters = c.counters := (rfl)
@[simp] theorem Chip.setLayout_snaps (x : List Nat) : (c.setLayout x).snaps = c.snaps := (rfl)
@[simp] theorem Chip.setLayout_answer (x : List Nat) : (c.setLayout x).answer = c.answer := (rfl)
@[simp] theorem Chip.setLayout_freeCtr (x : List Nat) : (c.setLayout x).freeCtr = c.freeCtr := (rfl)
@[simp] theorem Chip.setLayout_aon (x : List Nat) : (c.setLayout x).aon = c.aon := (rfl)
@[simp] theorem Chip.setLayout_power (x : List Nat) : (c.setLayout x).power = c.power := (rfl)
@[simp] theorem Chip.setLayout_clk (x : List Nat) : (c.setLayout x).clk = c.clk := (rfl)
@[simp] theorem Chip.setLayout_time (x : List Nat) : (c.setLayout x).time = c.time := (rfl)
@[simp] theorem Chip.setLayout_ports (x : List Nat) : (c.setLayout x).ports = c.ports := (rfl)
@[simp] theorem Chip.setLayout_evq (x : List Nat) : (c.setLayout x).evq = c.evq := (rfl)
@[simp] theorem Chip.setLayout_nextEvent (x : List Nat) : (c.setLayout x).nextEvent = c.nextEvent := (rfl)
@[simp] theorem Chip.setLayout_noticeSeq (x : List Nat) : (c.setLayout x).noticeSeq = c.noticeSeq := (rfl)
@[simp] theorem Chip.setLayout_errs (x : List Nat) : (c.setLayout x).errs = c.errs := (rfl)
@[simp] theorem Chip.setLayout_sel (x : List Nat) : (c.setLayout x).sel = c.sel := (rfl)
@[simp] theorem Chip.setLayout_ctxs (x : List Nat) : (c.setLayout x).ctxs = c.ctxs := (rfl)
@[simp] theorem Chip.setLayout_was (x : List Nat) : (c.setLayout x).was = c.was := (rfl)
@[simp] theorem Chip.setLayout_feeds (x : List Nat) : (c.setLayout x).feeds = c.feeds := (rfl)
@[simp] theorem Chip.setLayout_sramOps (x : List Nat) : (c.setLayout x).sramOps = c.sramOps := (rfl)
@[simp] theorem Chip.setLayout_layout (x : List Nat) : (c.setLayout x).layout = x := (rfl)
@[simp] theorem Chip.setLayout_layoutOld (x : List Nat) : (c.setLayout x).layoutOld = c.layoutOld := (rfl)
@[simp] theorem Chip.setLayout_sched (x : List Nat) : (c.setLayout x).sched = c.sched := (rfl)
@[simp] theorem Chip.setLayout_colour (x : List Nat) : (c.setLayout x).colour = c.colour := (rfl)
@[simp] theorem Chip.setLayout_scan (x : List Nat) : (c.setLayout x).scan = c.scan := (rfl)
@[simp] theorem Chip.setLayout_chains (x : List Nat) : (c.setLayout x).chains = c.chains := (rfl)
@[simp] theorem Chip.setLayout_dmx (x : List Nat) : (c.setLayout x).dmx = c.dmx := (rfl)
@[simp] theorem Chip.setLayout_resend (x : List Nat) : (c.setLayout x).resend = c.resend := (rfl)
@[simp] theorem Chip.setLayout_resendMs (x : List Nat) : (c.setLayout x).resendMs = c.resendMs := (rfl)
@[simp] theorem Chip.setLayout_gang (x : List Nat) : (c.setLayout x).gang = c.gang := (rfl)
@[simp] theorem Chip.setLayout_emul (x : List Nat) : (c.setLayout x).emul = c.emul := (rfl)
@[simp] theorem Chip.setLayout_pair (x : List Nat) : (c.setLayout x).pair = c.pair := (rfl)
@[simp] theorem Chip.setLayout_loading (x : List Nat) : (c.setLayout x).loading = c.loading := (rfl)
@[simp] theorem Chip.setLayout_nvOps (x : List Nat) : (c.setLayout x).nvOps = c.nvOps := (rfl)
@[simp] theorem Chip.setLayout_calib (x : List Nat) : (c.setLayout x).calib = c.calib := (rfl)

/-! `setLayoutOld`. -/

@[simp] theorem Chip.setLayoutOld_st (x : Bool) : (c.setLayoutOld x).st = c.st := (rfl)
@[simp] theorem Chip.setLayoutOld_fromRunning (x : Bool) : (c.setLayoutOld x).fromRunning = c.fromRunning := (rfl)
@[simp] theorem Chip.setLayoutOld_regs (x : Bool) : (c.setLayoutOld x).regs = c.regs := (rfl)
@[simp] theorem Chip.setLayoutOld_pend (x : Bool) : (c.setLayoutOld x).pend = c.pend := (rfl)
@[simp] theorem Chip.setLayoutOld_counters (x : Bool) : (c.setLayoutOld x).counters = c.counters := (rfl)
@[simp] theorem Chip.setLayoutOld_snaps (x : Bool) : (c.setLayoutOld x).snaps = c.snaps := (rfl)
@[simp] theorem Chip.setLayoutOld_answer (x : Bool) : (c.setLayoutOld x).answer = c.answer := (rfl)
@[simp] theorem Chip.setLayoutOld_freeCtr (x : Bool) : (c.setLayoutOld x).freeCtr = c.freeCtr := (rfl)
@[simp] theorem Chip.setLayoutOld_aon (x : Bool) : (c.setLayoutOld x).aon = c.aon := (rfl)
@[simp] theorem Chip.setLayoutOld_power (x : Bool) : (c.setLayoutOld x).power = c.power := (rfl)
@[simp] theorem Chip.setLayoutOld_clk (x : Bool) : (c.setLayoutOld x).clk = c.clk := (rfl)
@[simp] theorem Chip.setLayoutOld_time (x : Bool) : (c.setLayoutOld x).time = c.time := (rfl)
@[simp] theorem Chip.setLayoutOld_ports (x : Bool) : (c.setLayoutOld x).ports = c.ports := (rfl)
@[simp] theorem Chip.setLayoutOld_evq (x : Bool) : (c.setLayoutOld x).evq = c.evq := (rfl)
@[simp] theorem Chip.setLayoutOld_nextEvent (x : Bool) : (c.setLayoutOld x).nextEvent = c.nextEvent := (rfl)
@[simp] theorem Chip.setLayoutOld_noticeSeq (x : Bool) : (c.setLayoutOld x).noticeSeq = c.noticeSeq := (rfl)
@[simp] theorem Chip.setLayoutOld_errs (x : Bool) : (c.setLayoutOld x).errs = c.errs := (rfl)
@[simp] theorem Chip.setLayoutOld_sel (x : Bool) : (c.setLayoutOld x).sel = c.sel := (rfl)
@[simp] theorem Chip.setLayoutOld_ctxs (x : Bool) : (c.setLayoutOld x).ctxs = c.ctxs := (rfl)
@[simp] theorem Chip.setLayoutOld_was (x : Bool) : (c.setLayoutOld x).was = c.was := (rfl)
@[simp] theorem Chip.setLayoutOld_feeds (x : Bool) : (c.setLayoutOld x).feeds = c.feeds := (rfl)
@[simp] theorem Chip.setLayoutOld_sramOps (x : Bool) : (c.setLayoutOld x).sramOps = c.sramOps := (rfl)
@[simp] theorem Chip.setLayoutOld_layout (x : Bool) : (c.setLayoutOld x).layout = c.layout := (rfl)
@[simp] theorem Chip.setLayoutOld_layoutOld (x : Bool) : (c.setLayoutOld x).layoutOld = x := (rfl)
@[simp] theorem Chip.setLayoutOld_sched (x : Bool) : (c.setLayoutOld x).sched = c.sched := (rfl)
@[simp] theorem Chip.setLayoutOld_colour (x : Bool) : (c.setLayoutOld x).colour = c.colour := (rfl)
@[simp] theorem Chip.setLayoutOld_scan (x : Bool) : (c.setLayoutOld x).scan = c.scan := (rfl)
@[simp] theorem Chip.setLayoutOld_chains (x : Bool) : (c.setLayoutOld x).chains = c.chains := (rfl)
@[simp] theorem Chip.setLayoutOld_dmx (x : Bool) : (c.setLayoutOld x).dmx = c.dmx := (rfl)
@[simp] theorem Chip.setLayoutOld_resend (x : Bool) : (c.setLayoutOld x).resend = c.resend := (rfl)
@[simp] theorem Chip.setLayoutOld_resendMs (x : Bool) : (c.setLayoutOld x).resendMs = c.resendMs := (rfl)
@[simp] theorem Chip.setLayoutOld_gang (x : Bool) : (c.setLayoutOld x).gang = c.gang := (rfl)
@[simp] theorem Chip.setLayoutOld_emul (x : Bool) : (c.setLayoutOld x).emul = c.emul := (rfl)
@[simp] theorem Chip.setLayoutOld_pair (x : Bool) : (c.setLayoutOld x).pair = c.pair := (rfl)
@[simp] theorem Chip.setLayoutOld_loading (x : Bool) : (c.setLayoutOld x).loading = c.loading := (rfl)
@[simp] theorem Chip.setLayoutOld_nvOps (x : Bool) : (c.setLayoutOld x).nvOps = c.nvOps := (rfl)
@[simp] theorem Chip.setLayoutOld_calib (x : Bool) : (c.setLayoutOld x).calib = c.calib := (rfl)

/-! `setSched`. -/

@[simp] theorem Chip.setSched_st (x : Sched) : (c.setSched x).st = c.st := (rfl)
@[simp] theorem Chip.setSched_fromRunning (x : Sched) : (c.setSched x).fromRunning = c.fromRunning := (rfl)
@[simp] theorem Chip.setSched_regs (x : Sched) : (c.setSched x).regs = c.regs := (rfl)
@[simp] theorem Chip.setSched_pend (x : Sched) : (c.setSched x).pend = c.pend := (rfl)
@[simp] theorem Chip.setSched_counters (x : Sched) : (c.setSched x).counters = c.counters := (rfl)
@[simp] theorem Chip.setSched_snaps (x : Sched) : (c.setSched x).snaps = c.snaps := (rfl)
@[simp] theorem Chip.setSched_answer (x : Sched) : (c.setSched x).answer = c.answer := (rfl)
@[simp] theorem Chip.setSched_freeCtr (x : Sched) : (c.setSched x).freeCtr = c.freeCtr := (rfl)
@[simp] theorem Chip.setSched_aon (x : Sched) : (c.setSched x).aon = c.aon := (rfl)
@[simp] theorem Chip.setSched_power (x : Sched) : (c.setSched x).power = c.power := (rfl)
@[simp] theorem Chip.setSched_clk (x : Sched) : (c.setSched x).clk = c.clk := (rfl)
@[simp] theorem Chip.setSched_time (x : Sched) : (c.setSched x).time = c.time := (rfl)
@[simp] theorem Chip.setSched_ports (x : Sched) : (c.setSched x).ports = c.ports := (rfl)
@[simp] theorem Chip.setSched_evq (x : Sched) : (c.setSched x).evq = c.evq := (rfl)
@[simp] theorem Chip.setSched_nextEvent (x : Sched) : (c.setSched x).nextEvent = c.nextEvent := (rfl)
@[simp] theorem Chip.setSched_noticeSeq (x : Sched) : (c.setSched x).noticeSeq = c.noticeSeq := (rfl)
@[simp] theorem Chip.setSched_errs (x : Sched) : (c.setSched x).errs = c.errs := (rfl)
@[simp] theorem Chip.setSched_sel (x : Sched) : (c.setSched x).sel = c.sel := (rfl)
@[simp] theorem Chip.setSched_ctxs (x : Sched) : (c.setSched x).ctxs = c.ctxs := (rfl)
@[simp] theorem Chip.setSched_was (x : Sched) : (c.setSched x).was = c.was := (rfl)
@[simp] theorem Chip.setSched_feeds (x : Sched) : (c.setSched x).feeds = c.feeds := (rfl)
@[simp] theorem Chip.setSched_sramOps (x : Sched) : (c.setSched x).sramOps = c.sramOps := (rfl)
@[simp] theorem Chip.setSched_layout (x : Sched) : (c.setSched x).layout = c.layout := (rfl)
@[simp] theorem Chip.setSched_layoutOld (x : Sched) : (c.setSched x).layoutOld = c.layoutOld := (rfl)
@[simp] theorem Chip.setSched_sched (x : Sched) : (c.setSched x).sched = x := (rfl)
@[simp] theorem Chip.setSched_colour (x : Sched) : (c.setSched x).colour = c.colour := (rfl)
@[simp] theorem Chip.setSched_scan (x : Sched) : (c.setSched x).scan = c.scan := (rfl)
@[simp] theorem Chip.setSched_chains (x : Sched) : (c.setSched x).chains = c.chains := (rfl)
@[simp] theorem Chip.setSched_dmx (x : Sched) : (c.setSched x).dmx = c.dmx := (rfl)
@[simp] theorem Chip.setSched_resend (x : Sched) : (c.setSched x).resend = c.resend := (rfl)
@[simp] theorem Chip.setSched_resendMs (x : Sched) : (c.setSched x).resendMs = c.resendMs := (rfl)
@[simp] theorem Chip.setSched_gang (x : Sched) : (c.setSched x).gang = c.gang := (rfl)
@[simp] theorem Chip.setSched_emul (x : Sched) : (c.setSched x).emul = c.emul := (rfl)
@[simp] theorem Chip.setSched_pair (x : Sched) : (c.setSched x).pair = c.pair := (rfl)
@[simp] theorem Chip.setSched_loading (x : Sched) : (c.setSched x).loading = c.loading := (rfl)
@[simp] theorem Chip.setSched_nvOps (x : Sched) : (c.setSched x).nvOps = c.nvOps := (rfl)
@[simp] theorem Chip.setSched_calib (x : Sched) : (c.setSched x).calib = c.calib := (rfl)

/-! `setColour`. -/

@[simp] theorem Chip.setColour_st (x : Colour) : (c.setColour x).st = c.st := (rfl)
@[simp] theorem Chip.setColour_fromRunning (x : Colour) : (c.setColour x).fromRunning = c.fromRunning := (rfl)
@[simp] theorem Chip.setColour_regs (x : Colour) : (c.setColour x).regs = c.regs := (rfl)
@[simp] theorem Chip.setColour_pend (x : Colour) : (c.setColour x).pend = c.pend := (rfl)
@[simp] theorem Chip.setColour_counters (x : Colour) : (c.setColour x).counters = c.counters := (rfl)
@[simp] theorem Chip.setColour_snaps (x : Colour) : (c.setColour x).snaps = c.snaps := (rfl)
@[simp] theorem Chip.setColour_answer (x : Colour) : (c.setColour x).answer = c.answer := (rfl)
@[simp] theorem Chip.setColour_freeCtr (x : Colour) : (c.setColour x).freeCtr = c.freeCtr := (rfl)
@[simp] theorem Chip.setColour_aon (x : Colour) : (c.setColour x).aon = c.aon := (rfl)
@[simp] theorem Chip.setColour_power (x : Colour) : (c.setColour x).power = c.power := (rfl)
@[simp] theorem Chip.setColour_clk (x : Colour) : (c.setColour x).clk = c.clk := (rfl)
@[simp] theorem Chip.setColour_time (x : Colour) : (c.setColour x).time = c.time := (rfl)
@[simp] theorem Chip.setColour_ports (x : Colour) : (c.setColour x).ports = c.ports := (rfl)
@[simp] theorem Chip.setColour_evq (x : Colour) : (c.setColour x).evq = c.evq := (rfl)
@[simp] theorem Chip.setColour_nextEvent (x : Colour) : (c.setColour x).nextEvent = c.nextEvent := (rfl)
@[simp] theorem Chip.setColour_noticeSeq (x : Colour) : (c.setColour x).noticeSeq = c.noticeSeq := (rfl)
@[simp] theorem Chip.setColour_errs (x : Colour) : (c.setColour x).errs = c.errs := (rfl)
@[simp] theorem Chip.setColour_sel (x : Colour) : (c.setColour x).sel = c.sel := (rfl)
@[simp] theorem Chip.setColour_ctxs (x : Colour) : (c.setColour x).ctxs = c.ctxs := (rfl)
@[simp] theorem Chip.setColour_was (x : Colour) : (c.setColour x).was = c.was := (rfl)
@[simp] theorem Chip.setColour_feeds (x : Colour) : (c.setColour x).feeds = c.feeds := (rfl)
@[simp] theorem Chip.setColour_sramOps (x : Colour) : (c.setColour x).sramOps = c.sramOps := (rfl)
@[simp] theorem Chip.setColour_layout (x : Colour) : (c.setColour x).layout = c.layout := (rfl)
@[simp] theorem Chip.setColour_layoutOld (x : Colour) : (c.setColour x).layoutOld = c.layoutOld := (rfl)
@[simp] theorem Chip.setColour_sched (x : Colour) : (c.setColour x).sched = c.sched := (rfl)
@[simp] theorem Chip.setColour_colour (x : Colour) : (c.setColour x).colour = x := (rfl)
@[simp] theorem Chip.setColour_scan (x : Colour) : (c.setColour x).scan = c.scan := (rfl)
@[simp] theorem Chip.setColour_chains (x : Colour) : (c.setColour x).chains = c.chains := (rfl)
@[simp] theorem Chip.setColour_dmx (x : Colour) : (c.setColour x).dmx = c.dmx := (rfl)
@[simp] theorem Chip.setColour_resend (x : Colour) : (c.setColour x).resend = c.resend := (rfl)
@[simp] theorem Chip.setColour_resendMs (x : Colour) : (c.setColour x).resendMs = c.resendMs := (rfl)
@[simp] theorem Chip.setColour_gang (x : Colour) : (c.setColour x).gang = c.gang := (rfl)
@[simp] theorem Chip.setColour_emul (x : Colour) : (c.setColour x).emul = c.emul := (rfl)
@[simp] theorem Chip.setColour_pair (x : Colour) : (c.setColour x).pair = c.pair := (rfl)
@[simp] theorem Chip.setColour_loading (x : Colour) : (c.setColour x).loading = c.loading := (rfl)
@[simp] theorem Chip.setColour_nvOps (x : Colour) : (c.setColour x).nvOps = c.nvOps := (rfl)
@[simp] theorem Chip.setColour_calib (x : Colour) : (c.setColour x).calib = c.calib := (rfl)

/-! `setScan`. -/

@[simp] theorem Chip.setScan_st (x : Scan) : (c.setScan x).st = c.st := (rfl)
@[simp] theorem Chip.setScan_fromRunning (x : Scan) : (c.setScan x).fromRunning = c.fromRunning := (rfl)
@[simp] theorem Chip.setScan_regs (x : Scan) : (c.setScan x).regs = c.regs := (rfl)
@[simp] theorem Chip.setScan_pend (x : Scan) : (c.setScan x).pend = c.pend := (rfl)
@[simp] theorem Chip.setScan_counters (x : Scan) : (c.setScan x).counters = c.counters := (rfl)
@[simp] theorem Chip.setScan_snaps (x : Scan) : (c.setScan x).snaps = c.snaps := (rfl)
@[simp] theorem Chip.setScan_answer (x : Scan) : (c.setScan x).answer = c.answer := (rfl)
@[simp] theorem Chip.setScan_freeCtr (x : Scan) : (c.setScan x).freeCtr = c.freeCtr := (rfl)
@[simp] theorem Chip.setScan_aon (x : Scan) : (c.setScan x).aon = c.aon := (rfl)
@[simp] theorem Chip.setScan_power (x : Scan) : (c.setScan x).power = c.power := (rfl)
@[simp] theorem Chip.setScan_clk (x : Scan) : (c.setScan x).clk = c.clk := (rfl)
@[simp] theorem Chip.setScan_time (x : Scan) : (c.setScan x).time = c.time := (rfl)
@[simp] theorem Chip.setScan_ports (x : Scan) : (c.setScan x).ports = c.ports := (rfl)
@[simp] theorem Chip.setScan_evq (x : Scan) : (c.setScan x).evq = c.evq := (rfl)
@[simp] theorem Chip.setScan_nextEvent (x : Scan) : (c.setScan x).nextEvent = c.nextEvent := (rfl)
@[simp] theorem Chip.setScan_noticeSeq (x : Scan) : (c.setScan x).noticeSeq = c.noticeSeq := (rfl)
@[simp] theorem Chip.setScan_errs (x : Scan) : (c.setScan x).errs = c.errs := (rfl)
@[simp] theorem Chip.setScan_sel (x : Scan) : (c.setScan x).sel = c.sel := (rfl)
@[simp] theorem Chip.setScan_ctxs (x : Scan) : (c.setScan x).ctxs = c.ctxs := (rfl)
@[simp] theorem Chip.setScan_was (x : Scan) : (c.setScan x).was = c.was := (rfl)
@[simp] theorem Chip.setScan_feeds (x : Scan) : (c.setScan x).feeds = c.feeds := (rfl)
@[simp] theorem Chip.setScan_sramOps (x : Scan) : (c.setScan x).sramOps = c.sramOps := (rfl)
@[simp] theorem Chip.setScan_layout (x : Scan) : (c.setScan x).layout = c.layout := (rfl)
@[simp] theorem Chip.setScan_layoutOld (x : Scan) : (c.setScan x).layoutOld = c.layoutOld := (rfl)
@[simp] theorem Chip.setScan_sched (x : Scan) : (c.setScan x).sched = c.sched := (rfl)
@[simp] theorem Chip.setScan_colour (x : Scan) : (c.setScan x).colour = c.colour := (rfl)
@[simp] theorem Chip.setScan_scan (x : Scan) : (c.setScan x).scan = x := (rfl)
@[simp] theorem Chip.setScan_chains (x : Scan) : (c.setScan x).chains = c.chains := (rfl)
@[simp] theorem Chip.setScan_dmx (x : Scan) : (c.setScan x).dmx = c.dmx := (rfl)
@[simp] theorem Chip.setScan_resend (x : Scan) : (c.setScan x).resend = c.resend := (rfl)
@[simp] theorem Chip.setScan_resendMs (x : Scan) : (c.setScan x).resendMs = c.resendMs := (rfl)
@[simp] theorem Chip.setScan_gang (x : Scan) : (c.setScan x).gang = c.gang := (rfl)
@[simp] theorem Chip.setScan_emul (x : Scan) : (c.setScan x).emul = c.emul := (rfl)
@[simp] theorem Chip.setScan_pair (x : Scan) : (c.setScan x).pair = c.pair := (rfl)
@[simp] theorem Chip.setScan_loading (x : Scan) : (c.setScan x).loading = c.loading := (rfl)
@[simp] theorem Chip.setScan_nvOps (x : Scan) : (c.setScan x).nvOps = c.nvOps := (rfl)
@[simp] theorem Chip.setScan_calib (x : Scan) : (c.setScan x).calib = c.calib := (rfl)

/-! `setChains`. -/

@[simp] theorem Chip.setChains_st (x : Chains) : (c.setChains x).st = c.st := (rfl)
@[simp] theorem Chip.setChains_fromRunning (x : Chains) : (c.setChains x).fromRunning = c.fromRunning := (rfl)
@[simp] theorem Chip.setChains_regs (x : Chains) : (c.setChains x).regs = c.regs := (rfl)
@[simp] theorem Chip.setChains_pend (x : Chains) : (c.setChains x).pend = c.pend := (rfl)
@[simp] theorem Chip.setChains_counters (x : Chains) : (c.setChains x).counters = c.counters := (rfl)
@[simp] theorem Chip.setChains_snaps (x : Chains) : (c.setChains x).snaps = c.snaps := (rfl)
@[simp] theorem Chip.setChains_answer (x : Chains) : (c.setChains x).answer = c.answer := (rfl)
@[simp] theorem Chip.setChains_freeCtr (x : Chains) : (c.setChains x).freeCtr = c.freeCtr := (rfl)
@[simp] theorem Chip.setChains_aon (x : Chains) : (c.setChains x).aon = c.aon := (rfl)
@[simp] theorem Chip.setChains_power (x : Chains) : (c.setChains x).power = c.power := (rfl)
@[simp] theorem Chip.setChains_clk (x : Chains) : (c.setChains x).clk = c.clk := (rfl)
@[simp] theorem Chip.setChains_time (x : Chains) : (c.setChains x).time = c.time := (rfl)
@[simp] theorem Chip.setChains_ports (x : Chains) : (c.setChains x).ports = c.ports := (rfl)
@[simp] theorem Chip.setChains_evq (x : Chains) : (c.setChains x).evq = c.evq := (rfl)
@[simp] theorem Chip.setChains_nextEvent (x : Chains) : (c.setChains x).nextEvent = c.nextEvent := (rfl)
@[simp] theorem Chip.setChains_noticeSeq (x : Chains) : (c.setChains x).noticeSeq = c.noticeSeq := (rfl)
@[simp] theorem Chip.setChains_errs (x : Chains) : (c.setChains x).errs = c.errs := (rfl)
@[simp] theorem Chip.setChains_sel (x : Chains) : (c.setChains x).sel = c.sel := (rfl)
@[simp] theorem Chip.setChains_ctxs (x : Chains) : (c.setChains x).ctxs = c.ctxs := (rfl)
@[simp] theorem Chip.setChains_was (x : Chains) : (c.setChains x).was = c.was := (rfl)
@[simp] theorem Chip.setChains_feeds (x : Chains) : (c.setChains x).feeds = c.feeds := (rfl)
@[simp] theorem Chip.setChains_sramOps (x : Chains) : (c.setChains x).sramOps = c.sramOps := (rfl)
@[simp] theorem Chip.setChains_layout (x : Chains) : (c.setChains x).layout = c.layout := (rfl)
@[simp] theorem Chip.setChains_layoutOld (x : Chains) : (c.setChains x).layoutOld = c.layoutOld := (rfl)
@[simp] theorem Chip.setChains_sched (x : Chains) : (c.setChains x).sched = c.sched := (rfl)
@[simp] theorem Chip.setChains_colour (x : Chains) : (c.setChains x).colour = c.colour := (rfl)
@[simp] theorem Chip.setChains_scan (x : Chains) : (c.setChains x).scan = c.scan := (rfl)
@[simp] theorem Chip.setChains_chains (x : Chains) : (c.setChains x).chains = x := (rfl)
@[simp] theorem Chip.setChains_dmx (x : Chains) : (c.setChains x).dmx = c.dmx := (rfl)
@[simp] theorem Chip.setChains_resend (x : Chains) : (c.setChains x).resend = c.resend := (rfl)
@[simp] theorem Chip.setChains_resendMs (x : Chains) : (c.setChains x).resendMs = c.resendMs := (rfl)
@[simp] theorem Chip.setChains_gang (x : Chains) : (c.setChains x).gang = c.gang := (rfl)
@[simp] theorem Chip.setChains_emul (x : Chains) : (c.setChains x).emul = c.emul := (rfl)
@[simp] theorem Chip.setChains_pair (x : Chains) : (c.setChains x).pair = c.pair := (rfl)
@[simp] theorem Chip.setChains_loading (x : Chains) : (c.setChains x).loading = c.loading := (rfl)
@[simp] theorem Chip.setChains_nvOps (x : Chains) : (c.setChains x).nvOps = c.nvOps := (rfl)
@[simp] theorem Chip.setChains_calib (x : Chains) : (c.setChains x).calib = c.calib := (rfl)

/-! `setDmx`. -/

@[simp] theorem Chip.setDmx_st (x : Vector DmxPort 4) : (c.setDmx x).st = c.st := (rfl)
@[simp] theorem Chip.setDmx_fromRunning (x : Vector DmxPort 4) : (c.setDmx x).fromRunning = c.fromRunning := (rfl)
@[simp] theorem Chip.setDmx_regs (x : Vector DmxPort 4) : (c.setDmx x).regs = c.regs := (rfl)
@[simp] theorem Chip.setDmx_pend (x : Vector DmxPort 4) : (c.setDmx x).pend = c.pend := (rfl)
@[simp] theorem Chip.setDmx_counters (x : Vector DmxPort 4) : (c.setDmx x).counters = c.counters := (rfl)
@[simp] theorem Chip.setDmx_snaps (x : Vector DmxPort 4) : (c.setDmx x).snaps = c.snaps := (rfl)
@[simp] theorem Chip.setDmx_answer (x : Vector DmxPort 4) : (c.setDmx x).answer = c.answer := (rfl)
@[simp] theorem Chip.setDmx_freeCtr (x : Vector DmxPort 4) : (c.setDmx x).freeCtr = c.freeCtr := (rfl)
@[simp] theorem Chip.setDmx_aon (x : Vector DmxPort 4) : (c.setDmx x).aon = c.aon := (rfl)
@[simp] theorem Chip.setDmx_power (x : Vector DmxPort 4) : (c.setDmx x).power = c.power := (rfl)
@[simp] theorem Chip.setDmx_clk (x : Vector DmxPort 4) : (c.setDmx x).clk = c.clk := (rfl)
@[simp] theorem Chip.setDmx_time (x : Vector DmxPort 4) : (c.setDmx x).time = c.time := (rfl)
@[simp] theorem Chip.setDmx_ports (x : Vector DmxPort 4) : (c.setDmx x).ports = c.ports := (rfl)
@[simp] theorem Chip.setDmx_evq (x : Vector DmxPort 4) : (c.setDmx x).evq = c.evq := (rfl)
@[simp] theorem Chip.setDmx_nextEvent (x : Vector DmxPort 4) : (c.setDmx x).nextEvent = c.nextEvent := (rfl)
@[simp] theorem Chip.setDmx_noticeSeq (x : Vector DmxPort 4) : (c.setDmx x).noticeSeq = c.noticeSeq := (rfl)
@[simp] theorem Chip.setDmx_errs (x : Vector DmxPort 4) : (c.setDmx x).errs = c.errs := (rfl)
@[simp] theorem Chip.setDmx_sel (x : Vector DmxPort 4) : (c.setDmx x).sel = c.sel := (rfl)
@[simp] theorem Chip.setDmx_ctxs (x : Vector DmxPort 4) : (c.setDmx x).ctxs = c.ctxs := (rfl)
@[simp] theorem Chip.setDmx_was (x : Vector DmxPort 4) : (c.setDmx x).was = c.was := (rfl)
@[simp] theorem Chip.setDmx_feeds (x : Vector DmxPort 4) : (c.setDmx x).feeds = c.feeds := (rfl)
@[simp] theorem Chip.setDmx_sramOps (x : Vector DmxPort 4) : (c.setDmx x).sramOps = c.sramOps := (rfl)
@[simp] theorem Chip.setDmx_layout (x : Vector DmxPort 4) : (c.setDmx x).layout = c.layout := (rfl)
@[simp] theorem Chip.setDmx_layoutOld (x : Vector DmxPort 4) : (c.setDmx x).layoutOld = c.layoutOld := (rfl)
@[simp] theorem Chip.setDmx_sched (x : Vector DmxPort 4) : (c.setDmx x).sched = c.sched := (rfl)
@[simp] theorem Chip.setDmx_colour (x : Vector DmxPort 4) : (c.setDmx x).colour = c.colour := (rfl)
@[simp] theorem Chip.setDmx_scan (x : Vector DmxPort 4) : (c.setDmx x).scan = c.scan := (rfl)
@[simp] theorem Chip.setDmx_chains (x : Vector DmxPort 4) : (c.setDmx x).chains = c.chains := (rfl)
@[simp] theorem Chip.setDmx_dmx (x : Vector DmxPort 4) : (c.setDmx x).dmx = x := (rfl)
@[simp] theorem Chip.setDmx_resend (x : Vector DmxPort 4) : (c.setDmx x).resend = c.resend := (rfl)
@[simp] theorem Chip.setDmx_resendMs (x : Vector DmxPort 4) : (c.setDmx x).resendMs = c.resendMs := (rfl)
@[simp] theorem Chip.setDmx_gang (x : Vector DmxPort 4) : (c.setDmx x).gang = c.gang := (rfl)
@[simp] theorem Chip.setDmx_emul (x : Vector DmxPort 4) : (c.setDmx x).emul = c.emul := (rfl)
@[simp] theorem Chip.setDmx_pair (x : Vector DmxPort 4) : (c.setDmx x).pair = c.pair := (rfl)
@[simp] theorem Chip.setDmx_loading (x : Vector DmxPort 4) : (c.setDmx x).loading = c.loading := (rfl)
@[simp] theorem Chip.setDmx_nvOps (x : Vector DmxPort 4) : (c.setDmx x).nvOps = c.nvOps := (rfl)
@[simp] theorem Chip.setDmx_calib (x : Vector DmxPort 4) : (c.setDmx x).calib = c.calib := (rfl)

/-! `setResend`. -/

@[simp] theorem Chip.setResend_st (x : List Resend) : (c.setResend x).st = c.st := (rfl)
@[simp] theorem Chip.setResend_fromRunning (x : List Resend) : (c.setResend x).fromRunning = c.fromRunning := (rfl)
@[simp] theorem Chip.setResend_regs (x : List Resend) : (c.setResend x).regs = c.regs := (rfl)
@[simp] theorem Chip.setResend_pend (x : List Resend) : (c.setResend x).pend = c.pend := (rfl)
@[simp] theorem Chip.setResend_counters (x : List Resend) : (c.setResend x).counters = c.counters := (rfl)
@[simp] theorem Chip.setResend_snaps (x : List Resend) : (c.setResend x).snaps = c.snaps := (rfl)
@[simp] theorem Chip.setResend_answer (x : List Resend) : (c.setResend x).answer = c.answer := (rfl)
@[simp] theorem Chip.setResend_freeCtr (x : List Resend) : (c.setResend x).freeCtr = c.freeCtr := (rfl)
@[simp] theorem Chip.setResend_aon (x : List Resend) : (c.setResend x).aon = c.aon := (rfl)
@[simp] theorem Chip.setResend_power (x : List Resend) : (c.setResend x).power = c.power := (rfl)
@[simp] theorem Chip.setResend_clk (x : List Resend) : (c.setResend x).clk = c.clk := (rfl)
@[simp] theorem Chip.setResend_time (x : List Resend) : (c.setResend x).time = c.time := (rfl)
@[simp] theorem Chip.setResend_ports (x : List Resend) : (c.setResend x).ports = c.ports := (rfl)
@[simp] theorem Chip.setResend_evq (x : List Resend) : (c.setResend x).evq = c.evq := (rfl)
@[simp] theorem Chip.setResend_nextEvent (x : List Resend) : (c.setResend x).nextEvent = c.nextEvent := (rfl)
@[simp] theorem Chip.setResend_noticeSeq (x : List Resend) : (c.setResend x).noticeSeq = c.noticeSeq := (rfl)
@[simp] theorem Chip.setResend_errs (x : List Resend) : (c.setResend x).errs = c.errs := (rfl)
@[simp] theorem Chip.setResend_sel (x : List Resend) : (c.setResend x).sel = c.sel := (rfl)
@[simp] theorem Chip.setResend_ctxs (x : List Resend) : (c.setResend x).ctxs = c.ctxs := (rfl)
@[simp] theorem Chip.setResend_was (x : List Resend) : (c.setResend x).was = c.was := (rfl)
@[simp] theorem Chip.setResend_feeds (x : List Resend) : (c.setResend x).feeds = c.feeds := (rfl)
@[simp] theorem Chip.setResend_sramOps (x : List Resend) : (c.setResend x).sramOps = c.sramOps := (rfl)
@[simp] theorem Chip.setResend_layout (x : List Resend) : (c.setResend x).layout = c.layout := (rfl)
@[simp] theorem Chip.setResend_layoutOld (x : List Resend) : (c.setResend x).layoutOld = c.layoutOld := (rfl)
@[simp] theorem Chip.setResend_sched (x : List Resend) : (c.setResend x).sched = c.sched := (rfl)
@[simp] theorem Chip.setResend_colour (x : List Resend) : (c.setResend x).colour = c.colour := (rfl)
@[simp] theorem Chip.setResend_scan (x : List Resend) : (c.setResend x).scan = c.scan := (rfl)
@[simp] theorem Chip.setResend_chains (x : List Resend) : (c.setResend x).chains = c.chains := (rfl)
@[simp] theorem Chip.setResend_dmx (x : List Resend) : (c.setResend x).dmx = c.dmx := (rfl)
@[simp] theorem Chip.setResend_resend (x : List Resend) : (c.setResend x).resend = x := (rfl)
@[simp] theorem Chip.setResend_resendMs (x : List Resend) : (c.setResend x).resendMs = c.resendMs := (rfl)
@[simp] theorem Chip.setResend_gang (x : List Resend) : (c.setResend x).gang = c.gang := (rfl)
@[simp] theorem Chip.setResend_emul (x : List Resend) : (c.setResend x).emul = c.emul := (rfl)
@[simp] theorem Chip.setResend_pair (x : List Resend) : (c.setResend x).pair = c.pair := (rfl)
@[simp] theorem Chip.setResend_loading (x : List Resend) : (c.setResend x).loading = c.loading := (rfl)
@[simp] theorem Chip.setResend_nvOps (x : List Resend) : (c.setResend x).nvOps = c.nvOps := (rfl)
@[simp] theorem Chip.setResend_calib (x : List Resend) : (c.setResend x).calib = c.calib := (rfl)

/-! `setResendMs`. -/

@[simp] theorem Chip.setResendMs_st (x : Nat × Nat) : (c.setResendMs x).st = c.st := (rfl)
@[simp] theorem Chip.setResendMs_fromRunning (x : Nat × Nat) : (c.setResendMs x).fromRunning = c.fromRunning := (rfl)
@[simp] theorem Chip.setResendMs_regs (x : Nat × Nat) : (c.setResendMs x).regs = c.regs := (rfl)
@[simp] theorem Chip.setResendMs_pend (x : Nat × Nat) : (c.setResendMs x).pend = c.pend := (rfl)
@[simp] theorem Chip.setResendMs_counters (x : Nat × Nat) : (c.setResendMs x).counters = c.counters := (rfl)
@[simp] theorem Chip.setResendMs_snaps (x : Nat × Nat) : (c.setResendMs x).snaps = c.snaps := (rfl)
@[simp] theorem Chip.setResendMs_answer (x : Nat × Nat) : (c.setResendMs x).answer = c.answer := (rfl)
@[simp] theorem Chip.setResendMs_freeCtr (x : Nat × Nat) : (c.setResendMs x).freeCtr = c.freeCtr := (rfl)
@[simp] theorem Chip.setResendMs_aon (x : Nat × Nat) : (c.setResendMs x).aon = c.aon := (rfl)
@[simp] theorem Chip.setResendMs_power (x : Nat × Nat) : (c.setResendMs x).power = c.power := (rfl)
@[simp] theorem Chip.setResendMs_clk (x : Nat × Nat) : (c.setResendMs x).clk = c.clk := (rfl)
@[simp] theorem Chip.setResendMs_time (x : Nat × Nat) : (c.setResendMs x).time = c.time := (rfl)
@[simp] theorem Chip.setResendMs_ports (x : Nat × Nat) : (c.setResendMs x).ports = c.ports := (rfl)
@[simp] theorem Chip.setResendMs_evq (x : Nat × Nat) : (c.setResendMs x).evq = c.evq := (rfl)
@[simp] theorem Chip.setResendMs_nextEvent (x : Nat × Nat) : (c.setResendMs x).nextEvent = c.nextEvent := (rfl)
@[simp] theorem Chip.setResendMs_noticeSeq (x : Nat × Nat) : (c.setResendMs x).noticeSeq = c.noticeSeq := (rfl)
@[simp] theorem Chip.setResendMs_errs (x : Nat × Nat) : (c.setResendMs x).errs = c.errs := (rfl)
@[simp] theorem Chip.setResendMs_sel (x : Nat × Nat) : (c.setResendMs x).sel = c.sel := (rfl)
@[simp] theorem Chip.setResendMs_ctxs (x : Nat × Nat) : (c.setResendMs x).ctxs = c.ctxs := (rfl)
@[simp] theorem Chip.setResendMs_was (x : Nat × Nat) : (c.setResendMs x).was = c.was := (rfl)
@[simp] theorem Chip.setResendMs_feeds (x : Nat × Nat) : (c.setResendMs x).feeds = c.feeds := (rfl)
@[simp] theorem Chip.setResendMs_sramOps (x : Nat × Nat) : (c.setResendMs x).sramOps = c.sramOps := (rfl)
@[simp] theorem Chip.setResendMs_layout (x : Nat × Nat) : (c.setResendMs x).layout = c.layout := (rfl)
@[simp] theorem Chip.setResendMs_layoutOld (x : Nat × Nat) : (c.setResendMs x).layoutOld = c.layoutOld := (rfl)
@[simp] theorem Chip.setResendMs_sched (x : Nat × Nat) : (c.setResendMs x).sched = c.sched := (rfl)
@[simp] theorem Chip.setResendMs_colour (x : Nat × Nat) : (c.setResendMs x).colour = c.colour := (rfl)
@[simp] theorem Chip.setResendMs_scan (x : Nat × Nat) : (c.setResendMs x).scan = c.scan := (rfl)
@[simp] theorem Chip.setResendMs_chains (x : Nat × Nat) : (c.setResendMs x).chains = c.chains := (rfl)
@[simp] theorem Chip.setResendMs_dmx (x : Nat × Nat) : (c.setResendMs x).dmx = c.dmx := (rfl)
@[simp] theorem Chip.setResendMs_resend (x : Nat × Nat) : (c.setResendMs x).resend = c.resend := (rfl)
@[simp] theorem Chip.setResendMs_resendMs (x : Nat × Nat) : (c.setResendMs x).resendMs = x := (rfl)
@[simp] theorem Chip.setResendMs_gang (x : Nat × Nat) : (c.setResendMs x).gang = c.gang := (rfl)
@[simp] theorem Chip.setResendMs_emul (x : Nat × Nat) : (c.setResendMs x).emul = c.emul := (rfl)
@[simp] theorem Chip.setResendMs_pair (x : Nat × Nat) : (c.setResendMs x).pair = c.pair := (rfl)
@[simp] theorem Chip.setResendMs_loading (x : Nat × Nat) : (c.setResendMs x).loading = c.loading := (rfl)
@[simp] theorem Chip.setResendMs_nvOps (x : Nat × Nat) : (c.setResendMs x).nvOps = c.nvOps := (rfl)
@[simp] theorem Chip.setResendMs_calib (x : Nat × Nat) : (c.setResendMs x).calib = c.calib := (rfl)

/-! `setGang`. -/

@[simp] theorem Chip.setGang_st (x : Gang) : (c.setGang x).st = c.st := (rfl)
@[simp] theorem Chip.setGang_fromRunning (x : Gang) : (c.setGang x).fromRunning = c.fromRunning := (rfl)
@[simp] theorem Chip.setGang_regs (x : Gang) : (c.setGang x).regs = c.regs := (rfl)
@[simp] theorem Chip.setGang_pend (x : Gang) : (c.setGang x).pend = c.pend := (rfl)
@[simp] theorem Chip.setGang_counters (x : Gang) : (c.setGang x).counters = c.counters := (rfl)
@[simp] theorem Chip.setGang_snaps (x : Gang) : (c.setGang x).snaps = c.snaps := (rfl)
@[simp] theorem Chip.setGang_answer (x : Gang) : (c.setGang x).answer = c.answer := (rfl)
@[simp] theorem Chip.setGang_freeCtr (x : Gang) : (c.setGang x).freeCtr = c.freeCtr := (rfl)
@[simp] theorem Chip.setGang_aon (x : Gang) : (c.setGang x).aon = c.aon := (rfl)
@[simp] theorem Chip.setGang_power (x : Gang) : (c.setGang x).power = c.power := (rfl)
@[simp] theorem Chip.setGang_clk (x : Gang) : (c.setGang x).clk = c.clk := (rfl)
@[simp] theorem Chip.setGang_time (x : Gang) : (c.setGang x).time = c.time := (rfl)
@[simp] theorem Chip.setGang_ports (x : Gang) : (c.setGang x).ports = c.ports := (rfl)
@[simp] theorem Chip.setGang_evq (x : Gang) : (c.setGang x).evq = c.evq := (rfl)
@[simp] theorem Chip.setGang_nextEvent (x : Gang) : (c.setGang x).nextEvent = c.nextEvent := (rfl)
@[simp] theorem Chip.setGang_noticeSeq (x : Gang) : (c.setGang x).noticeSeq = c.noticeSeq := (rfl)
@[simp] theorem Chip.setGang_errs (x : Gang) : (c.setGang x).errs = c.errs := (rfl)
@[simp] theorem Chip.setGang_sel (x : Gang) : (c.setGang x).sel = c.sel := (rfl)
@[simp] theorem Chip.setGang_ctxs (x : Gang) : (c.setGang x).ctxs = c.ctxs := (rfl)
@[simp] theorem Chip.setGang_was (x : Gang) : (c.setGang x).was = c.was := (rfl)
@[simp] theorem Chip.setGang_feeds (x : Gang) : (c.setGang x).feeds = c.feeds := (rfl)
@[simp] theorem Chip.setGang_sramOps (x : Gang) : (c.setGang x).sramOps = c.sramOps := (rfl)
@[simp] theorem Chip.setGang_layout (x : Gang) : (c.setGang x).layout = c.layout := (rfl)
@[simp] theorem Chip.setGang_layoutOld (x : Gang) : (c.setGang x).layoutOld = c.layoutOld := (rfl)
@[simp] theorem Chip.setGang_sched (x : Gang) : (c.setGang x).sched = c.sched := (rfl)
@[simp] theorem Chip.setGang_colour (x : Gang) : (c.setGang x).colour = c.colour := (rfl)
@[simp] theorem Chip.setGang_scan (x : Gang) : (c.setGang x).scan = c.scan := (rfl)
@[simp] theorem Chip.setGang_chains (x : Gang) : (c.setGang x).chains = c.chains := (rfl)
@[simp] theorem Chip.setGang_dmx (x : Gang) : (c.setGang x).dmx = c.dmx := (rfl)
@[simp] theorem Chip.setGang_resend (x : Gang) : (c.setGang x).resend = c.resend := (rfl)
@[simp] theorem Chip.setGang_resendMs (x : Gang) : (c.setGang x).resendMs = c.resendMs := (rfl)
@[simp] theorem Chip.setGang_gang (x : Gang) : (c.setGang x).gang = x := (rfl)
@[simp] theorem Chip.setGang_emul (x : Gang) : (c.setGang x).emul = c.emul := (rfl)
@[simp] theorem Chip.setGang_pair (x : Gang) : (c.setGang x).pair = c.pair := (rfl)
@[simp] theorem Chip.setGang_loading (x : Gang) : (c.setGang x).loading = c.loading := (rfl)
@[simp] theorem Chip.setGang_nvOps (x : Gang) : (c.setGang x).nvOps = c.nvOps := (rfl)
@[simp] theorem Chip.setGang_calib (x : Gang) : (c.setGang x).calib = c.calib := (rfl)

/-! `setEmul`. -/

@[simp] theorem Chip.setEmul_st (x : Emul) : (c.setEmul x).st = c.st := (rfl)
@[simp] theorem Chip.setEmul_fromRunning (x : Emul) : (c.setEmul x).fromRunning = c.fromRunning := (rfl)
@[simp] theorem Chip.setEmul_regs (x : Emul) : (c.setEmul x).regs = c.regs := (rfl)
@[simp] theorem Chip.setEmul_pend (x : Emul) : (c.setEmul x).pend = c.pend := (rfl)
@[simp] theorem Chip.setEmul_counters (x : Emul) : (c.setEmul x).counters = c.counters := (rfl)
@[simp] theorem Chip.setEmul_snaps (x : Emul) : (c.setEmul x).snaps = c.snaps := (rfl)
@[simp] theorem Chip.setEmul_answer (x : Emul) : (c.setEmul x).answer = c.answer := (rfl)
@[simp] theorem Chip.setEmul_freeCtr (x : Emul) : (c.setEmul x).freeCtr = c.freeCtr := (rfl)
@[simp] theorem Chip.setEmul_aon (x : Emul) : (c.setEmul x).aon = c.aon := (rfl)
@[simp] theorem Chip.setEmul_power (x : Emul) : (c.setEmul x).power = c.power := (rfl)
@[simp] theorem Chip.setEmul_clk (x : Emul) : (c.setEmul x).clk = c.clk := (rfl)
@[simp] theorem Chip.setEmul_time (x : Emul) : (c.setEmul x).time = c.time := (rfl)
@[simp] theorem Chip.setEmul_ports (x : Emul) : (c.setEmul x).ports = c.ports := (rfl)
@[simp] theorem Chip.setEmul_evq (x : Emul) : (c.setEmul x).evq = c.evq := (rfl)
@[simp] theorem Chip.setEmul_nextEvent (x : Emul) : (c.setEmul x).nextEvent = c.nextEvent := (rfl)
@[simp] theorem Chip.setEmul_noticeSeq (x : Emul) : (c.setEmul x).noticeSeq = c.noticeSeq := (rfl)
@[simp] theorem Chip.setEmul_errs (x : Emul) : (c.setEmul x).errs = c.errs := (rfl)
@[simp] theorem Chip.setEmul_sel (x : Emul) : (c.setEmul x).sel = c.sel := (rfl)
@[simp] theorem Chip.setEmul_ctxs (x : Emul) : (c.setEmul x).ctxs = c.ctxs := (rfl)
@[simp] theorem Chip.setEmul_was (x : Emul) : (c.setEmul x).was = c.was := (rfl)
@[simp] theorem Chip.setEmul_feeds (x : Emul) : (c.setEmul x).feeds = c.feeds := (rfl)
@[simp] theorem Chip.setEmul_sramOps (x : Emul) : (c.setEmul x).sramOps = c.sramOps := (rfl)
@[simp] theorem Chip.setEmul_layout (x : Emul) : (c.setEmul x).layout = c.layout := (rfl)
@[simp] theorem Chip.setEmul_layoutOld (x : Emul) : (c.setEmul x).layoutOld = c.layoutOld := (rfl)
@[simp] theorem Chip.setEmul_sched (x : Emul) : (c.setEmul x).sched = c.sched := (rfl)
@[simp] theorem Chip.setEmul_colour (x : Emul) : (c.setEmul x).colour = c.colour := (rfl)
@[simp] theorem Chip.setEmul_scan (x : Emul) : (c.setEmul x).scan = c.scan := (rfl)
@[simp] theorem Chip.setEmul_chains (x : Emul) : (c.setEmul x).chains = c.chains := (rfl)
@[simp] theorem Chip.setEmul_dmx (x : Emul) : (c.setEmul x).dmx = c.dmx := (rfl)
@[simp] theorem Chip.setEmul_resend (x : Emul) : (c.setEmul x).resend = c.resend := (rfl)
@[simp] theorem Chip.setEmul_resendMs (x : Emul) : (c.setEmul x).resendMs = c.resendMs := (rfl)
@[simp] theorem Chip.setEmul_gang (x : Emul) : (c.setEmul x).gang = c.gang := (rfl)
@[simp] theorem Chip.setEmul_emul (x : Emul) : (c.setEmul x).emul = x := (rfl)
@[simp] theorem Chip.setEmul_pair (x : Emul) : (c.setEmul x).pair = c.pair := (rfl)
@[simp] theorem Chip.setEmul_loading (x : Emul) : (c.setEmul x).loading = c.loading := (rfl)
@[simp] theorem Chip.setEmul_nvOps (x : Emul) : (c.setEmul x).nvOps = c.nvOps := (rfl)
@[simp] theorem Chip.setEmul_calib (x : Emul) : (c.setEmul x).calib = c.calib := (rfl)

/-! `setPair`. -/

@[simp] theorem Chip.setPair_st (x : Pair) : (c.setPair x).st = c.st := (rfl)
@[simp] theorem Chip.setPair_fromRunning (x : Pair) : (c.setPair x).fromRunning = c.fromRunning := (rfl)
@[simp] theorem Chip.setPair_regs (x : Pair) : (c.setPair x).regs = c.regs := (rfl)
@[simp] theorem Chip.setPair_pend (x : Pair) : (c.setPair x).pend = c.pend := (rfl)
@[simp] theorem Chip.setPair_counters (x : Pair) : (c.setPair x).counters = c.counters := (rfl)
@[simp] theorem Chip.setPair_snaps (x : Pair) : (c.setPair x).snaps = c.snaps := (rfl)
@[simp] theorem Chip.setPair_answer (x : Pair) : (c.setPair x).answer = c.answer := (rfl)
@[simp] theorem Chip.setPair_freeCtr (x : Pair) : (c.setPair x).freeCtr = c.freeCtr := (rfl)
@[simp] theorem Chip.setPair_aon (x : Pair) : (c.setPair x).aon = c.aon := (rfl)
@[simp] theorem Chip.setPair_power (x : Pair) : (c.setPair x).power = c.power := (rfl)
@[simp] theorem Chip.setPair_clk (x : Pair) : (c.setPair x).clk = c.clk := (rfl)
@[simp] theorem Chip.setPair_time (x : Pair) : (c.setPair x).time = c.time := (rfl)
@[simp] theorem Chip.setPair_ports (x : Pair) : (c.setPair x).ports = c.ports := (rfl)
@[simp] theorem Chip.setPair_evq (x : Pair) : (c.setPair x).evq = c.evq := (rfl)
@[simp] theorem Chip.setPair_nextEvent (x : Pair) : (c.setPair x).nextEvent = c.nextEvent := (rfl)
@[simp] theorem Chip.setPair_noticeSeq (x : Pair) : (c.setPair x).noticeSeq = c.noticeSeq := (rfl)
@[simp] theorem Chip.setPair_errs (x : Pair) : (c.setPair x).errs = c.errs := (rfl)
@[simp] theorem Chip.setPair_sel (x : Pair) : (c.setPair x).sel = c.sel := (rfl)
@[simp] theorem Chip.setPair_ctxs (x : Pair) : (c.setPair x).ctxs = c.ctxs := (rfl)
@[simp] theorem Chip.setPair_was (x : Pair) : (c.setPair x).was = c.was := (rfl)
@[simp] theorem Chip.setPair_feeds (x : Pair) : (c.setPair x).feeds = c.feeds := (rfl)
@[simp] theorem Chip.setPair_sramOps (x : Pair) : (c.setPair x).sramOps = c.sramOps := (rfl)
@[simp] theorem Chip.setPair_layout (x : Pair) : (c.setPair x).layout = c.layout := (rfl)
@[simp] theorem Chip.setPair_layoutOld (x : Pair) : (c.setPair x).layoutOld = c.layoutOld := (rfl)
@[simp] theorem Chip.setPair_sched (x : Pair) : (c.setPair x).sched = c.sched := (rfl)
@[simp] theorem Chip.setPair_colour (x : Pair) : (c.setPair x).colour = c.colour := (rfl)
@[simp] theorem Chip.setPair_scan (x : Pair) : (c.setPair x).scan = c.scan := (rfl)
@[simp] theorem Chip.setPair_chains (x : Pair) : (c.setPair x).chains = c.chains := (rfl)
@[simp] theorem Chip.setPair_dmx (x : Pair) : (c.setPair x).dmx = c.dmx := (rfl)
@[simp] theorem Chip.setPair_resend (x : Pair) : (c.setPair x).resend = c.resend := (rfl)
@[simp] theorem Chip.setPair_resendMs (x : Pair) : (c.setPair x).resendMs = c.resendMs := (rfl)
@[simp] theorem Chip.setPair_gang (x : Pair) : (c.setPair x).gang = c.gang := (rfl)
@[simp] theorem Chip.setPair_emul (x : Pair) : (c.setPair x).emul = c.emul := (rfl)
@[simp] theorem Chip.setPair_pair (x : Pair) : (c.setPair x).pair = x := (rfl)
@[simp] theorem Chip.setPair_loading (x : Pair) : (c.setPair x).loading = c.loading := (rfl)
@[simp] theorem Chip.setPair_nvOps (x : Pair) : (c.setPair x).nvOps = c.nvOps := (rfl)
@[simp] theorem Chip.setPair_calib (x : Pair) : (c.setPair x).calib = c.calib := (rfl)

/-! `setLoading`. -/

@[simp] theorem Chip.setLoading_st (x : Load) : (c.setLoading x).st = c.st := (rfl)
@[simp] theorem Chip.setLoading_fromRunning (x : Load) : (c.setLoading x).fromRunning = c.fromRunning := (rfl)
@[simp] theorem Chip.setLoading_regs (x : Load) : (c.setLoading x).regs = c.regs := (rfl)
@[simp] theorem Chip.setLoading_pend (x : Load) : (c.setLoading x).pend = c.pend := (rfl)
@[simp] theorem Chip.setLoading_counters (x : Load) : (c.setLoading x).counters = c.counters := (rfl)
@[simp] theorem Chip.setLoading_snaps (x : Load) : (c.setLoading x).snaps = c.snaps := (rfl)
@[simp] theorem Chip.setLoading_answer (x : Load) : (c.setLoading x).answer = c.answer := (rfl)
@[simp] theorem Chip.setLoading_freeCtr (x : Load) : (c.setLoading x).freeCtr = c.freeCtr := (rfl)
@[simp] theorem Chip.setLoading_aon (x : Load) : (c.setLoading x).aon = c.aon := (rfl)
@[simp] theorem Chip.setLoading_power (x : Load) : (c.setLoading x).power = c.power := (rfl)
@[simp] theorem Chip.setLoading_clk (x : Load) : (c.setLoading x).clk = c.clk := (rfl)
@[simp] theorem Chip.setLoading_time (x : Load) : (c.setLoading x).time = c.time := (rfl)
@[simp] theorem Chip.setLoading_ports (x : Load) : (c.setLoading x).ports = c.ports := (rfl)
@[simp] theorem Chip.setLoading_evq (x : Load) : (c.setLoading x).evq = c.evq := (rfl)
@[simp] theorem Chip.setLoading_nextEvent (x : Load) : (c.setLoading x).nextEvent = c.nextEvent := (rfl)
@[simp] theorem Chip.setLoading_noticeSeq (x : Load) : (c.setLoading x).noticeSeq = c.noticeSeq := (rfl)
@[simp] theorem Chip.setLoading_errs (x : Load) : (c.setLoading x).errs = c.errs := (rfl)
@[simp] theorem Chip.setLoading_sel (x : Load) : (c.setLoading x).sel = c.sel := (rfl)
@[simp] theorem Chip.setLoading_ctxs (x : Load) : (c.setLoading x).ctxs = c.ctxs := (rfl)
@[simp] theorem Chip.setLoading_was (x : Load) : (c.setLoading x).was = c.was := (rfl)
@[simp] theorem Chip.setLoading_feeds (x : Load) : (c.setLoading x).feeds = c.feeds := (rfl)
@[simp] theorem Chip.setLoading_sramOps (x : Load) : (c.setLoading x).sramOps = c.sramOps := (rfl)
@[simp] theorem Chip.setLoading_layout (x : Load) : (c.setLoading x).layout = c.layout := (rfl)
@[simp] theorem Chip.setLoading_layoutOld (x : Load) : (c.setLoading x).layoutOld = c.layoutOld := (rfl)
@[simp] theorem Chip.setLoading_sched (x : Load) : (c.setLoading x).sched = c.sched := (rfl)
@[simp] theorem Chip.setLoading_colour (x : Load) : (c.setLoading x).colour = c.colour := (rfl)
@[simp] theorem Chip.setLoading_scan (x : Load) : (c.setLoading x).scan = c.scan := (rfl)
@[simp] theorem Chip.setLoading_chains (x : Load) : (c.setLoading x).chains = c.chains := (rfl)
@[simp] theorem Chip.setLoading_dmx (x : Load) : (c.setLoading x).dmx = c.dmx := (rfl)
@[simp] theorem Chip.setLoading_resend (x : Load) : (c.setLoading x).resend = c.resend := (rfl)
@[simp] theorem Chip.setLoading_resendMs (x : Load) : (c.setLoading x).resendMs = c.resendMs := (rfl)
@[simp] theorem Chip.setLoading_gang (x : Load) : (c.setLoading x).gang = c.gang := (rfl)
@[simp] theorem Chip.setLoading_emul (x : Load) : (c.setLoading x).emul = c.emul := (rfl)
@[simp] theorem Chip.setLoading_pair (x : Load) : (c.setLoading x).pair = c.pair := (rfl)
@[simp] theorem Chip.setLoading_loading (x : Load) : (c.setLoading x).loading = x := (rfl)
@[simp] theorem Chip.setLoading_nvOps (x : Load) : (c.setLoading x).nvOps = c.nvOps := (rfl)
@[simp] theorem Chip.setLoading_calib (x : Load) : (c.setLoading x).calib = c.calib := (rfl)

/-! `setNvOps`. -/

@[simp] theorem Chip.setNvOps_st (x : List NvOp) : (c.setNvOps x).st = c.st := (rfl)
@[simp] theorem Chip.setNvOps_fromRunning (x : List NvOp) : (c.setNvOps x).fromRunning = c.fromRunning := (rfl)
@[simp] theorem Chip.setNvOps_regs (x : List NvOp) : (c.setNvOps x).regs = c.regs := (rfl)
@[simp] theorem Chip.setNvOps_pend (x : List NvOp) : (c.setNvOps x).pend = c.pend := (rfl)
@[simp] theorem Chip.setNvOps_counters (x : List NvOp) : (c.setNvOps x).counters = c.counters := (rfl)
@[simp] theorem Chip.setNvOps_snaps (x : List NvOp) : (c.setNvOps x).snaps = c.snaps := (rfl)
@[simp] theorem Chip.setNvOps_answer (x : List NvOp) : (c.setNvOps x).answer = c.answer := (rfl)
@[simp] theorem Chip.setNvOps_freeCtr (x : List NvOp) : (c.setNvOps x).freeCtr = c.freeCtr := (rfl)
@[simp] theorem Chip.setNvOps_aon (x : List NvOp) : (c.setNvOps x).aon = c.aon := (rfl)
@[simp] theorem Chip.setNvOps_power (x : List NvOp) : (c.setNvOps x).power = c.power := (rfl)
@[simp] theorem Chip.setNvOps_clk (x : List NvOp) : (c.setNvOps x).clk = c.clk := (rfl)
@[simp] theorem Chip.setNvOps_time (x : List NvOp) : (c.setNvOps x).time = c.time := (rfl)
@[simp] theorem Chip.setNvOps_ports (x : List NvOp) : (c.setNvOps x).ports = c.ports := (rfl)
@[simp] theorem Chip.setNvOps_evq (x : List NvOp) : (c.setNvOps x).evq = c.evq := (rfl)
@[simp] theorem Chip.setNvOps_nextEvent (x : List NvOp) : (c.setNvOps x).nextEvent = c.nextEvent := (rfl)
@[simp] theorem Chip.setNvOps_noticeSeq (x : List NvOp) : (c.setNvOps x).noticeSeq = c.noticeSeq := (rfl)
@[simp] theorem Chip.setNvOps_errs (x : List NvOp) : (c.setNvOps x).errs = c.errs := (rfl)
@[simp] theorem Chip.setNvOps_sel (x : List NvOp) : (c.setNvOps x).sel = c.sel := (rfl)
@[simp] theorem Chip.setNvOps_ctxs (x : List NvOp) : (c.setNvOps x).ctxs = c.ctxs := (rfl)
@[simp] theorem Chip.setNvOps_was (x : List NvOp) : (c.setNvOps x).was = c.was := (rfl)
@[simp] theorem Chip.setNvOps_feeds (x : List NvOp) : (c.setNvOps x).feeds = c.feeds := (rfl)
@[simp] theorem Chip.setNvOps_sramOps (x : List NvOp) : (c.setNvOps x).sramOps = c.sramOps := (rfl)
@[simp] theorem Chip.setNvOps_layout (x : List NvOp) : (c.setNvOps x).layout = c.layout := (rfl)
@[simp] theorem Chip.setNvOps_layoutOld (x : List NvOp) : (c.setNvOps x).layoutOld = c.layoutOld := (rfl)
@[simp] theorem Chip.setNvOps_sched (x : List NvOp) : (c.setNvOps x).sched = c.sched := (rfl)
@[simp] theorem Chip.setNvOps_colour (x : List NvOp) : (c.setNvOps x).colour = c.colour := (rfl)
@[simp] theorem Chip.setNvOps_scan (x : List NvOp) : (c.setNvOps x).scan = c.scan := (rfl)
@[simp] theorem Chip.setNvOps_chains (x : List NvOp) : (c.setNvOps x).chains = c.chains := (rfl)
@[simp] theorem Chip.setNvOps_dmx (x : List NvOp) : (c.setNvOps x).dmx = c.dmx := (rfl)
@[simp] theorem Chip.setNvOps_resend (x : List NvOp) : (c.setNvOps x).resend = c.resend := (rfl)
@[simp] theorem Chip.setNvOps_resendMs (x : List NvOp) : (c.setNvOps x).resendMs = c.resendMs := (rfl)
@[simp] theorem Chip.setNvOps_gang (x : List NvOp) : (c.setNvOps x).gang = c.gang := (rfl)
@[simp] theorem Chip.setNvOps_emul (x : List NvOp) : (c.setNvOps x).emul = c.emul := (rfl)
@[simp] theorem Chip.setNvOps_pair (x : List NvOp) : (c.setNvOps x).pair = c.pair := (rfl)
@[simp] theorem Chip.setNvOps_loading (x : List NvOp) : (c.setNvOps x).loading = c.loading := (rfl)
@[simp] theorem Chip.setNvOps_nvOps (x : List NvOp) : (c.setNvOps x).nvOps = x := (rfl)
@[simp] theorem Chip.setNvOps_calib (x : List NvOp) : (c.setNvOps x).calib = c.calib := (rfl)

/-! `setCalib`. -/

@[simp] theorem Chip.setCalib_st (x : Calib) : (c.setCalib x).st = c.st := (rfl)
@[simp] theorem Chip.setCalib_fromRunning (x : Calib) : (c.setCalib x).fromRunning = c.fromRunning := (rfl)
@[simp] theorem Chip.setCalib_regs (x : Calib) : (c.setCalib x).regs = c.regs := (rfl)
@[simp] theorem Chip.setCalib_pend (x : Calib) : (c.setCalib x).pend = c.pend := (rfl)
@[simp] theorem Chip.setCalib_counters (x : Calib) : (c.setCalib x).counters = c.counters := (rfl)
@[simp] theorem Chip.setCalib_snaps (x : Calib) : (c.setCalib x).snaps = c.snaps := (rfl)
@[simp] theorem Chip.setCalib_answer (x : Calib) : (c.setCalib x).answer = c.answer := (rfl)
@[simp] theorem Chip.setCalib_freeCtr (x : Calib) : (c.setCalib x).freeCtr = c.freeCtr := (rfl)
@[simp] theorem Chip.setCalib_aon (x : Calib) : (c.setCalib x).aon = c.aon := (rfl)
@[simp] theorem Chip.setCalib_power (x : Calib) : (c.setCalib x).power = c.power := (rfl)
@[simp] theorem Chip.setCalib_clk (x : Calib) : (c.setCalib x).clk = c.clk := (rfl)
@[simp] theorem Chip.setCalib_time (x : Calib) : (c.setCalib x).time = c.time := (rfl)
@[simp] theorem Chip.setCalib_ports (x : Calib) : (c.setCalib x).ports = c.ports := (rfl)
@[simp] theorem Chip.setCalib_evq (x : Calib) : (c.setCalib x).evq = c.evq := (rfl)
@[simp] theorem Chip.setCalib_nextEvent (x : Calib) : (c.setCalib x).nextEvent = c.nextEvent := (rfl)
@[simp] theorem Chip.setCalib_noticeSeq (x : Calib) : (c.setCalib x).noticeSeq = c.noticeSeq := (rfl)
@[simp] theorem Chip.setCalib_errs (x : Calib) : (c.setCalib x).errs = c.errs := (rfl)
@[simp] theorem Chip.setCalib_sel (x : Calib) : (c.setCalib x).sel = c.sel := (rfl)
@[simp] theorem Chip.setCalib_ctxs (x : Calib) : (c.setCalib x).ctxs = c.ctxs := (rfl)
@[simp] theorem Chip.setCalib_was (x : Calib) : (c.setCalib x).was = c.was := (rfl)
@[simp] theorem Chip.setCalib_feeds (x : Calib) : (c.setCalib x).feeds = c.feeds := (rfl)
@[simp] theorem Chip.setCalib_sramOps (x : Calib) : (c.setCalib x).sramOps = c.sramOps := (rfl)
@[simp] theorem Chip.setCalib_layout (x : Calib) : (c.setCalib x).layout = c.layout := (rfl)
@[simp] theorem Chip.setCalib_layoutOld (x : Calib) : (c.setCalib x).layoutOld = c.layoutOld := (rfl)
@[simp] theorem Chip.setCalib_sched (x : Calib) : (c.setCalib x).sched = c.sched := (rfl)
@[simp] theorem Chip.setCalib_colour (x : Calib) : (c.setCalib x).colour = c.colour := (rfl)
@[simp] theorem Chip.setCalib_scan (x : Calib) : (c.setCalib x).scan = c.scan := (rfl)
@[simp] theorem Chip.setCalib_chains (x : Calib) : (c.setCalib x).chains = c.chains := (rfl)
@[simp] theorem Chip.setCalib_dmx (x : Calib) : (c.setCalib x).dmx = c.dmx := (rfl)
@[simp] theorem Chip.setCalib_resend (x : Calib) : (c.setCalib x).resend = c.resend := (rfl)
@[simp] theorem Chip.setCalib_resendMs (x : Calib) : (c.setCalib x).resendMs = c.resendMs := (rfl)
@[simp] theorem Chip.setCalib_gang (x : Calib) : (c.setCalib x).gang = c.gang := (rfl)
@[simp] theorem Chip.setCalib_emul (x : Calib) : (c.setCalib x).emul = c.emul := (rfl)
@[simp] theorem Chip.setCalib_pair (x : Calib) : (c.setCalib x).pair = c.pair := (rfl)
@[simp] theorem Chip.setCalib_loading (x : Calib) : (c.setCalib x).loading = c.loading := (rfl)
@[simp] theorem Chip.setCalib_nvOps (x : Calib) : (c.setCalib x).nvOps = c.nvOps := (rfl)
@[simp] theorem Chip.setCalib_calib (x : Calib) : (c.setCalib x).calib = x := (rfl)

/-! `setReg`. -/

@[simp] theorem Chip.setReg_st (a : Nat) (w : Word) : (c.setReg a w).st = c.st := (rfl)
@[simp] theorem Chip.setReg_fromRunning (a : Nat) (w : Word) : (c.setReg a w).fromRunning = c.fromRunning := (rfl)
@[simp] theorem Chip.setReg_pend (a : Nat) (w : Word) : (c.setReg a w).pend = c.pend := (rfl)
@[simp] theorem Chip.setReg_counters (a : Nat) (w : Word) : (c.setReg a w).counters = c.counters := (rfl)
@[simp] theorem Chip.setReg_snaps (a : Nat) (w : Word) : (c.setReg a w).snaps = c.snaps := (rfl)
@[simp] theorem Chip.setReg_answer (a : Nat) (w : Word) : (c.setReg a w).answer = c.answer := (rfl)
@[simp] theorem Chip.setReg_freeCtr (a : Nat) (w : Word) : (c.setReg a w).freeCtr = c.freeCtr := (rfl)
@[simp] theorem Chip.setReg_aon (a : Nat) (w : Word) : (c.setReg a w).aon = c.aon := (rfl)
@[simp] theorem Chip.setReg_power (a : Nat) (w : Word) : (c.setReg a w).power = c.power := (rfl)
@[simp] theorem Chip.setReg_clk (a : Nat) (w : Word) : (c.setReg a w).clk = c.clk := (rfl)
@[simp] theorem Chip.setReg_time (a : Nat) (w : Word) : (c.setReg a w).time = c.time := (rfl)
@[simp] theorem Chip.setReg_ports (a : Nat) (w : Word) : (c.setReg a w).ports = c.ports := (rfl)
@[simp] theorem Chip.setReg_evq (a : Nat) (w : Word) : (c.setReg a w).evq = c.evq := (rfl)
@[simp] theorem Chip.setReg_nextEvent (a : Nat) (w : Word) : (c.setReg a w).nextEvent = c.nextEvent := (rfl)
@[simp] theorem Chip.setReg_noticeSeq (a : Nat) (w : Word) : (c.setReg a w).noticeSeq = c.noticeSeq := (rfl)
@[simp] theorem Chip.setReg_errs (a : Nat) (w : Word) : (c.setReg a w).errs = c.errs := (rfl)
@[simp] theorem Chip.setReg_sel (a : Nat) (w : Word) : (c.setReg a w).sel = c.sel := (rfl)
@[simp] theorem Chip.setReg_ctxs (a : Nat) (w : Word) : (c.setReg a w).ctxs = c.ctxs := (rfl)
@[simp] theorem Chip.setReg_was (a : Nat) (w : Word) : (c.setReg a w).was = c.was := (rfl)
@[simp] theorem Chip.setReg_feeds (a : Nat) (w : Word) : (c.setReg a w).feeds = c.feeds := (rfl)
@[simp] theorem Chip.setReg_sramOps (a : Nat) (w : Word) : (c.setReg a w).sramOps = c.sramOps := (rfl)
@[simp] theorem Chip.setReg_layout (a : Nat) (w : Word) : (c.setReg a w).layout = c.layout := (rfl)
@[simp] theorem Chip.setReg_layoutOld (a : Nat) (w : Word) : (c.setReg a w).layoutOld = c.layoutOld := (rfl)
@[simp] theorem Chip.setReg_sched (a : Nat) (w : Word) : (c.setReg a w).sched = c.sched := (rfl)
@[simp] theorem Chip.setReg_colour (a : Nat) (w : Word) : (c.setReg a w).colour = c.colour := (rfl)
@[simp] theorem Chip.setReg_scan (a : Nat) (w : Word) : (c.setReg a w).scan = c.scan := (rfl)
@[simp] theorem Chip.setReg_chains (a : Nat) (w : Word) : (c.setReg a w).chains = c.chains := (rfl)
@[simp] theorem Chip.setReg_dmx (a : Nat) (w : Word) : (c.setReg a w).dmx = c.dmx := (rfl)
@[simp] theorem Chip.setReg_resend (a : Nat) (w : Word) : (c.setReg a w).resend = c.resend := (rfl)
@[simp] theorem Chip.setReg_resendMs (a : Nat) (w : Word) : (c.setReg a w).resendMs = c.resendMs := (rfl)
@[simp] theorem Chip.setReg_gang (a : Nat) (w : Word) : (c.setReg a w).gang = c.gang := (rfl)
@[simp] theorem Chip.setReg_emul (a : Nat) (w : Word) : (c.setReg a w).emul = c.emul := (rfl)
@[simp] theorem Chip.setReg_pair (a : Nat) (w : Word) : (c.setReg a w).pair = c.pair := (rfl)
@[simp] theorem Chip.setReg_loading (a : Nat) (w : Word) : (c.setReg a w).loading = c.loading := (rfl)
@[simp] theorem Chip.setReg_nvOps (a : Nat) (w : Word) : (c.setReg a w).nvOps = c.nvOps := (rfl)
@[simp] theorem Chip.setReg_calib (a : Nat) (w : Word) : (c.setReg a w).calib = c.calib := (rfl)

/-! `put`. -/

@[simp] theorem Chip.put_st (f : Fld) (v : Nat) : (c.put f v).st = c.st := (rfl)
@[simp] theorem Chip.put_fromRunning (f : Fld) (v : Nat) : (c.put f v).fromRunning = c.fromRunning := (rfl)
@[simp] theorem Chip.put_pend (f : Fld) (v : Nat) : (c.put f v).pend = c.pend := (rfl)
@[simp] theorem Chip.put_counters (f : Fld) (v : Nat) : (c.put f v).counters = c.counters := (rfl)
@[simp] theorem Chip.put_snaps (f : Fld) (v : Nat) : (c.put f v).snaps = c.snaps := (rfl)
@[simp] theorem Chip.put_answer (f : Fld) (v : Nat) : (c.put f v).answer = c.answer := (rfl)
@[simp] theorem Chip.put_freeCtr (f : Fld) (v : Nat) : (c.put f v).freeCtr = c.freeCtr := (rfl)
@[simp] theorem Chip.put_aon (f : Fld) (v : Nat) : (c.put f v).aon = c.aon := (rfl)
@[simp] theorem Chip.put_power (f : Fld) (v : Nat) : (c.put f v).power = c.power := (rfl)
@[simp] theorem Chip.put_clk (f : Fld) (v : Nat) : (c.put f v).clk = c.clk := (rfl)
@[simp] theorem Chip.put_time (f : Fld) (v : Nat) : (c.put f v).time = c.time := (rfl)
@[simp] theorem Chip.put_ports (f : Fld) (v : Nat) : (c.put f v).ports = c.ports := (rfl)
@[simp] theorem Chip.put_evq (f : Fld) (v : Nat) : (c.put f v).evq = c.evq := (rfl)
@[simp] theorem Chip.put_nextEvent (f : Fld) (v : Nat) : (c.put f v).nextEvent = c.nextEvent := (rfl)
@[simp] theorem Chip.put_noticeSeq (f : Fld) (v : Nat) : (c.put f v).noticeSeq = c.noticeSeq := (rfl)
@[simp] theorem Chip.put_errs (f : Fld) (v : Nat) : (c.put f v).errs = c.errs := (rfl)
@[simp] theorem Chip.put_sel (f : Fld) (v : Nat) : (c.put f v).sel = c.sel := (rfl)
@[simp] theorem Chip.put_ctxs (f : Fld) (v : Nat) : (c.put f v).ctxs = c.ctxs := (rfl)
@[simp] theorem Chip.put_was (f : Fld) (v : Nat) : (c.put f v).was = c.was := (rfl)
@[simp] theorem Chip.put_feeds (f : Fld) (v : Nat) : (c.put f v).feeds = c.feeds := (rfl)
@[simp] theorem Chip.put_sramOps (f : Fld) (v : Nat) : (c.put f v).sramOps = c.sramOps := (rfl)
@[simp] theorem Chip.put_layout (f : Fld) (v : Nat) : (c.put f v).layout = c.layout := (rfl)
@[simp] theorem Chip.put_layoutOld (f : Fld) (v : Nat) : (c.put f v).layoutOld = c.layoutOld := (rfl)
@[simp] theorem Chip.put_sched (f : Fld) (v : Nat) : (c.put f v).sched = c.sched := (rfl)
@[simp] theorem Chip.put_colour (f : Fld) (v : Nat) : (c.put f v).colour = c.colour := (rfl)
@[simp] theorem Chip.put_scan (f : Fld) (v : Nat) : (c.put f v).scan = c.scan := (rfl)
@[simp] theorem Chip.put_chains (f : Fld) (v : Nat) : (c.put f v).chains = c.chains := (rfl)
@[simp] theorem Chip.put_dmx (f : Fld) (v : Nat) : (c.put f v).dmx = c.dmx := (rfl)
@[simp] theorem Chip.put_resend (f : Fld) (v : Nat) : (c.put f v).resend = c.resend := (rfl)
@[simp] theorem Chip.put_resendMs (f : Fld) (v : Nat) : (c.put f v).resendMs = c.resendMs := (rfl)
@[simp] theorem Chip.put_gang (f : Fld) (v : Nat) : (c.put f v).gang = c.gang := (rfl)
@[simp] theorem Chip.put_emul (f : Fld) (v : Nat) : (c.put f v).emul = c.emul := (rfl)
@[simp] theorem Chip.put_pair (f : Fld) (v : Nat) : (c.put f v).pair = c.pair := (rfl)
@[simp] theorem Chip.put_loading (f : Fld) (v : Nat) : (c.put f v).loading = c.loading := (rfl)
@[simp] theorem Chip.put_nvOps (f : Fld) (v : Nat) : (c.put f v).nvOps = c.nvOps := (rfl)
@[simp] theorem Chip.put_calib (f : Fld) (v : Nat) : (c.put f v).calib = c.calib := (rfl)

/-! `putB`. -/

@[simp] theorem Chip.putB_st (f : Fld) (b : Bool) : (c.putB f b).st = c.st := (rfl)
@[simp] theorem Chip.putB_fromRunning (f : Fld) (b : Bool) : (c.putB f b).fromRunning = c.fromRunning := (rfl)
@[simp] theorem Chip.putB_pend (f : Fld) (b : Bool) : (c.putB f b).pend = c.pend := (rfl)
@[simp] theorem Chip.putB_counters (f : Fld) (b : Bool) : (c.putB f b).counters = c.counters := (rfl)
@[simp] theorem Chip.putB_snaps (f : Fld) (b : Bool) : (c.putB f b).snaps = c.snaps := (rfl)
@[simp] theorem Chip.putB_answer (f : Fld) (b : Bool) : (c.putB f b).answer = c.answer := (rfl)
@[simp] theorem Chip.putB_freeCtr (f : Fld) (b : Bool) : (c.putB f b).freeCtr = c.freeCtr := (rfl)
@[simp] theorem Chip.putB_aon (f : Fld) (b : Bool) : (c.putB f b).aon = c.aon := (rfl)
@[simp] theorem Chip.putB_power (f : Fld) (b : Bool) : (c.putB f b).power = c.power := (rfl)
@[simp] theorem Chip.putB_clk (f : Fld) (b : Bool) : (c.putB f b).clk = c.clk := (rfl)
@[simp] theorem Chip.putB_time (f : Fld) (b : Bool) : (c.putB f b).time = c.time := (rfl)
@[simp] theorem Chip.putB_ports (f : Fld) (b : Bool) : (c.putB f b).ports = c.ports := (rfl)
@[simp] theorem Chip.putB_evq (f : Fld) (b : Bool) : (c.putB f b).evq = c.evq := (rfl)
@[simp] theorem Chip.putB_nextEvent (f : Fld) (b : Bool) : (c.putB f b).nextEvent = c.nextEvent := (rfl)
@[simp] theorem Chip.putB_noticeSeq (f : Fld) (b : Bool) : (c.putB f b).noticeSeq = c.noticeSeq := (rfl)
@[simp] theorem Chip.putB_errs (f : Fld) (b : Bool) : (c.putB f b).errs = c.errs := (rfl)
@[simp] theorem Chip.putB_sel (f : Fld) (b : Bool) : (c.putB f b).sel = c.sel := (rfl)
@[simp] theorem Chip.putB_ctxs (f : Fld) (b : Bool) : (c.putB f b).ctxs = c.ctxs := (rfl)
@[simp] theorem Chip.putB_was (f : Fld) (b : Bool) : (c.putB f b).was = c.was := (rfl)
@[simp] theorem Chip.putB_feeds (f : Fld) (b : Bool) : (c.putB f b).feeds = c.feeds := (rfl)
@[simp] theorem Chip.putB_sramOps (f : Fld) (b : Bool) : (c.putB f b).sramOps = c.sramOps := (rfl)
@[simp] theorem Chip.putB_layout (f : Fld) (b : Bool) : (c.putB f b).layout = c.layout := (rfl)
@[simp] theorem Chip.putB_layoutOld (f : Fld) (b : Bool) : (c.putB f b).layoutOld = c.layoutOld := (rfl)
@[simp] theorem Chip.putB_sched (f : Fld) (b : Bool) : (c.putB f b).sched = c.sched := (rfl)
@[simp] theorem Chip.putB_colour (f : Fld) (b : Bool) : (c.putB f b).colour = c.colour := (rfl)
@[simp] theorem Chip.putB_scan (f : Fld) (b : Bool) : (c.putB f b).scan = c.scan := (rfl)
@[simp] theorem Chip.putB_chains (f : Fld) (b : Bool) : (c.putB f b).chains = c.chains := (rfl)
@[simp] theorem Chip.putB_dmx (f : Fld) (b : Bool) : (c.putB f b).dmx = c.dmx := (rfl)
@[simp] theorem Chip.putB_resend (f : Fld) (b : Bool) : (c.putB f b).resend = c.resend := (rfl)
@[simp] theorem Chip.putB_resendMs (f : Fld) (b : Bool) : (c.putB f b).resendMs = c.resendMs := (rfl)
@[simp] theorem Chip.putB_gang (f : Fld) (b : Bool) : (c.putB f b).gang = c.gang := (rfl)
@[simp] theorem Chip.putB_emul (f : Fld) (b : Bool) : (c.putB f b).emul = c.emul := (rfl)
@[simp] theorem Chip.putB_pair (f : Fld) (b : Bool) : (c.putB f b).pair = c.pair := (rfl)
@[simp] theorem Chip.putB_loading (f : Fld) (b : Bool) : (c.putB f b).loading = c.loading := (rfl)
@[simp] theorem Chip.putB_nvOps (f : Fld) (b : Bool) : (c.putB f b).nvOps = c.nvOps := (rfl)
@[simp] theorem Chip.putB_calib (f : Fld) (b : Bool) : (c.putB f b).calib = c.calib := (rfl)

/-! `putS`. -/

@[simp] theorem Chip.putS_st (f : Fld) (v : Int) : (c.putS f v).st = c.st := (rfl)
@[simp] theorem Chip.putS_fromRunning (f : Fld) (v : Int) : (c.putS f v).fromRunning = c.fromRunning := (rfl)
@[simp] theorem Chip.putS_pend (f : Fld) (v : Int) : (c.putS f v).pend = c.pend := (rfl)
@[simp] theorem Chip.putS_counters (f : Fld) (v : Int) : (c.putS f v).counters = c.counters := (rfl)
@[simp] theorem Chip.putS_snaps (f : Fld) (v : Int) : (c.putS f v).snaps = c.snaps := (rfl)
@[simp] theorem Chip.putS_answer (f : Fld) (v : Int) : (c.putS f v).answer = c.answer := (rfl)
@[simp] theorem Chip.putS_freeCtr (f : Fld) (v : Int) : (c.putS f v).freeCtr = c.freeCtr := (rfl)
@[simp] theorem Chip.putS_aon (f : Fld) (v : Int) : (c.putS f v).aon = c.aon := (rfl)
@[simp] theorem Chip.putS_power (f : Fld) (v : Int) : (c.putS f v).power = c.power := (rfl)
@[simp] theorem Chip.putS_clk (f : Fld) (v : Int) : (c.putS f v).clk = c.clk := (rfl)
@[simp] theorem Chip.putS_time (f : Fld) (v : Int) : (c.putS f v).time = c.time := (rfl)
@[simp] theorem Chip.putS_ports (f : Fld) (v : Int) : (c.putS f v).ports = c.ports := (rfl)
@[simp] theorem Chip.putS_evq (f : Fld) (v : Int) : (c.putS f v).evq = c.evq := (rfl)
@[simp] theorem Chip.putS_nextEvent (f : Fld) (v : Int) : (c.putS f v).nextEvent = c.nextEvent := (rfl)
@[simp] theorem Chip.putS_noticeSeq (f : Fld) (v : Int) : (c.putS f v).noticeSeq = c.noticeSeq := (rfl)
@[simp] theorem Chip.putS_errs (f : Fld) (v : Int) : (c.putS f v).errs = c.errs := (rfl)
@[simp] theorem Chip.putS_sel (f : Fld) (v : Int) : (c.putS f v).sel = c.sel := (rfl)
@[simp] theorem Chip.putS_ctxs (f : Fld) (v : Int) : (c.putS f v).ctxs = c.ctxs := (rfl)
@[simp] theorem Chip.putS_was (f : Fld) (v : Int) : (c.putS f v).was = c.was := (rfl)
@[simp] theorem Chip.putS_feeds (f : Fld) (v : Int) : (c.putS f v).feeds = c.feeds := (rfl)
@[simp] theorem Chip.putS_sramOps (f : Fld) (v : Int) : (c.putS f v).sramOps = c.sramOps := (rfl)
@[simp] theorem Chip.putS_layout (f : Fld) (v : Int) : (c.putS f v).layout = c.layout := (rfl)
@[simp] theorem Chip.putS_layoutOld (f : Fld) (v : Int) : (c.putS f v).layoutOld = c.layoutOld := (rfl)
@[simp] theorem Chip.putS_sched (f : Fld) (v : Int) : (c.putS f v).sched = c.sched := (rfl)
@[simp] theorem Chip.putS_colour (f : Fld) (v : Int) : (c.putS f v).colour = c.colour := (rfl)
@[simp] theorem Chip.putS_scan (f : Fld) (v : Int) : (c.putS f v).scan = c.scan := (rfl)
@[simp] theorem Chip.putS_chains (f : Fld) (v : Int) : (c.putS f v).chains = c.chains := (rfl)
@[simp] theorem Chip.putS_dmx (f : Fld) (v : Int) : (c.putS f v).dmx = c.dmx := (rfl)
@[simp] theorem Chip.putS_resend (f : Fld) (v : Int) : (c.putS f v).resend = c.resend := (rfl)
@[simp] theorem Chip.putS_resendMs (f : Fld) (v : Int) : (c.putS f v).resendMs = c.resendMs := (rfl)
@[simp] theorem Chip.putS_gang (f : Fld) (v : Int) : (c.putS f v).gang = c.gang := (rfl)
@[simp] theorem Chip.putS_emul (f : Fld) (v : Int) : (c.putS f v).emul = c.emul := (rfl)
@[simp] theorem Chip.putS_pair (f : Fld) (v : Int) : (c.putS f v).pair = c.pair := (rfl)
@[simp] theorem Chip.putS_loading (f : Fld) (v : Int) : (c.putS f v).loading = c.loading := (rfl)
@[simp] theorem Chip.putS_nvOps (f : Fld) (v : Int) : (c.putS f v).nvOps = c.nvOps := (rfl)
@[simp] theorem Chip.putS_calib (f : Fld) (v : Int) : (c.putS f v).calib = c.calib := (rfl)

/-! `latch`. -/

@[simp] theorem Chip.latch_st (f : Fld) : (c.latch f).st = c.st := (rfl)
@[simp] theorem Chip.latch_fromRunning (f : Fld) : (c.latch f).fromRunning = c.fromRunning := (rfl)
@[simp] theorem Chip.latch_pend (f : Fld) : (c.latch f).pend = c.pend := (rfl)
@[simp] theorem Chip.latch_counters (f : Fld) : (c.latch f).counters = c.counters := (rfl)
@[simp] theorem Chip.latch_snaps (f : Fld) : (c.latch f).snaps = c.snaps := (rfl)
@[simp] theorem Chip.latch_answer (f : Fld) : (c.latch f).answer = c.answer := (rfl)
@[simp] theorem Chip.latch_freeCtr (f : Fld) : (c.latch f).freeCtr = c.freeCtr := (rfl)
@[simp] theorem Chip.latch_aon (f : Fld) : (c.latch f).aon = c.aon := (rfl)
@[simp] theorem Chip.latch_power (f : Fld) : (c.latch f).power = c.power := (rfl)
@[simp] theorem Chip.latch_clk (f : Fld) : (c.latch f).clk = c.clk := (rfl)
@[simp] theorem Chip.latch_time (f : Fld) : (c.latch f).time = c.time := (rfl)
@[simp] theorem Chip.latch_ports (f : Fld) : (c.latch f).ports = c.ports := (rfl)
@[simp] theorem Chip.latch_evq (f : Fld) : (c.latch f).evq = c.evq := (rfl)
@[simp] theorem Chip.latch_nextEvent (f : Fld) : (c.latch f).nextEvent = c.nextEvent := (rfl)
@[simp] theorem Chip.latch_noticeSeq (f : Fld) : (c.latch f).noticeSeq = c.noticeSeq := (rfl)
@[simp] theorem Chip.latch_errs (f : Fld) : (c.latch f).errs = c.errs := (rfl)
@[simp] theorem Chip.latch_sel (f : Fld) : (c.latch f).sel = c.sel := (rfl)
@[simp] theorem Chip.latch_ctxs (f : Fld) : (c.latch f).ctxs = c.ctxs := (rfl)
@[simp] theorem Chip.latch_was (f : Fld) : (c.latch f).was = c.was := (rfl)
@[simp] theorem Chip.latch_feeds (f : Fld) : (c.latch f).feeds = c.feeds := (rfl)
@[simp] theorem Chip.latch_sramOps (f : Fld) : (c.latch f).sramOps = c.sramOps := (rfl)
@[simp] theorem Chip.latch_layout (f : Fld) : (c.latch f).layout = c.layout := (rfl)
@[simp] theorem Chip.latch_layoutOld (f : Fld) : (c.latch f).layoutOld = c.layoutOld := (rfl)
@[simp] theorem Chip.latch_sched (f : Fld) : (c.latch f).sched = c.sched := (rfl)
@[simp] theorem Chip.latch_colour (f : Fld) : (c.latch f).colour = c.colour := (rfl)
@[simp] theorem Chip.latch_scan (f : Fld) : (c.latch f).scan = c.scan := (rfl)
@[simp] theorem Chip.latch_chains (f : Fld) : (c.latch f).chains = c.chains := (rfl)
@[simp] theorem Chip.latch_dmx (f : Fld) : (c.latch f).dmx = c.dmx := (rfl)
@[simp] theorem Chip.latch_resend (f : Fld) : (c.latch f).resend = c.resend := (rfl)
@[simp] theorem Chip.latch_resendMs (f : Fld) : (c.latch f).resendMs = c.resendMs := (rfl)
@[simp] theorem Chip.latch_gang (f : Fld) : (c.latch f).gang = c.gang := (rfl)
@[simp] theorem Chip.latch_emul (f : Fld) : (c.latch f).emul = c.emul := (rfl)
@[simp] theorem Chip.latch_pair (f : Fld) : (c.latch f).pair = c.pair := (rfl)
@[simp] theorem Chip.latch_loading (f : Fld) : (c.latch f).loading = c.loading := (rfl)
@[simp] theorem Chip.latch_nvOps (f : Fld) : (c.latch f).nvOps = c.nvOps := (rfl)
@[simp] theorem Chip.latch_calib (f : Fld) : (c.latch f).calib = c.calib := (rfl)

/-! `bump`. -/

@[simp] theorem Chip.bump_st (a n : Nat) : (c.bump a n).st = c.st := (rfl)
@[simp] theorem Chip.bump_fromRunning (a n : Nat) : (c.bump a n).fromRunning = c.fromRunning := (rfl)
@[simp] theorem Chip.bump_regs (a n : Nat) : (c.bump a n).regs = c.regs := (rfl)
@[simp] theorem Chip.bump_pend (a n : Nat) : (c.bump a n).pend = c.pend := (rfl)
@[simp] theorem Chip.bump_snaps (a n : Nat) : (c.bump a n).snaps = c.snaps := (rfl)
@[simp] theorem Chip.bump_answer (a n : Nat) : (c.bump a n).answer = c.answer := (rfl)
@[simp] theorem Chip.bump_freeCtr (a n : Nat) : (c.bump a n).freeCtr = c.freeCtr := (rfl)
@[simp] theorem Chip.bump_aon (a n : Nat) : (c.bump a n).aon = c.aon := (rfl)
@[simp] theorem Chip.bump_power (a n : Nat) : (c.bump a n).power = c.power := (rfl)
@[simp] theorem Chip.bump_clk (a n : Nat) : (c.bump a n).clk = c.clk := (rfl)
@[simp] theorem Chip.bump_time (a n : Nat) : (c.bump a n).time = c.time := (rfl)
@[simp] theorem Chip.bump_ports (a n : Nat) : (c.bump a n).ports = c.ports := (rfl)
@[simp] theorem Chip.bump_evq (a n : Nat) : (c.bump a n).evq = c.evq := (rfl)
@[simp] theorem Chip.bump_nextEvent (a n : Nat) : (c.bump a n).nextEvent = c.nextEvent := (rfl)
@[simp] theorem Chip.bump_noticeSeq (a n : Nat) : (c.bump a n).noticeSeq = c.noticeSeq := (rfl)
@[simp] theorem Chip.bump_errs (a n : Nat) : (c.bump a n).errs = c.errs := (rfl)
@[simp] theorem Chip.bump_sel (a n : Nat) : (c.bump a n).sel = c.sel := (rfl)
@[simp] theorem Chip.bump_ctxs (a n : Nat) : (c.bump a n).ctxs = c.ctxs := (rfl)
@[simp] theorem Chip.bump_was (a n : Nat) : (c.bump a n).was = c.was := (rfl)
@[simp] theorem Chip.bump_feeds (a n : Nat) : (c.bump a n).feeds = c.feeds := (rfl)
@[simp] theorem Chip.bump_sramOps (a n : Nat) : (c.bump a n).sramOps = c.sramOps := (rfl)
@[simp] theorem Chip.bump_layout (a n : Nat) : (c.bump a n).layout = c.layout := (rfl)
@[simp] theorem Chip.bump_layoutOld (a n : Nat) : (c.bump a n).layoutOld = c.layoutOld := (rfl)
@[simp] theorem Chip.bump_sched (a n : Nat) : (c.bump a n).sched = c.sched := (rfl)
@[simp] theorem Chip.bump_colour (a n : Nat) : (c.bump a n).colour = c.colour := (rfl)
@[simp] theorem Chip.bump_scan (a n : Nat) : (c.bump a n).scan = c.scan := (rfl)
@[simp] theorem Chip.bump_chains (a n : Nat) : (c.bump a n).chains = c.chains := (rfl)
@[simp] theorem Chip.bump_dmx (a n : Nat) : (c.bump a n).dmx = c.dmx := (rfl)
@[simp] theorem Chip.bump_resend (a n : Nat) : (c.bump a n).resend = c.resend := (rfl)
@[simp] theorem Chip.bump_resendMs (a n : Nat) : (c.bump a n).resendMs = c.resendMs := (rfl)
@[simp] theorem Chip.bump_gang (a n : Nat) : (c.bump a n).gang = c.gang := (rfl)
@[simp] theorem Chip.bump_emul (a n : Nat) : (c.bump a n).emul = c.emul := (rfl)
@[simp] theorem Chip.bump_pair (a n : Nat) : (c.bump a n).pair = c.pair := (rfl)
@[simp] theorem Chip.bump_loading (a n : Nat) : (c.bump a n).loading = c.loading := (rfl)
@[simp] theorem Chip.bump_nvOps (a n : Nat) : (c.bump a n).nvOps = c.nvOps := (rfl)
@[simp] theorem Chip.bump_calib (a n : Nat) : (c.bump a n).calib = c.calib := (rfl)

/-! `ans`. -/

@[simp] theorem Chip.ans_st (st : Status) (ws : List Nat) : (c.ans st ws).st = c.st := (rfl)
@[simp] theorem Chip.ans_fromRunning (st : Status) (ws : List Nat) : (c.ans st ws).fromRunning = c.fromRunning := (rfl)
@[simp] theorem Chip.ans_regs (st : Status) (ws : List Nat) : (c.ans st ws).regs = c.regs := (rfl)
@[simp] theorem Chip.ans_pend (st : Status) (ws : List Nat) : (c.ans st ws).pend = c.pend := (rfl)
@[simp] theorem Chip.ans_counters (st : Status) (ws : List Nat) : (c.ans st ws).counters = c.counters := (rfl)
@[simp] theorem Chip.ans_snaps (st : Status) (ws : List Nat) : (c.ans st ws).snaps = c.snaps := (rfl)
@[simp] theorem Chip.ans_freeCtr (st : Status) (ws : List Nat) : (c.ans st ws).freeCtr = c.freeCtr := (rfl)
@[simp] theorem Chip.ans_aon (st : Status) (ws : List Nat) : (c.ans st ws).aon = c.aon := (rfl)
@[simp] theorem Chip.ans_power (st : Status) (ws : List Nat) : (c.ans st ws).power = c.power := (rfl)
@[simp] theorem Chip.ans_clk (st : Status) (ws : List Nat) : (c.ans st ws).clk = c.clk := (rfl)
@[simp] theorem Chip.ans_time (st : Status) (ws : List Nat) : (c.ans st ws).time = c.time := (rfl)
@[simp] theorem Chip.ans_ports (st : Status) (ws : List Nat) : (c.ans st ws).ports = c.ports := (rfl)
@[simp] theorem Chip.ans_evq (st : Status) (ws : List Nat) : (c.ans st ws).evq = c.evq := (rfl)
@[simp] theorem Chip.ans_nextEvent (st : Status) (ws : List Nat) : (c.ans st ws).nextEvent = c.nextEvent := (rfl)
@[simp] theorem Chip.ans_noticeSeq (st : Status) (ws : List Nat) : (c.ans st ws).noticeSeq = c.noticeSeq := (rfl)
@[simp] theorem Chip.ans_errs (st : Status) (ws : List Nat) : (c.ans st ws).errs = c.errs := (rfl)
@[simp] theorem Chip.ans_sel (st : Status) (ws : List Nat) : (c.ans st ws).sel = c.sel := (rfl)
@[simp] theorem Chip.ans_ctxs (st : Status) (ws : List Nat) : (c.ans st ws).ctxs = c.ctxs := (rfl)
@[simp] theorem Chip.ans_was (st : Status) (ws : List Nat) : (c.ans st ws).was = c.was := (rfl)
@[simp] theorem Chip.ans_feeds (st : Status) (ws : List Nat) : (c.ans st ws).feeds = c.feeds := (rfl)
@[simp] theorem Chip.ans_sramOps (st : Status) (ws : List Nat) : (c.ans st ws).sramOps = c.sramOps := (rfl)
@[simp] theorem Chip.ans_layout (st : Status) (ws : List Nat) : (c.ans st ws).layout = c.layout := (rfl)
@[simp] theorem Chip.ans_layoutOld (st : Status) (ws : List Nat) : (c.ans st ws).layoutOld = c.layoutOld := (rfl)
@[simp] theorem Chip.ans_sched (st : Status) (ws : List Nat) : (c.ans st ws).sched = c.sched := (rfl)
@[simp] theorem Chip.ans_colour (st : Status) (ws : List Nat) : (c.ans st ws).colour = c.colour := (rfl)
@[simp] theorem Chip.ans_scan (st : Status) (ws : List Nat) : (c.ans st ws).scan = c.scan := (rfl)
@[simp] theorem Chip.ans_chains (st : Status) (ws : List Nat) : (c.ans st ws).chains = c.chains := (rfl)
@[simp] theorem Chip.ans_dmx (st : Status) (ws : List Nat) : (c.ans st ws).dmx = c.dmx := (rfl)
@[simp] theorem Chip.ans_resend (st : Status) (ws : List Nat) : (c.ans st ws).resend = c.resend := (rfl)
@[simp] theorem Chip.ans_resendMs (st : Status) (ws : List Nat) : (c.ans st ws).resendMs = c.resendMs := (rfl)
@[simp] theorem Chip.ans_gang (st : Status) (ws : List Nat) : (c.ans st ws).gang = c.gang := (rfl)
@[simp] theorem Chip.ans_emul (st : Status) (ws : List Nat) : (c.ans st ws).emul = c.emul := (rfl)
@[simp] theorem Chip.ans_pair (st : Status) (ws : List Nat) : (c.ans st ws).pair = c.pair := (rfl)
@[simp] theorem Chip.ans_loading (st : Status) (ws : List Nat) : (c.ans st ws).loading = c.loading := (rfl)
@[simp] theorem Chip.ans_nvOps (st : Status) (ws : List Nat) : (c.ans st ws).nvOps = c.nvOps := (rfl)
@[simp] theorem Chip.ans_calib (st : Status) (ws : List Nat) : (c.ans st ws).calib = c.calib := (rfl)

/-! `setPort`. -/

@[simp] theorem Chip.setPort_st (p : PortIx) (q : Port) : (c.setPort p q).st = c.st := (rfl)
@[simp] theorem Chip.setPort_fromRunning (p : PortIx) (q : Port) : (c.setPort p q).fromRunning = c.fromRunning := (rfl)
@[simp] theorem Chip.setPort_regs (p : PortIx) (q : Port) : (c.setPort p q).regs = c.regs := (rfl)
@[simp] theorem Chip.setPort_pend (p : PortIx) (q : Port) : (c.setPort p q).pend = c.pend := (rfl)
@[simp] theorem Chip.setPort_counters (p : PortIx) (q : Port) : (c.setPort p q).counters = c.counters := (rfl)
@[simp] theorem Chip.setPort_snaps (p : PortIx) (q : Port) : (c.setPort p q).snaps = c.snaps := (rfl)
@[simp] theorem Chip.setPort_answer (p : PortIx) (q : Port) : (c.setPort p q).answer = c.answer := (rfl)
@[simp] theorem Chip.setPort_freeCtr (p : PortIx) (q : Port) : (c.setPort p q).freeCtr = c.freeCtr := (rfl)
@[simp] theorem Chip.setPort_aon (p : PortIx) (q : Port) : (c.setPort p q).aon = c.aon := (rfl)
@[simp] theorem Chip.setPort_power (p : PortIx) (q : Port) : (c.setPort p q).power = c.power := (rfl)
@[simp] theorem Chip.setPort_clk (p : PortIx) (q : Port) : (c.setPort p q).clk = c.clk := (rfl)
@[simp] theorem Chip.setPort_time (p : PortIx) (q : Port) : (c.setPort p q).time = c.time := (rfl)
@[simp] theorem Chip.setPort_evq (p : PortIx) (q : Port) : (c.setPort p q).evq = c.evq := (rfl)
@[simp] theorem Chip.setPort_nextEvent (p : PortIx) (q : Port) : (c.setPort p q).nextEvent = c.nextEvent := (rfl)
@[simp] theorem Chip.setPort_noticeSeq (p : PortIx) (q : Port) : (c.setPort p q).noticeSeq = c.noticeSeq := (rfl)
@[simp] theorem Chip.setPort_errs (p : PortIx) (q : Port) : (c.setPort p q).errs = c.errs := (rfl)
@[simp] theorem Chip.setPort_sel (p : PortIx) (q : Port) : (c.setPort p q).sel = c.sel := (rfl)
@[simp] theorem Chip.setPort_ctxs (p : PortIx) (q : Port) : (c.setPort p q).ctxs = c.ctxs := (rfl)
@[simp] theorem Chip.setPort_was (p : PortIx) (q : Port) : (c.setPort p q).was = c.was := (rfl)
@[simp] theorem Chip.setPort_feeds (p : PortIx) (q : Port) : (c.setPort p q).feeds = c.feeds := (rfl)
@[simp] theorem Chip.setPort_sramOps (p : PortIx) (q : Port) : (c.setPort p q).sramOps = c.sramOps := (rfl)
@[simp] theorem Chip.setPort_layout (p : PortIx) (q : Port) : (c.setPort p q).layout = c.layout := (rfl)
@[simp] theorem Chip.setPort_layoutOld (p : PortIx) (q : Port) : (c.setPort p q).layoutOld = c.layoutOld := (rfl)
@[simp] theorem Chip.setPort_sched (p : PortIx) (q : Port) : (c.setPort p q).sched = c.sched := (rfl)
@[simp] theorem Chip.setPort_colour (p : PortIx) (q : Port) : (c.setPort p q).colour = c.colour := (rfl)
@[simp] theorem Chip.setPort_scan (p : PortIx) (q : Port) : (c.setPort p q).scan = c.scan := (rfl)
@[simp] theorem Chip.setPort_chains (p : PortIx) (q : Port) : (c.setPort p q).chains = c.chains := (rfl)
@[simp] theorem Chip.setPort_dmx (p : PortIx) (q : Port) : (c.setPort p q).dmx = c.dmx := (rfl)
@[simp] theorem Chip.setPort_resend (p : PortIx) (q : Port) : (c.setPort p q).resend = c.resend := (rfl)
@[simp] theorem Chip.setPort_resendMs (p : PortIx) (q : Port) : (c.setPort p q).resendMs = c.resendMs := (rfl)
@[simp] theorem Chip.setPort_gang (p : PortIx) (q : Port) : (c.setPort p q).gang = c.gang := (rfl)
@[simp] theorem Chip.setPort_emul (p : PortIx) (q : Port) : (c.setPort p q).emul = c.emul := (rfl)
@[simp] theorem Chip.setPort_pair (p : PortIx) (q : Port) : (c.setPort p q).pair = c.pair := (rfl)
@[simp] theorem Chip.setPort_loading (p : PortIx) (q : Port) : (c.setPort p q).loading = c.loading := (rfl)
@[simp] theorem Chip.setPort_nvOps (p : PortIx) (q : Port) : (c.setPort p q).nvOps = c.nvOps := (rfl)
@[simp] theorem Chip.setPort_calib (p : PortIx) (q : Port) : (c.setPort p q).calib = c.calib := (rfl)

@[simp] theorem Chip.ans_answer (st : Status) (ws : List Nat) : (c.ans st ws).answer = ⟨st, ws⟩ := (rfl)

end Sys2Proof.Machine
end

