-- ==== Sys2Proof/Laws/Ops.lean ====
section
/-!
SUPPORT. The laws of the shared operations of Machine/Ops: what a field reads after a write of it or of another, what a
counter holds after a count, and that no setter of another part touches registers or counters.
-/

namespace Sys2Proof.Machine

open Sys2Proof

variable (c : Chip)

/-! Registers (R4). -/

@[simp] theorem Chip.reg_setReg_self (a : Nat) (w : Word) : (c.setReg a w).reg a = w := by
  simp [Chip.reg, Chip.setReg]

theorem Chip.reg_setReg_ne {a b : Nat} (w : Word) (h : b ≠ a) : (c.setReg a w).reg b = c.reg b := by
  simp [Chip.reg, Chip.setReg, smGet_smSet_ne regReset c.regs w h]

theorem Chip.reg_put_ne {a : Nat} (f : Fld) (v : Nat) (h : a ≠ f.addr) : (c.put f v).reg a = c.reg a :=
  Chip.reg_setReg_ne c _ h

/-- The bits of a word above, in and below a replaced field. -/
theorem insertField_lt {w v : Nat} {f : Fld} (hw : w < 2 ^ 32) (hf : f.lo + f.width ≤ 32) :
    insertField w f v < 2 ^ 32 := by
  unfold insertField
  have h1 : w % 2 ^ f.lo < 2 ^ f.lo := Nat.mod_lt _ (Nat.two_pow_pos _)
  have h2 : v % 2 ^ f.width < 2 ^ f.width := Nat.mod_lt _ (Nat.two_pow_pos _)
  obtain ⟨r, hr⟩ : ∃ r, 32 = f.lo + f.width + r := ⟨32 - (f.lo + f.width), by omega⟩
  have h3 : w / 2 ^ (f.lo + f.width) < 2 ^ r := by
    apply Nat.div_lt_of_lt_mul
    rw [← Nat.pow_add, ← hr]; exact hw
  have e1 : 2 ^ (f.lo + f.width) = 2 ^ f.lo * 2 ^ f.width := Nat.pow_add ..
  have e2 : 2 ^ 32 = 2 ^ f.lo * 2 ^ f.width * 2 ^ r := by rw [hr, Nat.pow_add, Nat.pow_add]
  generalize w / 2 ^ (f.lo + f.width) = z at *
  rw [e2, e1]
  generalize w % 2 ^ f.lo = x at *
  generalize v % 2 ^ f.width = y at *
  generalize 2 ^ f.lo = A at *
  generalize 2 ^ f.width = B at *
  generalize 2 ^ r = C at *
  calc x + y * A + z * (A * B) < A + y * A + z * (A * B) := by omega
    _ = (y + 1) * A + z * (A * B) := by rw [Nat.add_mul, Nat.one_mul]; omega
    _ ≤ B * A + z * (A * B) := Nat.add_le_add_right (Nat.mul_le_mul_right A h2) _
    _ = (z + 1) * (A * B) := by rw [Nat.add_mul, Nat.one_mul, Nat.mul_comm B A]; omega
    _ ≤ C * (A * B) := Nat.mul_le_mul_right _ h3
    _ = A * B * C := Nat.mul_comm ..

/-- The bits of a word with a field replaced. -/
theorem testBit_insertField (w v : Nat) (f : Fld) (i : Nat) :
    (insertField w f v).testBit i =
      if f.lo ≤ i ∧ i < f.lo + f.width then v.testBit (i - f.lo) else w.testBit i := by
  unfold insertField
  have h1 : w % 2 ^ f.lo < 2 ^ f.lo := Nat.mod_lt _ (Nat.two_pow_pos _)
  have h2 : v % 2 ^ f.width < 2 ^ f.width := Nat.mod_lt _ (Nat.two_pow_pos _)
  have e : w % 2 ^ f.lo + v % 2 ^ f.width * 2 ^ f.lo + w / 2 ^ (f.lo + f.width) * 2 ^ (f.lo + f.width)
      = 2 ^ f.lo * (2 ^ f.width * (w / 2 ^ (f.lo + f.width)) + v % 2 ^ f.width) + w % 2 ^ f.lo := by
    generalize w / 2 ^ (f.lo + f.width) = z
    rw [Nat.pow_add, Nat.mul_add, Nat.mul_comm (2 ^ f.lo) (v % 2 ^ f.width), ← Nat.mul_assoc (2 ^ f.lo), Nat.mul_comm z]
    omega
  rw [e, Nat.testBit_two_pow_mul_add _ h1]
  split
  · rename_i h; rw [if_neg (by omega), Nat.testBit_mod_two_pow]; simp [h]
  · rename_i h
    rw [Nat.testBit_two_pow_mul_add _ h2]
    split
    · rename_i h'; rw [if_pos (by omega), Nat.testBit_mod_two_pow]; simp [h']
    · rename_i h'; rw [if_neg (by omega), Nat.testBit_div_two_pow]; congr 1; omega

theorem Chip.reg_put_toNat (f : Fld) (v : Nat) (hf : f.lo + f.width ≤ 32) :
    ((c.put f v).reg f.addr).toNat = insertField (c.reg f.addr).toNat f v := by
  unfold Chip.put
  rw [Chip.reg_setReg_self, wordOf, BitVec.toNat_ofNat, Nat.mod_eq_of_lt]
  exact insertField_lt (c.reg f.addr).isLt hf

/-- What a field reads, bit by bit. -/
theorem Chip.testBit_get (f : Fld) (i : Nat) :
    (c.get f).testBit i = (decide (i < f.width) && (c.reg f.addr).toNat.testBit (f.lo + i)) := by
  unfold Chip.get
  rw [Nat.testBit_mod_two_pow, Nat.testBit_shiftRight]

/-- A field reads what was put into it. -/
theorem Chip.get_put_self (f : Fld) (v : Nat) (hf : f.lo + f.width ≤ 32) : (c.put f v).get f = v % 2 ^ f.width := by
  apply Nat.eq_of_testBit_eq
  intro i
  rw [Chip.testBit_get, Chip.reg_put_toNat c f v hf, testBit_insertField, Nat.testBit_mod_two_pow]
  by_cases h : i < f.width
  · rw [if_pos (by omega)]; simp [h]
  · simp [h]

/-- A field of another word reads as before. -/
theorem Chip.get_put_ne {g : Fld} (f : Fld) (v : Nat) (h : g.addr ≠ f.addr) : (c.put f v).get g = c.get g := by
  unfold Chip.get
  rw [Chip.reg_put_ne c f v h]

/-- A field of the same word beside the one written reads as before. -/
theorem Chip.get_put_beside {g : Fld} (f : Fld) (v : Nat) (h : g.addr = f.addr) (hf : f.lo + f.width ≤ 32)
    (hd : g.lo + g.width ≤ f.lo ∨ f.lo + f.width ≤ g.lo) : (c.put f v).get g = c.get g := by
  apply Nat.eq_of_testBit_eq
  intro i
  rw [Chip.testBit_get, Chip.testBit_get, h, Chip.reg_put_toNat c f v hf, testBit_insertField]
  by_cases hi : i < g.width
  · rw [if_neg (by omega)]
  · simp [hi]

/-- Reading a field after putting another: the one lemma for fields of any words. -/
theorem Chip.get_put_other {g : Fld} (f : Fld) (v : Nat) (hf : f.lo + f.width ≤ 32)
    (hd : g.addr ≠ f.addr ∨ g.lo + g.width ≤ f.lo ∨ f.lo + f.width ≤ g.lo) : (c.put f v).get g = c.get g := by
  by_cases h : g.addr = f.addr
  · exact Chip.get_put_beside c f v h hf (hd.resolve_left (fun n => n h))
  · exact Chip.get_put_ne c f v h

/-- A field of another word reads as before. -/
theorem Chip.get_setReg_ne {g : Fld} {a : Nat} (w : Word) (h : g.addr ≠ a) : (c.setReg a w).get g = c.get g := by
  unfold Chip.get
  rw [Chip.reg_setReg_ne c w h]

/-- A field of a word written whole. -/
theorem Chip.get_setReg_self {g : Fld} {a : Nat} (w : Word) (h : g.addr = a) :
    (c.setReg a w).get g = w.toNat >>> g.lo % 2 ^ g.width := by
  unfold Chip.get
  rw [h, Chip.reg_setReg_self]

theorem Chip.get_putB_self (f : Fld) (b : Bool) (hf : f.lo + f.width ≤ 32) (hw : 0 < f.width) :
    (c.putB f b).get f = if b then 1 else 0 := by
  unfold Chip.putB
  rw [Chip.get_put_self c f _ hf]
  have : 1 < 2 ^ f.width := Nat.one_lt_two_pow (by omega)
  cases b <;> simp [Nat.mod_eq_of_lt this]

theorem Chip.get_latch_self (f : Fld) (hf : f.lo + f.width ≤ 32) (hw : 0 < f.width) : (c.latch f).get f = 1 := by
  unfold Chip.latch
  rw [Chip.get_put_self c f _ hf, Nat.mod_eq_of_lt (Nat.one_lt_two_pow (by omega))]

/-! Counters (R144). -/

theorem Chip.count_bump_self (a n : Nat) : (c.bump a n).count a = min (c.count a + n) (2 ^ 48 - 1) := by
  simp [Chip.bump, Chip.count]

theorem Chip.count_bump_ne {a b : Nat} (n : Nat) (h : b ≠ a) : (c.bump a n).count b = c.count b := by
  simp [Chip.bump, Chip.count, smGet_smSet_ne _ c.counters _ h]

/-! What reads registers or counters is not changed by an update of another part. -/

@[simp] theorem Chip.setSt_reg (x : DevState) (a : Nat) : (c.setSt x).reg a = c.reg a := (rfl)
@[simp] theorem Chip.setSt_get (x : DevState) (g : Fld) : (c.setSt x).get g = c.get g := (rfl)
@[simp] theorem Chip.setSt_bit (x : DevState) (g : Fld) : (c.setSt x).bit g = c.bit g := (rfl)
@[simp] theorem Chip.setSt_getS (x : DevState) (g : Fld) : (c.setSt x).getS g = c.getS g := (rfl)
@[simp] theorem Chip.setSt_count (x : DevState) (a : Nat) : (c.setSt x).count a = c.count a := (rfl)
@[simp] theorem Chip.setFromRunning_reg (x : Bool) (a : Nat) : (c.setFromRunning x).reg a = c.reg a := (rfl)
@[simp] theorem Chip.setFromRunning_get (x : Bool) (g : Fld) : (c.setFromRunning x).get g = c.get g := (rfl)
@[simp] theorem Chip.setFromRunning_bit (x : Bool) (g : Fld) : (c.setFromRunning x).bit g = c.bit g := (rfl)
@[simp] theorem Chip.setFromRunning_getS (x : Bool) (g : Fld) : (c.setFromRunning x).getS g = c.getS g := (rfl)
@[simp] theorem Chip.setFromRunning_count (x : Bool) (a : Nat) : (c.setFromRunning x).count a = c.count a := (rfl)
@[simp] theorem Chip.setRegs_count (x : SMap Word) (a : Nat) : (c.setRegs x).count a = c.count a := (rfl)
@[simp] theorem Chip.setPend_reg (x : List Pend) (a : Nat) : (c.setPend x).reg a = c.reg a := (rfl)
@[simp] theorem Chip.setPend_get (x : List Pend) (g : Fld) : (c.setPend x).get g = c.get g := (rfl)
@[simp] theorem Chip.setPend_bit (x : List Pend) (g : Fld) : (c.setPend x).bit g = c.bit g := (rfl)
@[simp] theorem Chip.setPend_getS (x : List Pend) (g : Fld) : (c.setPend x).getS g = c.getS g := (rfl)
@[simp] theorem Chip.setPend_count (x : List Pend) (a : Nat) : (c.setPend x).count a = c.count a := (rfl)
@[simp] theorem Chip.setCounters_reg (x : SMap Nat) (a : Nat) : (c.setCounters x).reg a = c.reg a := (rfl)
@[simp] theorem Chip.setCounters_get (x : SMap Nat) (g : Fld) : (c.setCounters x).get g = c.get g := (rfl)
@[simp] theorem Chip.setCounters_bit (x : SMap Nat) (g : Fld) : (c.setCounters x).bit g = c.bit g := (rfl)
@[simp] theorem Chip.setCounters_getS (x : SMap Nat) (g : Fld) : (c.setCounters x).getS g = c.getS g := (rfl)
@[simp] theorem Chip.setSnaps_reg (x : SMap Nat) (a : Nat) : (c.setSnaps x).reg a = c.reg a := (rfl)
@[simp] theorem Chip.setSnaps_get (x : SMap Nat) (g : Fld) : (c.setSnaps x).get g = c.get g := (rfl)
@[simp] theorem Chip.setSnaps_bit (x : SMap Nat) (g : Fld) : (c.setSnaps x).bit g = c.bit g := (rfl)
@[simp] theorem Chip.setSnaps_getS (x : SMap Nat) (g : Fld) : (c.setSnaps x).getS g = c.getS g := (rfl)
@[simp] theorem Chip.setSnaps_count (x : SMap Nat) (a : Nat) : (c.setSnaps x).count a = c.count a := (rfl)
@[simp] theorem Chip.setAnswer_reg (x : Answer) (a : Nat) : (c.setAnswer x).reg a = c.reg a := (rfl)
@[simp] theorem Chip.setAnswer_get (x : Answer) (g : Fld) : (c.setAnswer x).get g = c.get g := (rfl)
@[simp] theorem Chip.setAnswer_bit (x : Answer) (g : Fld) : (c.setAnswer x).bit g = c.bit g := (rfl)
@[simp] theorem Chip.setAnswer_getS (x : Answer) (g : Fld) : (c.setAnswer x).getS g = c.getS g := (rfl)
@[simp] theorem Chip.setAnswer_count (x : Answer) (a : Nat) : (c.setAnswer x).count a = c.count a := (rfl)
@[simp] theorem Chip.setFreeCtr_reg (x : Nat) (a : Nat) : (c.setFreeCtr x).reg a = c.reg a := (rfl)
@[simp] theorem Chip.setFreeCtr_get (x : Nat) (g : Fld) : (c.setFreeCtr x).get g = c.get g := (rfl)
@[simp] theorem Chip.setFreeCtr_bit (x : Nat) (g : Fld) : (c.setFreeCtr x).bit g = c.bit g := (rfl)
@[simp] theorem Chip.setFreeCtr_getS (x : Nat) (g : Fld) : (c.setFreeCtr x).getS g = c.getS g := (rfl)
@[simp] theorem Chip.setFreeCtr_count (x : Nat) (a : Nat) : (c.setFreeCtr x).count a = c.count a := (rfl)
@[simp] theorem Chip.setAon_reg (x : Aon) (a : Nat) : (c.setAon x).reg a = c.reg a := (rfl)
@[simp] theorem Chip.setAon_get (x : Aon) (g : Fld) : (c.setAon x).get g = c.get g := (rfl)
@[simp] theorem Chip.setAon_bit (x : Aon) (g : Fld) : (c.setAon x).bit g = c.bit g := (rfl)
@[simp] theorem Chip.setAon_getS (x : Aon) (g : Fld) : (c.setAon x).getS g = c.getS g := (rfl)
@[simp] theorem Chip.setAon_count (x : Aon) (a : Nat) : (c.setAon x).count a = c.count a := (rfl)
@[simp] theorem Chip.setPower_reg (x : Power) (a : Nat) : (c.setPower x).reg a = c.reg a := (rfl)
@[simp] theorem Chip.setPower_get (x : Power) (g : Fld) : (c.setPower x).get g = c.get g := (rfl)
@[simp] theorem Chip.setPower_bit (x : Power) (g : Fld) : (c.setPower x).bit g = c.bit g := (rfl)
@[simp] theorem Chip.setPower_getS (x : Power) (g : Fld) : (c.setPower x).getS g = c.getS g := (rfl)
@[simp] theorem Chip.setPower_count (x : Power) (a : Nat) : (c.setPower x).count a = c.count a := (rfl)
@[simp] theorem Chip.setClk_reg (x : Clk) (a : Nat) : (c.setClk x).reg a = c.reg a := (rfl)
@[simp] theorem Chip.setClk_get (x : Clk) (g : Fld) : (c.setClk x).get g = c.get g := (rfl)
@[simp] theorem Chip.setClk_bit (x : Clk) (g : Fld) : (c.setClk x).bit g = c.bit g := (rfl)
@[simp] theorem Chip.setClk_getS (x : Clk) (g : Fld) : (c.setClk x).getS g = c.getS g := (rfl)
@[simp] theorem Chip.setClk_count (x : Clk) (a : Nat) : (c.setClk x).count a = c.count a := (rfl)
@[simp] theorem Chip.setTime_reg (x : Time) (a : Nat) : (c.setTime x).reg a = c.reg a := (rfl)
@[simp] theorem Chip.setTime_get (x : Time) (g : Fld) : (c.setTime x).get g = c.get g := (rfl)
@[simp] theorem Chip.setTime_bit (x : Time) (g : Fld) : (c.setTime x).bit g = c.bit g := (rfl)
@[simp] theorem Chip.setTime_getS (x : Time) (g : Fld) : (c.setTime x).getS g = c.getS g := (rfl)
@[simp] theorem Chip.setTime_count (x : Time) (a : Nat) : (c.setTime x).count a = c.count a := (rfl)
@[simp] theorem Chip.setPorts_reg (x : Vector Port 2) (a : Nat) : (c.setPorts x).reg a = c.reg a := (rfl)
@[simp] theorem Chip.setPorts_get (x : Vector Port 2) (g : Fld) : (c.setPorts x).get g = c.get g := (rfl)
@[simp] theorem Chip.setPorts_bit (x : Vector Port 2) (g : Fld) : (c.setPorts x).bit g = c.bit g := (rfl)
@[simp] theorem Chip.setPorts_getS (x : Vector Port 2) (g : Fld) : (c.setPorts x).getS g = c.getS g := (rfl)
@[simp] theorem Chip.setPorts_count (x : Vector Port 2) (a : Nat) : (c.setPorts x).count a = c.count a := (rfl)
@[simp] theorem Chip.setEvq_reg (x : List EventRec) (a : Nat) : (c.setEvq x).reg a = c.reg a := (rfl)
@[simp] theorem Chip.setEvq_get (x : List EventRec) (g : Fld) : (c.setEvq x).get g = c.get g := (rfl)
@[simp] theorem Chip.setEvq_bit (x : List EventRec) (g : Fld) : (c.setEvq x).bit g = c.bit g := (rfl)
@[simp] theorem Chip.setEvq_getS (x : List EventRec) (g : Fld) : (c.setEvq x).getS g = c.getS g := (rfl)
@[simp] theorem Chip.setEvq_count (x : List EventRec) (a : Nat) : (c.setEvq x).count a = c.count a := (rfl)
@[simp] theorem Chip.setNextEvent_reg (x : Nat) (a : Nat) : (c.setNextEvent x).reg a = c.reg a := (rfl)
@[simp] theorem Chip.setNextEvent_get (x : Nat) (g : Fld) : (c.setNextEvent x).get g = c.get g := (rfl)
@[simp] theorem Chip.setNextEvent_bit (x : Nat) (g : Fld) : (c.setNextEvent x).bit g = c.bit g := (rfl)
@[simp] theorem Chip.setNextEvent_getS (x : Nat) (g : Fld) : (c.setNextEvent x).getS g = c.getS g := (rfl)
@[simp] theorem Chip.setNextEvent_count (x : Nat) (a : Nat) : (c.setNextEvent x).count a = c.count a := (rfl)
@[simp] theorem Chip.setNoticeSeq_reg (x : Nat) (a : Nat) : (c.setNoticeSeq x).reg a = c.reg a := (rfl)
@[simp] theorem Chip.setNoticeSeq_get (x : Nat) (g : Fld) : (c.setNoticeSeq x).get g = c.get g := (rfl)
@[simp] theorem Chip.setNoticeSeq_bit (x : Nat) (g : Fld) : (c.setNoticeSeq x).bit g = c.bit g := (rfl)
@[simp] theorem Chip.setNoticeSeq_getS (x : Nat) (g : Fld) : (c.setNoticeSeq x).getS g = c.getS g := (rfl)
@[simp] theorem Chip.setNoticeSeq_count (x : Nat) (a : Nat) : (c.setNoticeSeq x).count a = c.count a := (rfl)
@[simp] theorem Chip.setErrs_reg (x : Errs) (a : Nat) : (c.setErrs x).reg a = c.reg a := (rfl)
@[simp] theorem Chip.setErrs_get (x : Errs) (g : Fld) : (c.setErrs x).get g = c.get g := (rfl)
@[simp] theorem Chip.setErrs_bit (x : Errs) (g : Fld) : (c.setErrs x).bit g = c.bit g := (rfl)
@[simp] theorem Chip.setErrs_getS (x : Errs) (g : Fld) : (c.setErrs x).getS g = c.getS g := (rfl)
@[simp] theorem Chip.setErrs_count (x : Errs) (a : Nat) : (c.setErrs x).count a = c.count a := (rfl)
@[simp] theorem Chip.setSel_reg (x : Selul) (a : Nat) : (c.setSel x).reg a = c.reg a := (rfl)
@[simp] theorem Chip.setSel_get (x : Selul) (g : Fld) : (c.setSel x).get g = c.get g := (rfl)
@[simp] theorem Chip.setSel_bit (x : Selul) (g : Fld) : (c.setSel x).bit g = c.bit g := (rfl)
@[simp] theorem Chip.setSel_getS (x : Selul) (g : Fld) : (c.setSel x).getS g = c.getS g := (rfl)
@[simp] theorem Chip.setSel_count (x : Selul) (a : Nat) : (c.setSel x).count a = c.count a := (rfl)
@[simp] theorem Chip.setCtxs_reg (x : SMap Ctx) (a : Nat) : (c.setCtxs x).reg a = c.reg a := (rfl)
@[simp] theorem Chip.setCtxs_get (x : SMap Ctx) (g : Fld) : (c.setCtxs x).get g = c.get g := (rfl)
@[simp] theorem Chip.setCtxs_bit (x : SMap Ctx) (g : Fld) : (c.setCtxs x).bit g = c.bit g := (rfl)
@[simp] theorem Chip.setCtxs_getS (x : SMap Ctx) (g : Fld) : (c.setCtxs x).getS g = c.getS g := (rfl)
@[simp] theorem Chip.setCtxs_count (x : SMap Ctx) (a : Nat) : (c.setCtxs x).count a = c.count a := (rfl)
@[simp] theorem Chip.setWas_reg (x : List (Int × List StagedWord)) (a : Nat) : (c.setWas x).reg a = c.reg a := (rfl)
@[simp] theorem Chip.setWas_get (x : List (Int × List StagedWord)) (g : Fld) : (c.setWas x).get g = c.get g := (rfl)
@[simp] theorem Chip.setWas_bit (x : List (Int × List StagedWord)) (g : Fld) : (c.setWas x).bit g = c.bit g := (rfl)
@[simp] theorem Chip.setWas_getS (x : List (Int × List StagedWord)) (g : Fld) : (c.setWas x).getS g = c.getS g := (rfl)
@[simp] theorem Chip.setWas_count (x : List (Int × List StagedWord)) (a : Nat) : (c.setWas x).count a = c.count a := (rfl)
@[simp] theorem Chip.setFeeds_reg (x : Vector Feed 4) (a : Nat) : (c.setFeeds x).reg a = c.reg a := (rfl)
@[simp] theorem Chip.setFeeds_get (x : Vector Feed 4) (g : Fld) : (c.setFeeds x).get g = c.get g := (rfl)
@[simp] theorem Chip.setFeeds_bit (x : Vector Feed 4) (g : Fld) : (c.setFeeds x).bit g = c.bit g := (rfl)
@[simp] theorem Chip.setFeeds_getS (x : Vector Feed 4) (g : Fld) : (c.setFeeds x).getS g = c.getS g := (rfl)
@[simp] theorem Chip.setFeeds_count (x : Vector Feed 4) (a : Nat) : (c.setFeeds x).count a = c.count a := (rfl)
@[simp] theorem Chip.setSramOps_reg (x : List SramOp) (a : Nat) : (c.setSramOps x).reg a = c.reg a := (rfl)
@[simp] theorem Chip.setSramOps_get (x : List SramOp) (g : Fld) : (c.setSramOps x).get g = c.get g := (rfl)
@[simp] theorem Chip.setSramOps_bit (x : List SramOp) (g : Fld) : (c.setSramOps x).bit g = c.bit g := (rfl)
@[simp] theorem Chip.setSramOps_getS (x : List SramOp) (g : Fld) : (c.setSramOps x).getS g = c.getS g := (rfl)
@[simp] theorem Chip.setSramOps_count (x : List SramOp) (a : Nat) : (c.setSramOps x).count a = c.count a := (rfl)
@[simp] theorem Chip.setLayout_reg (x : List Nat) (a : Nat) : (c.setLayout x).reg a = c.reg a := (rfl)
@[simp] theorem Chip.setLayout_get (x : List Nat) (g : Fld) : (c.setLayout x).get g = c.get g := (rfl)
@[simp] theorem Chip.setLayout_bit (x : List Nat) (g : Fld) : (c.setLayout x).bit g = c.bit g := (rfl)
@[simp] theorem Chip.setLayout_getS (x : List Nat) (g : Fld) : (c.setLayout x).getS g = c.getS g := (rfl)
@[simp] theorem Chip.setLayout_count (x : List Nat) (a : Nat) : (c.setLayout x).count a = c.count a := (rfl)
@[simp] theorem Chip.setLayoutOld_reg (x : Bool) (a : Nat) : (c.setLayoutOld x).reg a = c.reg a := (rfl)
@[simp] theorem Chip.setLayoutOld_get (x : Bool) (g : Fld) : (c.setLayoutOld x).get g = c.get g := (rfl)
@[simp] theorem Chip.setLayoutOld_bit (x : Bool) (g : Fld) : (c.setLayoutOld x).bit g = c.bit g := (rfl)
@[simp] theorem Chip.setLayoutOld_getS (x : Bool) (g : Fld) : (c.setLayoutOld x).getS g = c.getS g := (rfl)
@[simp] theorem Chip.setLayoutOld_count (x : Bool) (a : Nat) : (c.setLayoutOld x).count a = c.count a := (rfl)
@[simp] theorem Chip.setSched_reg (x : Sched) (a : Nat) : (c.setSched x).reg a = c.reg a := (rfl)
@[simp] theorem Chip.setSched_get (x : Sched) (g : Fld) : (c.setSched x).get g = c.get g := (rfl)
@[simp] theorem Chip.setSched_bit (x : Sched) (g : Fld) : (c.setSched x).bit g = c.bit g := (rfl)
@[simp] theorem Chip.setSched_getS (x : Sched) (g : Fld) : (c.setSched x).getS g = c.getS g := (rfl)
@[simp] theorem Chip.setSched_count (x : Sched) (a : Nat) : (c.setSched x).count a = c.count a := (rfl)
@[simp] theorem Chip.setColour_reg (x : Colour) (a : Nat) : (c.setColour x).reg a = c.reg a := (rfl)
@[simp] theorem Chip.setColour_get (x : Colour) (g : Fld) : (c.setColour x).get g = c.get g := (rfl)
@[simp] theorem Chip.setColour_bit (x : Colour) (g : Fld) : (c.setColour x).bit g = c.bit g := (rfl)
@[simp] theorem Chip.setColour_getS (x : Colour) (g : Fld) : (c.setColour x).getS g = c.getS g := (rfl)
@[simp] theorem Chip.setColour_count (x : Colour) (a : Nat) : (c.setColour x).count a = c.count a := (rfl)
@[simp] theorem Chip.setScan_reg (x : Scan) (a : Nat) : (c.setScan x).reg a = c.reg a := (rfl)
@[simp] theorem Chip.setScan_get (x : Scan) (g : Fld) : (c.setScan x).get g = c.get g := (rfl)
@[simp] theorem Chip.setScan_bit (x : Scan) (g : Fld) : (c.setScan x).bit g = c.bit g := (rfl)
@[simp] theorem Chip.setScan_getS (x : Scan) (g : Fld) : (c.setScan x).getS g = c.getS g := (rfl)
@[simp] theorem Chip.setScan_count (x : Scan) (a : Nat) : (c.setScan x).count a = c.count a := (rfl)
@[simp] theorem Chip.setChains_reg (x : Chains) (a : Nat) : (c.setChains x).reg a = c.reg a := (rfl)
@[simp] theorem Chip.setChains_get (x : Chains) (g : Fld) : (c.setChains x).get g = c.get g := (rfl)
@[simp] theorem Chip.setChains_bit (x : Chains) (g : Fld) : (c.setChains x).bit g = c.bit g := (rfl)
@[simp] theorem Chip.setChains_getS (x : Chains) (g : Fld) : (c.setChains x).getS g = c.getS g := (rfl)
@[simp] theorem Chip.setChains_count (x : Chains) (a : Nat) : (c.setChains x).count a = c.count a := (rfl)
@[simp] theorem Chip.setDmx_reg (x : Vector DmxPort 4) (a : Nat) : (c.setDmx x).reg a = c.reg a := (rfl)
@[simp] theorem Chip.setDmx_get (x : Vector DmxPort 4) (g : Fld) : (c.setDmx x).get g = c.get g := (rfl)
@[simp] theorem Chip.setDmx_bit (x : Vector DmxPort 4) (g : Fld) : (c.setDmx x).bit g = c.bit g := (rfl)
@[simp] theorem Chip.setDmx_getS (x : Vector DmxPort 4) (g : Fld) : (c.setDmx x).getS g = c.getS g := (rfl)
@[simp] theorem Chip.setDmx_count (x : Vector DmxPort 4) (a : Nat) : (c.setDmx x).count a = c.count a := (rfl)
@[simp] theorem Chip.setResend_reg (x : List Resend) (a : Nat) : (c.setResend x).reg a = c.reg a := (rfl)
@[simp] theorem Chip.setResend_get (x : List Resend) (g : Fld) : (c.setResend x).get g = c.get g := (rfl)
@[simp] theorem Chip.setResend_bit (x : List Resend) (g : Fld) : (c.setResend x).bit g = c.bit g := (rfl)
@[simp] theorem Chip.setResend_getS (x : List Resend) (g : Fld) : (c.setResend x).getS g = c.getS g := (rfl)
@[simp] theorem Chip.setResend_count (x : List Resend) (a : Nat) : (c.setResend x).count a = c.count a := (rfl)
@[simp] theorem Chip.setResendMs_reg (x : Nat × Nat) (a : Nat) : (c.setResendMs x).reg a = c.reg a := (rfl)
@[simp] theorem Chip.setResendMs_get (x : Nat × Nat) (g : Fld) : (c.setResendMs x).get g = c.get g := (rfl)
@[simp] theorem Chip.setResendMs_bit (x : Nat × Nat) (g : Fld) : (c.setResendMs x).bit g = c.bit g := (rfl)
@[simp] theorem Chip.setResendMs_getS (x : Nat × Nat) (g : Fld) : (c.setResendMs x).getS g = c.getS g := (rfl)
@[simp] theorem Chip.setResendMs_count (x : Nat × Nat) (a : Nat) : (c.setResendMs x).count a = c.count a := (rfl)
@[simp] theorem Chip.setGang_reg (x : Gang) (a : Nat) : (c.setGang x).reg a = c.reg a := (rfl)
@[simp] theorem Chip.setGang_get (x : Gang) (g : Fld) : (c.setGang x).get g = c.get g := (rfl)
@[simp] theorem Chip.setGang_bit (x : Gang) (g : Fld) : (c.setGang x).bit g = c.bit g := (rfl)
@[simp] theorem Chip.setGang_getS (x : Gang) (g : Fld) : (c.setGang x).getS g = c.getS g := (rfl)
@[simp] theorem Chip.setGang_count (x : Gang) (a : Nat) : (c.setGang x).count a = c.count a := (rfl)
@[simp] theorem Chip.setEmul_reg (x : Emul) (a : Nat) : (c.setEmul x).reg a = c.reg a := (rfl)
@[simp] theorem Chip.setEmul_get (x : Emul) (g : Fld) : (c.setEmul x).get g = c.get g := (rfl)
@[simp] theorem Chip.setEmul_bit (x : Emul) (g : Fld) : (c.setEmul x).bit g = c.bit g := (rfl)
@[simp] theorem Chip.setEmul_getS (x : Emul) (g : Fld) : (c.setEmul x).getS g = c.getS g := (rfl)
@[simp] theorem Chip.setEmul_count (x : Emul) (a : Nat) : (c.setEmul x).count a = c.count a := (rfl)
@[simp] theorem Chip.setPair_reg (x : Pair) (a : Nat) : (c.setPair x).reg a = c.reg a := (rfl)
@[simp] theorem Chip.setPair_get (x : Pair) (g : Fld) : (c.setPair x).get g = c.get g := (rfl)
@[simp] theorem Chip.setPair_bit (x : Pair) (g : Fld) : (c.setPair x).bit g = c.bit g := (rfl)
@[simp] theorem Chip.setPair_getS (x : Pair) (g : Fld) : (c.setPair x).getS g = c.getS g := (rfl)
@[simp] theorem Chip.setPair_count (x : Pair) (a : Nat) : (c.setPair x).count a = c.count a := (rfl)
@[simp] theorem Chip.setLoading_reg (x : Load) (a : Nat) : (c.setLoading x).reg a = c.reg a := (rfl)
@[simp] theorem Chip.setLoading_get (x : Load) (g : Fld) : (c.setLoading x).get g = c.get g := (rfl)
@[simp] theorem Chip.setLoading_bit (x : Load) (g : Fld) : (c.setLoading x).bit g = c.bit g := (rfl)
@[simp] theorem Chip.setLoading_getS (x : Load) (g : Fld) : (c.setLoading x).getS g = c.getS g := (rfl)
@[simp] theorem Chip.setLoading_count (x : Load) (a : Nat) : (c.setLoading x).count a = c.count a := (rfl)
@[simp] theorem Chip.setNvOps_reg (x : List NvOp) (a : Nat) : (c.setNvOps x).reg a = c.reg a := (rfl)
@[simp] theorem Chip.setNvOps_get (x : List NvOp) (g : Fld) : (c.setNvOps x).get g = c.get g := (rfl)
@[simp] theorem Chip.setNvOps_bit (x : List NvOp) (g : Fld) : (c.setNvOps x).bit g = c.bit g := (rfl)
@[simp] theorem Chip.setNvOps_getS (x : List NvOp) (g : Fld) : (c.setNvOps x).getS g = c.getS g := (rfl)
@[simp] theorem Chip.setNvOps_count (x : List NvOp) (a : Nat) : (c.setNvOps x).count a = c.count a := (rfl)
@[simp] theorem Chip.setCalib_reg (x : Calib) (a : Nat) : (c.setCalib x).reg a = c.reg a := (rfl)
@[simp] theorem Chip.setCalib_get (x : Calib) (g : Fld) : (c.setCalib x).get g = c.get g := (rfl)
@[simp] theorem Chip.setCalib_bit (x : Calib) (g : Fld) : (c.setCalib x).bit g = c.bit g := (rfl)
@[simp] theorem Chip.setCalib_getS (x : Calib) (g : Fld) : (c.setCalib x).getS g = c.getS g := (rfl)
@[simp] theorem Chip.setCalib_count (x : Calib) (a : Nat) : (c.setCalib x).count a = c.count a := (rfl)

@[simp] theorem Chip.bump_reg (a n : Nat) (k : Nat) : (c.bump a n).reg k = c.reg k := (rfl)
@[simp] theorem Chip.bump_get (a n : Nat) (g : Fld) : (c.bump a n).get g = c.get g := (rfl)
@[simp] theorem Chip.bump_bit (a n : Nat) (g : Fld) : (c.bump a n).bit g = c.bit g := (rfl)
@[simp] theorem Chip.bump_getS (a n : Nat) (g : Fld) : (c.bump a n).getS g = c.getS g := (rfl)
@[simp] theorem Chip.ans_reg (st : Status) (ws : List Nat) (k : Nat) : (c.ans st ws).reg k = c.reg k := (rfl)
@[simp] theorem Chip.ans_get (st : Status) (ws : List Nat) (g : Fld) : (c.ans st ws).get g = c.get g := (rfl)
@[simp] theorem Chip.ans_bit (st : Status) (ws : List Nat) (g : Fld) : (c.ans st ws).bit g = c.bit g := (rfl)
@[simp] theorem Chip.ans_getS (st : Status) (ws : List Nat) (g : Fld) : (c.ans st ws).getS g = c.getS g := (rfl)
@[simp] theorem Chip.setPort_reg (p : PortIx) (q : Port) (k : Nat) : (c.setPort p q).reg k = c.reg k := (rfl)
@[simp] theorem Chip.setPort_get (p : PortIx) (q : Port) (g : Fld) : (c.setPort p q).get g = c.get g := (rfl)
@[simp] theorem Chip.setPort_bit (p : PortIx) (q : Port) (g : Fld) : (c.setPort p q).bit g = c.bit g := (rfl)
@[simp] theorem Chip.setPort_getS (p : PortIx) (q : Port) (g : Fld) : (c.setPort p q).getS g = c.getS g := (rfl)
@[simp] theorem Chip.setReg_count (a : Nat) (w : Word) (k : Nat) : (c.setReg a w).count k = c.count k := (rfl)
@[simp] theorem Chip.put_count (f : Fld) (v : Nat) (k : Nat) : (c.put f v).count k = c.count k := (rfl)
@[simp] theorem Chip.putB_count (f : Fld) (b : Bool) (k : Nat) : (c.putB f b).count k = c.count k := (rfl)
@[simp] theorem Chip.putS_count (f : Fld) (v : Int) (k : Nat) : (c.putS f v).count k = c.count k := (rfl)
@[simp] theorem Chip.latch_count (f : Fld) (k : Nat) : (c.latch f).count k = c.count k := (rfl)
@[simp] theorem Chip.ans_count (st : Status) (ws : List Nat) (k : Nat) : (c.ans st ws).count k = c.count k := (rfl)
@[simp] theorem Chip.setPort_count (p : PortIx) (q : Port) (k : Nat) : (c.setPort p q).count k = c.count k := (rfl)

end Sys2Proof.Machine
end

