-- ==== Sys2Proof/Laws/Frames.lean ====
section
/-!
SUPPORT. Frames: which parts of the chip an effect may change. The relation `Only` holds of every shared operation and goes
through sequences, choices and folds, so that what an effect leaves alone is read off its text.
-/

namespace Sys2Proof.Machine

open Sys2Proof

variable {l : List Part} {c d e : Chip}

theorem Chip.Only.refl (l : List Part) (c : Chip) : c.Only l c :=
  ⟨.inr rfl, .inr rfl, .inr rfl, .inr rfl, .inr rfl, .inr rfl, .inr rfl, .inr rfl, .inr rfl, .inr rfl, .inr rfl, .inr rfl, .inr rfl, .inr rfl, .inr rfl, .inr rfl, .inr rfl, .inr rfl, .inr rfl, .inr rfl, .inr rfl, .inr rfl, .inr rfl, .inr rfl, .inr rfl, .inr rfl, .inr rfl, .inr rfl, .inr rfl, .inr rfl, .inr rfl, .inr rfl, .inr rfl, .inr rfl, .inr rfl, .inr rfl, .inr rfl⟩

theorem Chip.Only.trans (h : c.Only l d) (k : d.Only l e) : c.Only l e :=
  ⟨kept h.st k.st, kept h.fromRunning k.fromRunning, kept h.regs k.regs, kept h.pend k.pend, kept h.counters k.counters, kept h.snaps k.snaps, kept h.answer k.answer, kept h.freeCtr k.freeCtr, kept h.aon k.aon, kept h.power k.power, kept h.clk k.clk, kept h.time k.time, kept h.ports k.ports, kept h.evq k.evq, kept h.nextEvent k.nextEvent, kept h.noticeSeq k.noticeSeq, kept h.errs k.errs, kept h.sel k.sel, kept h.ctxs k.ctxs, kept h.was k.was, kept h.feeds k.feeds, kept h.sramOps k.sramOps, kept h.layout k.layout, kept h.layoutOld k.layoutOld, kept h.sched k.sched, kept h.colour k.colour, kept h.scan k.scan, kept h.chains k.chains, kept h.dmx k.dmx, kept h.resend k.resend, kept h.resendMs k.resendMs, kept h.gang k.gang, kept h.emul k.emul, kept h.pair k.pair, kept h.loading k.loading, kept h.nvOps k.nvOps, kept h.calib k.calib⟩
where
  kept {p : Prop} {α : Type} {x y z : α} (h : p ∨ y = x) (k : p ∨ z = y) : p ∨ z = x :=
    h.elim .inl (fun a => k.elim .inl (fun b => .inr (b.trans a)))

/-- A frame with fewer parts is a frame with more. -/
theorem Chip.Only.more {m : List Part} (h : c.Only l d) (s : l ⊆ m) : c.Only m d :=
  ⟨h.st.imp_left (@s _), h.fromRunning.imp_left (@s _), h.regs.imp_left (@s _), h.pend.imp_left (@s _), h.counters.imp_left (@s _), h.snaps.imp_left (@s _), h.answer.imp_left (@s _), h.freeCtr.imp_left (@s _), h.aon.imp_left (@s _), h.power.imp_left (@s _), h.clk.imp_left (@s _), h.time.imp_left (@s _), h.ports.imp_left (@s _), h.evq.imp_left (@s _), h.nextEvent.imp_left (@s _), h.noticeSeq.imp_left (@s _), h.errs.imp_left (@s _), h.sel.imp_left (@s _), h.ctxs.imp_left (@s _), h.was.imp_left (@s _), h.feeds.imp_left (@s _), h.sramOps.imp_left (@s _), h.layout.imp_left (@s _), h.layoutOld.imp_left (@s _), h.sched.imp_left (@s _), h.colour.imp_left (@s _), h.scan.imp_left (@s _), h.chains.imp_left (@s _), h.dmx.imp_left (@s _), h.resend.imp_left (@s _), h.resendMs.imp_left (@s _), h.gang.imp_left (@s _), h.emul.imp_left (@s _), h.pair.imp_left (@s _), h.loading.imp_left (@s _), h.nvOps.imp_left (@s _), h.calib.imp_left (@s _)⟩

theorem Chip.Only.choice (p : Prop) [Decidable p] (h : c.Only l d) (k : c.Only l e) :
    c.Only l (if p then d else e) := by split <;> assumption

theorem Chip.Only.fold {α : Type} (f : Chip → α → Chip) (h : ∀ c x, Chip.Only l c (f c x)) (xs : List α) (c : Chip) :
    c.Only l (xs.foldl f c) := by
  induction xs generalizing c with
  | nil => exact .refl l c
  | cons x xs ih => exact (h c x).trans (ih (f c x))

theorem Chip.Only.setReg (h : c.Only l d) (a : Nat) (w : Word) (m : Part.regs ∈ l := by decide) : c.Only l (d.setReg a w) :=
  ⟨h.st, h.fromRunning, .inl m, h.pend, h.counters, h.snaps, h.answer, h.freeCtr, h.aon, h.power, h.clk, h.time, h.ports, h.evq, h.nextEvent, h.noticeSeq, h.errs, h.sel, h.ctxs, h.was, h.feeds, h.sramOps, h.layout, h.layoutOld, h.sched, h.colour, h.scan, h.chains, h.dmx, h.resend, h.resendMs, h.gang, h.emul, h.pair, h.loading, h.nvOps, h.calib⟩
theorem Chip.Only.put (h : c.Only l d) (f : Fld) (v : Nat) (m : Part.regs ∈ l := by decide) : c.Only l (d.put f v) :=
  ⟨h.st, h.fromRunning, .inl m, h.pend, h.counters, h.snaps, h.answer, h.freeCtr, h.aon, h.power, h.clk, h.time, h.ports, h.evq, h.nextEvent, h.noticeSeq, h.errs, h.sel, h.ctxs, h.was, h.feeds, h.sramOps, h.layout, h.layoutOld, h.sched, h.colour, h.scan, h.chains, h.dmx, h.resend, h.resendMs, h.gang, h.emul, h.pair, h.loading, h.nvOps, h.calib⟩
theorem Chip.Only.putB (h : c.Only l d) (f : Fld) (b : Bool) (m : Part.regs ∈ l := by decide) : c.Only l (d.putB f b) :=
  ⟨h.st, h.fromRunning, .inl m, h.pend, h.counters, h.snaps, h.answer, h.freeCtr, h.aon, h.power, h.clk, h.time, h.ports, h.evq, h.nextEvent, h.noticeSeq, h.errs, h.sel, h.ctxs, h.was, h.feeds, h.sramOps, h.layout, h.layoutOld, h.sched, h.colour, h.scan, h.chains, h.dmx, h.resend, h.resendMs, h.gang, h.emul, h.pair, h.loading, h.nvOps, h.calib⟩
theorem Chip.Only.putS (h : c.Only l d) (f : Fld) (v : Int) (m : Part.regs ∈ l := by decide) : c.Only l (d.putS f v) :=
  ⟨h.st, h.fromRunning, .inl m, h.pend, h.counters, h.snaps, h.answer, h.freeCtr, h.aon, h.power, h.clk, h.time, h.ports, h.evq, h.nextEvent, h.noticeSeq, h.errs, h.sel, h.ctxs, h.was, h.feeds, h.sramOps, h.layout, h.layoutOld, h.sched, h.colour, h.scan, h.chains, h.dmx, h.resend, h.resendMs, h.gang, h.emul, h.pair, h.loading, h.nvOps, h.calib⟩
theorem Chip.Only.latch (h : c.Only l d) (f : Fld) (m : Part.regs ∈ l := by decide) : c.Only l (d.latch f) :=
  ⟨h.st, h.fromRunning, .inl m, h.pend, h.counters, h.snaps, h.answer, h.freeCtr, h.aon, h.power, h.clk, h.time, h.ports, h.evq, h.nextEvent, h.noticeSeq, h.errs, h.sel, h.ctxs, h.was, h.feeds, h.sramOps, h.layout, h.layoutOld, h.sched, h.colour, h.scan, h.chains, h.dmx, h.resend, h.resendMs, h.gang, h.emul, h.pair, h.loading, h.nvOps, h.calib⟩
theorem Chip.Only.bump (h : c.Only l d) (a n : Nat) (m : Part.counters ∈ l := by decide) : c.Only l (d.bump a n) :=
  ⟨h.st, h.fromRunning, h.regs, h.pend, .inl m, h.snaps, h.answer, h.freeCtr, h.aon, h.power, h.clk, h.time, h.ports, h.evq, h.nextEvent, h.noticeSeq, h.errs, h.sel, h.ctxs, h.was, h.feeds, h.sramOps, h.layout, h.layoutOld, h.sched, h.colour, h.scan, h.chains, h.dmx, h.resend, h.resendMs, h.gang, h.emul, h.pair, h.loading, h.nvOps, h.calib⟩
theorem Chip.Only.setPort (h : c.Only l d) (p : PortIx) (q : Port) (m : Part.ports ∈ l := by decide) : c.Only l (d.setPort p q) :=
  ⟨h.st, h.fromRunning, h.regs, h.pend, h.counters, h.snaps, h.answer, h.freeCtr, h.aon, h.power, h.clk, h.time, .inl m, h.evq, h.nextEvent, h.noticeSeq, h.errs, h.sel, h.ctxs, h.was, h.feeds, h.sramOps, h.layout, h.layoutOld, h.sched, h.colour, h.scan, h.chains, h.dmx, h.resend, h.resendMs, h.gang, h.emul, h.pair, h.loading, h.nvOps, h.calib⟩
theorem Chip.Only.ans (h : c.Only l d) (st : Status) (ws : List Nat) (m : Part.answer ∈ l := by decide) : c.Only l (d.ans st ws) :=
  ⟨h.st, h.fromRunning, h.regs, h.pend, h.counters, h.snaps, .inl m, h.freeCtr, h.aon, h.power, h.clk, h.time, h.ports, h.evq, h.nextEvent, h.noticeSeq, h.errs, h.sel, h.ctxs, h.was, h.feeds, h.sramOps, h.layout, h.layoutOld, h.sched, h.colour, h.scan, h.chains, h.dmx, h.resend, h.resendMs, h.gang, h.emul, h.pair, h.loading, h.nvOps, h.calib⟩
theorem Chip.Only.setSt (h : c.Only l d) (x : DevState) (m : Part.st ∈ l := by decide) : c.Only l (d.setSt x) :=
  ⟨.inl m, h.fromRunning, h.regs, h.pend, h.counters, h.snaps, h.answer, h.freeCtr, h.aon, h.power, h.clk, h.time, h.ports, h.evq, h.nextEvent, h.noticeSeq, h.errs, h.sel, h.ctxs, h.was, h.feeds, h.sramOps, h.layout, h.layoutOld, h.sched, h.colour, h.scan, h.chains, h.dmx, h.resend, h.resendMs, h.gang, h.emul, h.pair, h.loading, h.nvOps, h.calib⟩
theorem Chip.Only.setFromRunning (h : c.Only l d) (x : Bool) (m : Part.fromRunning ∈ l := by decide) : c.Only l (d.setFromRunning x) :=
  ⟨h.st, .inl m, h.regs, h.pend, h.counters, h.snaps, h.answer, h.freeCtr, h.aon, h.power, h.clk, h.time, h.ports, h.evq, h.nextEvent, h.noticeSeq, h.errs, h.sel, h.ctxs, h.was, h.feeds, h.sramOps, h.layout, h.layoutOld, h.sched, h.colour, h.scan, h.chains, h.dmx, h.resend, h.resendMs, h.gang, h.emul, h.pair, h.loading, h.nvOps, h.calib⟩
theorem Chip.Only.setRegs (h : c.Only l d) (x : SMap Word) (m : Part.regs ∈ l := by decide) : c.Only l (d.setRegs x) :=
  ⟨h.st, h.fromRunning, .inl m, h.pend, h.counters, h.snaps, h.answer, h.freeCtr, h.aon, h.power, h.clk, h.time, h.ports, h.evq, h.nextEvent, h.noticeSeq, h.errs, h.sel, h.ctxs, h.was, h.feeds, h.sramOps, h.layout, h.layoutOld, h.sched, h.colour, h.scan, h.chains, h.dmx, h.resend, h.resendMs, h.gang, h.emul, h.pair, h.loading, h.nvOps, h.calib⟩
theorem Chip.Only.setPend (h : c.Only l d) (x : List Pend) (m : Part.pend ∈ l := by decide) : c.Only l (d.setPend x) :=
  ⟨h.st, h.fromRunning, h.regs, .inl m, h.counters, h.snaps, h.answer, h.freeCtr, h.aon, h.power, h.clk, h.time, h.ports, h.evq, h.nextEvent, h.noticeSeq, h.errs, h.sel, h.ctxs, h.was, h.feeds, h.sramOps, h.layout, h.layoutOld, h.sched, h.colour, h.scan, h.chains, h.dmx, h.resend, h.resendMs, h.gang, h.emul, h.pair, h.loading, h.nvOps, h.calib⟩
theorem Chip.Only.setCounters (h : c.Only l d) (x : SMap Nat) (m : Part.counters ∈ l := by decide) : c.Only l (d.setCounters x) :=
  ⟨h.st, h.fromRunning, h.regs, h.pend, .inl m, h.snaps, h.answer, h.freeCtr, h.aon, h.power, h.clk, h.time, h.ports, h.evq, h.nextEvent, h.noticeSeq, h.errs, h.sel, h.ctxs, h.was, h.feeds, h.sramOps, h.layout, h.layoutOld, h.sched, h.colour, h.scan, h.chains, h.dmx, h.resend, h.resendMs, h.gang, h.emul, h.pair, h.loading, h.nvOps, h.calib⟩
theorem Chip.Only.setSnaps (h : c.Only l d) (x : SMap Nat) (m : Part.snaps ∈ l := by decide) : c.Only l (d.setSnaps x) :=
  ⟨h.st, h.fromRunning, h.regs, h.pend, h.counters, .inl m, h.answer, h.freeCtr, h.aon, h.power, h.clk, h.time, h.ports, h.evq, h.nextEvent, h.noticeSeq, h.errs, h.sel, h.ctxs, h.was, h.feeds, h.sramOps, h.layout, h.layoutOld, h.sched, h.colour, h.scan, h.chains, h.dmx, h.resend, h.resendMs, h.gang, h.emul, h.pair, h.loading, h.nvOps, h.calib⟩
theorem Chip.Only.setAnswer (h : c.Only l d) (x : Answer) (m : Part.answer ∈ l := by decide) : c.Only l (d.setAnswer x) :=
  ⟨h.st, h.fromRunning, h.regs, h.pend, h.counters, h.snaps, .inl m, h.freeCtr, h.aon, h.power, h.clk, h.time, h.ports, h.evq, h.nextEvent, h.noticeSeq, h.errs, h.sel, h.ctxs, h.was, h.feeds, h.sramOps, h.layout, h.layoutOld, h.sched, h.colour, h.scan, h.chains, h.dmx, h.resend, h.resendMs, h.gang, h.emul, h.pair, h.loading, h.nvOps, h.calib⟩
theorem Chip.Only.setFreeCtr (h : c.Only l d) (x : Nat) (m : Part.freeCtr ∈ l := by decide) : c.Only l (d.setFreeCtr x) :=
  ⟨h.st, h.fromRunning, h.regs, h.pend, h.counters, h.snaps, h.answer, .inl m, h.aon, h.power, h.clk, h.time, h.ports, h.evq, h.nextEvent, h.noticeSeq, h.errs, h.sel, h.ctxs, h.was, h.feeds, h.sramOps, h.layout, h.layoutOld, h.sched, h.colour, h.scan, h.chains, h.dmx, h.resend, h.resendMs, h.gang, h.emul, h.pair, h.loading, h.nvOps, h.calib⟩
theorem Chip.Only.setAon (h : c.Only l d) (x : Aon) (m : Part.aon ∈ l := by decide) : c.Only l (d.setAon x) :=
  ⟨h.st, h.fromRunning, h.regs, h.pend, h.counters, h.snaps, h.answer, h.freeCtr, .inl m, h.power, h.clk, h.time, h.ports, h.evq, h.nextEvent, h.noticeSeq, h.errs, h.sel, h.ctxs, h.was, h.feeds, h.sramOps, h.layout, h.layoutOld, h.sched, h.colour, h.scan, h.chains, h.dmx, h.resend, h.resendMs, h.gang, h.emul, h.pair, h.loading, h.nvOps, h.calib⟩
theorem Chip.Only.setPower (h : c.Only l d) (x : Power) (m : Part.power ∈ l := by decide) : c.Only l (d.setPower x) :=
  ⟨h.st, h.fromRunning, h.regs, h.pend, h.counters, h.snaps, h.answer, h.freeCtr, h.aon, .inl m, h.clk, h.time, h.ports, h.evq, h.nextEvent, h.noticeSeq, h.errs, h.sel, h.ctxs, h.was, h.feeds, h.sramOps, h.layout, h.layoutOld, h.sched, h.colour, h.scan, h.chains, h.dmx, h.resend, h.resendMs, h.gang, h.emul, h.pair, h.loading, h.nvOps, h.calib⟩
theorem Chip.Only.setClk (h : c.Only l d) (x : Clk) (m : Part.clk ∈ l := by decide) : c.Only l (d.setClk x) :=
  ⟨h.st, h.fromRunning, h.regs, h.pend, h.counters, h.snaps, h.answer, h.freeCtr, h.aon, h.power, .inl m, h.time, h.ports, h.evq, h.nextEvent, h.noticeSeq, h.errs, h.sel, h.ctxs, h.was, h.feeds, h.sramOps, h.layout, h.layoutOld, h.sched, h.colour, h.scan, h.chains, h.dmx, h.resend, h.resendMs, h.gang, h.emul, h.pair, h.loading, h.nvOps, h.calib⟩
theorem Chip.Only.setTime (h : c.Only l d) (x : Time) (m : Part.time ∈ l := by decide) : c.Only l (d.setTime x) :=
  ⟨h.st, h.fromRunning, h.regs, h.pend, h.counters, h.snaps, h.answer, h.freeCtr, h.aon, h.power, h.clk, .inl m, h.ports, h.evq, h.nextEvent, h.noticeSeq, h.errs, h.sel, h.ctxs, h.was, h.feeds, h.sramOps, h.layout, h.layoutOld, h.sched, h.colour, h.scan, h.chains, h.dmx, h.resend, h.resendMs, h.gang, h.emul, h.pair, h.loading, h.nvOps, h.calib⟩
theorem Chip.Only.setPorts (h : c.Only l d) (x : Vector Port 2) (m : Part.ports ∈ l := by decide) : c.Only l (d.setPorts x) :=
  ⟨h.st, h.fromRunning, h.regs, h.pend, h.counters, h.snaps, h.answer, h.freeCtr, h.aon, h.power, h.clk, h.time, .inl m, h.evq, h.nextEvent, h.noticeSeq, h.errs, h.sel, h.ctxs, h.was, h.feeds, h.sramOps, h.layout, h.layoutOld, h.sched, h.colour, h.scan, h.chains, h.dmx, h.resend, h.resendMs, h.gang, h.emul, h.pair, h.loading, h.nvOps, h.calib⟩
theorem Chip.Only.setEvq (h : c.Only l d) (x : List EventRec) (m : Part.evq ∈ l := by decide) : c.Only l (d.setEvq x) :=
  ⟨h.st, h.fromRunning, h.regs, h.pend, h.counters, h.snaps, h.answer, h.freeCtr, h.aon, h.power, h.clk, h.time, h.ports, .inl m, h.nextEvent, h.noticeSeq, h.errs, h.sel, h.ctxs, h.was, h.feeds, h.sramOps, h.layout, h.layoutOld, h.sched, h.colour, h.scan, h.chains, h.dmx, h.resend, h.resendMs, h.gang, h.emul, h.pair, h.loading, h.nvOps, h.calib⟩
theorem Chip.Only.setNextEvent (h : c.Only l d) (x : Nat) (m : Part.nextEvent ∈ l := by decide) : c.Only l (d.setNextEvent x) :=
  ⟨h.st, h.fromRunning, h.regs, h.pend, h.counters, h.snaps, h.answer, h.freeCtr, h.aon, h.power, h.clk, h.time, h.ports, h.evq, .inl m, h.noticeSeq, h.errs, h.sel, h.ctxs, h.was, h.feeds, h.sramOps, h.layout, h.layoutOld, h.sched, h.colour, h.scan, h.chains, h.dmx, h.resend, h.resendMs, h.gang, h.emul, h.pair, h.loading, h.nvOps, h.calib⟩
theorem Chip.Only.setNoticeSeq (h : c.Only l d) (x : Nat) (m : Part.noticeSeq ∈ l := by decide) : c.Only l (d.setNoticeSeq x) :=
  ⟨h.st, h.fromRunning, h.regs, h.pend, h.counters, h.snaps, h.answer, h.freeCtr, h.aon, h.power, h.clk, h.time, h.ports, h.evq, h.nextEvent, .inl m, h.errs, h.sel, h.ctxs, h.was, h.feeds, h.sramOps, h.layout, h.layoutOld, h.sched, h.colour, h.scan, h.chains, h.dmx, h.resend, h.resendMs, h.gang, h.emul, h.pair, h.loading, h.nvOps, h.calib⟩
theorem Chip.Only.setErrs (h : c.Only l d) (x : Errs) (m : Part.errs ∈ l := by decide) : c.Only l (d.setErrs x) :=
  ⟨h.st, h.fromRunning, h.regs, h.pend, h.counters, h.snaps, h.answer, h.freeCtr, h.aon, h.power, h.clk, h.time, h.ports, h.evq, h.nextEvent, h.noticeSeq, .inl m, h.sel, h.ctxs, h.was, h.feeds, h.sramOps, h.layout, h.layoutOld, h.sched, h.colour, h.scan, h.chains, h.dmx, h.resend, h.resendMs, h.gang, h.emul, h.pair, h.loading, h.nvOps, h.calib⟩
theorem Chip.Only.setSel (h : c.Only l d) (x : Selul) (m : Part.sel ∈ l := by decide) : c.Only l (d.setSel x) :=
  ⟨h.st, h.fromRunning, h.regs, h.pend, h.counters, h.snaps, h.answer, h.freeCtr, h.aon, h.power, h.clk, h.time, h.ports, h.evq, h.nextEvent, h.noticeSeq, h.errs, .inl m, h.ctxs, h.was, h.feeds, h.sramOps, h.layout, h.layoutOld, h.sched, h.colour, h.scan, h.chains, h.dmx, h.resend, h.resendMs, h.gang, h.emul, h.pair, h.loading, h.nvOps, h.calib⟩
theorem Chip.Only.setCtxs (h : c.Only l d) (x : SMap Ctx) (m : Part.ctxs ∈ l := by decide) : c.Only l (d.setCtxs x) :=
  ⟨h.st, h.fromRunning, h.regs, h.pend, h.counters, h.snaps, h.answer, h.freeCtr, h.aon, h.power, h.clk, h.time, h.ports, h.evq, h.nextEvent, h.noticeSeq, h.errs, h.sel, .inl m, h.was, h.feeds, h.sramOps, h.layout, h.layoutOld, h.sched, h.colour, h.scan, h.chains, h.dmx, h.resend, h.resendMs, h.gang, h.emul, h.pair, h.loading, h.nvOps, h.calib⟩
theorem Chip.Only.setWas (h : c.Only l d) (x : List (Int × List StagedWord)) (m : Part.was ∈ l := by decide) : c.Only l (d.setWas x) :=
  ⟨h.st, h.fromRunning, h.regs, h.pend, h.counters, h.snaps, h.answer, h.freeCtr, h.aon, h.power, h.clk, h.time, h.ports, h.evq, h.nextEvent, h.noticeSeq, h.errs, h.sel, h.ctxs, .inl m, h.feeds, h.sramOps, h.layout, h.layoutOld, h.sched, h.colour, h.scan, h.chains, h.dmx, h.resend, h.resendMs, h.gang, h.emul, h.pair, h.loading, h.nvOps, h.calib⟩
theorem Chip.Only.setFeeds (h : c.Only l d) (x : Vector Feed 4) (m : Part.feeds ∈ l := by decide) : c.Only l (d.setFeeds x) :=
  ⟨h.st, h.fromRunning, h.regs, h.pend, h.counters, h.snaps, h.answer, h.freeCtr, h.aon, h.power, h.clk, h.time, h.ports, h.evq, h.nextEvent, h.noticeSeq, h.errs, h.sel, h.ctxs, h.was, .inl m, h.sramOps, h.layout, h.layoutOld, h.sched, h.colour, h.scan, h.chains, h.dmx, h.resend, h.resendMs, h.gang, h.emul, h.pair, h.loading, h.nvOps, h.calib⟩
theorem Chip.Only.setSramOps (h : c.Only l d) (x : List SramOp) (m : Part.sramOps ∈ l := by decide) : c.Only l (d.setSramOps x) :=
  ⟨h.st, h.fromRunning, h.regs, h.pend, h.counters, h.snaps, h.answer, h.freeCtr, h.aon, h.power, h.clk, h.time, h.ports, h.evq, h.nextEvent, h.noticeSeq, h.errs, h.sel, h.ctxs, h.was, h.feeds, .inl m, h.layout, h.layoutOld, h.sched, h.colour, h.scan, h.chains, h.dmx, h.resend, h.resendMs, h.gang, h.emul, h.pair, h.loading, h.nvOps, h.calib⟩
theorem Chip.Only.setLayout (h : c.Only l d) (x : List Nat) (m : Part.layout ∈ l := by decide) : c.Only l (d.setLayout x) :=
  ⟨h.st, h.fromRunning, h.regs, h.pend, h.counters, h.snaps, h.answer, h.freeCtr, h.aon, h.power, h.clk, h.time, h.ports, h.evq, h.nextEvent, h.noticeSeq, h.errs, h.sel, h.ctxs, h.was, h.feeds, h.sramOps, .inl m, h.layoutOld, h.sched, h.colour, h.scan, h.chains, h.dmx, h.resend, h.resendMs, h.gang, h.emul, h.pair, h.loading, h.nvOps, h.calib⟩
theorem Chip.Only.setLayoutOld (h : c.Only l d) (x : Bool) (m : Part.layoutOld ∈ l := by decide) : c.Only l (d.setLayoutOld x) :=
  ⟨h.st, h.fromRunning, h.regs, h.pend, h.counters, h.snaps, h.answer, h.freeCtr, h.aon, h.power, h.clk, h.time, h.ports, h.evq, h.nextEvent, h.noticeSeq, h.errs, h.sel, h.ctxs, h.was, h.feeds, h.sramOps, h.layout, .inl m, h.sched, h.colour, h.scan, h.chains, h.dmx, h.resend, h.resendMs, h.gang, h.emul, h.pair, h.loading, h.nvOps, h.calib⟩
theorem Chip.Only.setSched (h : c.Only l d) (x : Sched) (m : Part.sched ∈ l := by decide) : c.Only l (d.setSched x) :=
  ⟨h.st, h.fromRunning, h.regs, h.pend, h.counters, h.snaps, h.answer, h.freeCtr, h.aon, h.power, h.clk, h.time, h.ports, h.evq, h.nextEvent, h.noticeSeq, h.errs, h.sel, h.ctxs, h.was, h.feeds, h.sramOps, h.layout, h.layoutOld, .inl m, h.colour, h.scan, h.chains, h.dmx, h.resend, h.resendMs, h.gang, h.emul, h.pair, h.loading, h.nvOps, h.calib⟩
theorem Chip.Only.setColour (h : c.Only l d) (x : Colour) (m : Part.colour ∈ l := by decide) : c.Only l (d.setColour x) :=
  ⟨h.st, h.fromRunning, h.regs, h.pend, h.counters, h.snaps, h.answer, h.freeCtr, h.aon, h.power, h.clk, h.time, h.ports, h.evq, h.nextEvent, h.noticeSeq, h.errs, h.sel, h.ctxs, h.was, h.feeds, h.sramOps, h.layout, h.layoutOld, h.sched, .inl m, h.scan, h.chains, h.dmx, h.resend, h.resendMs, h.gang, h.emul, h.pair, h.loading, h.nvOps, h.calib⟩
theorem Chip.Only.setScan (h : c.Only l d) (x : Scan) (m : Part.scan ∈ l := by decide) : c.Only l (d.setScan x) :=
  ⟨h.st, h.fromRunning, h.regs, h.pend, h.counters, h.snaps, h.answer, h.freeCtr, h.aon, h.power, h.clk, h.time, h.ports, h.evq, h.nextEvent, h.noticeSeq, h.errs, h.sel, h.ctxs, h.was, h.feeds, h.sramOps, h.layout, h.layoutOld, h.sched, h.colour, .inl m, h.chains, h.dmx, h.resend, h.resendMs, h.gang, h.emul, h.pair, h.loading, h.nvOps, h.calib⟩
theorem Chip.Only.setChains (h : c.Only l d) (x : Chains) (m : Part.chains ∈ l := by decide) : c.Only l (d.setChains x) :=
  ⟨h.st, h.fromRunning, h.regs, h.pend, h.counters, h.snaps, h.answer, h.freeCtr, h.aon, h.power, h.clk, h.time, h.ports, h.evq, h.nextEvent, h.noticeSeq, h.errs, h.sel, h.ctxs, h.was, h.feeds, h.sramOps, h.layout, h.layoutOld, h.sched, h.colour, h.scan, .inl m, h.dmx, h.resend, h.resendMs, h.gang, h.emul, h.pair, h.loading, h.nvOps, h.calib⟩
theorem Chip.Only.setDmx (h : c.Only l d) (x : Vector DmxPort 4) (m : Part.dmx ∈ l := by decide) : c.Only l (d.setDmx x) :=
  ⟨h.st, h.fromRunning, h.regs, h.pend, h.counters, h.snaps, h.answer, h.freeCtr, h.aon, h.power, h.clk, h.time, h.ports, h.evq, h.nextEvent, h.noticeSeq, h.errs, h.sel, h.ctxs, h.was, h.feeds, h.sramOps, h.layout, h.layoutOld, h.sched, h.colour, h.scan, h.chains, .inl m, h.resend, h.resendMs, h.gang, h.emul, h.pair, h.loading, h.nvOps, h.calib⟩
theorem Chip.Only.setResend (h : c.Only l d) (x : List Resend) (m : Part.resend ∈ l := by decide) : c.Only l (d.setResend x) :=
  ⟨h.st, h.fromRunning, h.regs, h.pend, h.counters, h.snaps, h.answer, h.freeCtr, h.aon, h.power, h.clk, h.time, h.ports, h.evq, h.nextEvent, h.noticeSeq, h.errs, h.sel, h.ctxs, h.was, h.feeds, h.sramOps, h.layout, h.layoutOld, h.sched, h.colour, h.scan, h.chains, h.dmx, .inl m, h.resendMs, h.gang, h.emul, h.pair, h.loading, h.nvOps, h.calib⟩
theorem Chip.Only.setResendMs (h : c.Only l d) (x : Nat × Nat) (m : Part.resendMs ∈ l := by decide) : c.Only l (d.setResendMs x) :=
  ⟨h.st, h.fromRunning, h.regs, h.pend, h.counters, h.snaps, h.answer, h.freeCtr, h.aon, h.power, h.clk, h.time, h.ports, h.evq, h.nextEvent, h.noticeSeq, h.errs, h.sel, h.ctxs, h.was, h.feeds, h.sramOps, h.layout, h.layoutOld, h.sched, h.colour, h.scan, h.chains, h.dmx, h.resend, .inl m, h.gang, h.emul, h.pair, h.loading, h.nvOps, h.calib⟩
theorem Chip.Only.setGang (h : c.Only l d) (x : Gang) (m : Part.gang ∈ l := by decide) : c.Only l (d.setGang x) :=
  ⟨h.st, h.fromRunning, h.regs, h.pend, h.counters, h.snaps, h.answer, h.freeCtr, h.aon, h.power, h.clk, h.time, h.ports, h.evq, h.nextEvent, h.noticeSeq, h.errs, h.sel, h.ctxs, h.was, h.feeds, h.sramOps, h.layout, h.layoutOld, h.sched, h.colour, h.scan, h.chains, h.dmx, h.resend, h.resendMs, .inl m, h.emul, h.pair, h.loading, h.nvOps, h.calib⟩
theorem Chip.Only.setEmul (h : c.Only l d) (x : Emul) (m : Part.emul ∈ l := by decide) : c.Only l (d.setEmul x) :=
  ⟨h.st, h.fromRunning, h.regs, h.pend, h.counters, h.snaps, h.answer, h.freeCtr, h.aon, h.power, h.clk, h.time, h.ports, h.evq, h.nextEvent, h.noticeSeq, h.errs, h.sel, h.ctxs, h.was, h.feeds, h.sramOps, h.layout, h.layoutOld, h.sched, h.colour, h.scan, h.chains, h.dmx, h.resend, h.resendMs, h.gang, .inl m, h.pair, h.loading, h.nvOps, h.calib⟩
theorem Chip.Only.setPair (h : c.Only l d) (x : Pair) (m : Part.pair ∈ l := by decide) : c.Only l (d.setPair x) :=
  ⟨h.st, h.fromRunning, h.regs, h.pend, h.counters, h.snaps, h.answer, h.freeCtr, h.aon, h.power, h.clk, h.time, h.ports, h.evq, h.nextEvent, h.noticeSeq, h.errs, h.sel, h.ctxs, h.was, h.feeds, h.sramOps, h.layout, h.layoutOld, h.sched, h.colour, h.scan, h.chains, h.dmx, h.resend, h.resendMs, h.gang, h.emul, .inl m, h.loading, h.nvOps, h.calib⟩
theorem Chip.Only.setLoading (h : c.Only l d) (x : Load) (m : Part.loading ∈ l := by decide) : c.Only l (d.setLoading x) :=
  ⟨h.st, h.fromRunning, h.regs, h.pend, h.counters, h.snaps, h.answer, h.freeCtr, h.aon, h.power, h.clk, h.time, h.ports, h.evq, h.nextEvent, h.noticeSeq, h.errs, h.sel, h.ctxs, h.was, h.feeds, h.sramOps, h.layout, h.layoutOld, h.sched, h.colour, h.scan, h.chains, h.dmx, h.resend, h.resendMs, h.gang, h.emul, h.pair, .inl m, h.nvOps, h.calib⟩
theorem Chip.Only.setNvOps (h : c.Only l d) (x : List NvOp) (m : Part.nvOps ∈ l := by decide) : c.Only l (d.setNvOps x) :=
  ⟨h.st, h.fromRunning, h.regs, h.pend, h.counters, h.snaps, h.answer, h.freeCtr, h.aon, h.power, h.clk, h.time, h.ports, h.evq, h.nextEvent, h.noticeSeq, h.errs, h.sel, h.ctxs, h.was, h.feeds, h.sramOps, h.layout, h.layoutOld, h.sched, h.colour, h.scan, h.chains, h.dmx, h.resend, h.resendMs, h.gang, h.emul, h.pair, h.loading, .inl m, h.calib⟩
theorem Chip.Only.setCalib (h : c.Only l d) (x : Calib) (m : Part.calib ∈ l := by decide) : c.Only l (d.setCalib x) :=
  ⟨h.st, h.fromRunning, h.regs, h.pend, h.counters, h.snaps, h.answer, h.freeCtr, h.aon, h.power, h.clk, h.time, h.ports, h.evq, h.nextEvent, h.noticeSeq, h.errs, h.sel, h.ctxs, h.was, h.feeds, h.sramOps, h.layout, h.layoutOld, h.sched, h.colour, h.scan, h.chains, h.dmx, h.resend, h.resendMs, h.gang, h.emul, h.pair, h.loading, h.nvOps, .inl m⟩

/-! Single updates, and the operations on events. -/

theorem Chip.sendLocal_only (c : Chip) (p : PortIx) (f : TxMsg) : c.Only eventParts (c.sendLocal p f) := by
  unfold Chip.sendLocal
  exact .choice _ (.bump (.refl _ c) ..) (.choice _ (.latch (.refl _ c) _) (.setPort (.refl _ c) ..))

theorem Chip.sendNotice_only (c : Chip) (x : EventRec) : c.Only eventParts (c.sendNotice x) := by
  have one : ∀ (c : Chip) (p : PortIx) (f : TxMsg),
      c.Only eventParts (if c.linkUp p then c.sendLocal p f else c) :=
    fun c p f => .choice _ (c.sendLocal_only p f) (.refl _ c)
  unfold Chip.sendNotice
  refine .choice _ ?_ (.refl _ c)
  exact (((one c 0 _).trans (one _ 1 _)).bump _ _).setNoticeSeq _

theorem Chip.message_only (c : Chip) (t a v : Nat) : c.Only eventParts (c.message t a v) := by
  unfold Chip.message
  exact .choice _ (.refl _ c) (.choice _ (.setEmul (.refl _ c) _) (.setEmul (.refl _ c) _))

theorem Chip.eventMessage_only (c : Chip) (x : EventRec) : c.Only eventParts (c.eventMessage x) := by
  unfold Chip.eventMessage
  repeat' first | exact c.message_only .. | exact .refl _ c | apply Chip.Only.choice

theorem Chip.noteSignal_only (c : Chip) (x : EventRec) : c.Only eventParts (c.noteSignal x) := by
  unfold Chip.noteSignal
  exact .choice _ (.setGang (.refl _ c) _) (.refl _ c)

/-- An event is placed: nothing but what `eventParts` lists changes. -/
theorem Chip.placeEvent_only (c : Chip) (type prio cause unit argA argB frame value : Nat) :
    c.Only eventParts (c.placeEvent type prio cause unit argA argB frame value) := by
  unfold Chip.placeEvent
  refine .choice _ ?_ ?_
  · exact (((Chip.Only.setNextEvent (.refl _ c) _).latch _).bump _ _).trans (Chip.eventMessage_only ..)
  · exact (((Chip.Only.setEvq (.setNextEvent (.refl _ c) _) _).trans (Chip.sendNotice_only ..)).trans
      (Chip.eventMessage_only ..)).trans (Chip.noteSignal_only ..)

theorem Chip.event_only (c : Chip) (type prio cause unit argA argB value : Nat) :
    c.Only eventParts (c.event type prio cause unit argA argB value) := Chip.placeEvent_only ..

theorem Chip.raise_only (c : Chip) (f : Fld) (k : Chip → Chip) (h : ∀ d : Chip, d.Only eventParts (k d)) :
    c.Only eventParts (c.raise f k) := by
  unfold Chip.raise
  exact .choice _ (.refl _ c) ((Chip.Only.latch (.refl _ c) f).trans (h _))

/-! Registers and counters. -/

theorem Chip.sameRegsBut.refl (ws : List Nat) (c : Chip) : c.sameRegsBut c ws := fun _ _ => rfl

theorem Chip.sameRegsBut.trans {ws : List Nat} (h : c.sameRegsBut d ws) (k : d.sameRegsBut e ws) : c.sameRegsBut e ws :=
  fun a ha => (k a ha).trans (h a ha)

theorem Chip.sameRegsBut.same {ws : List Nat} (h : c.sameRegsBut d ws) (k : e.regs = d.regs) : c.sameRegsBut e ws :=
  fun a ha => by
    have : e.reg a = d.reg a := by unfold Chip.reg; rw [k]
    exact this.trans (h a ha)

theorem Chip.sameRegsBut.put {ws : List Nat} (h : c.sameRegsBut d ws) (f : Fld) (v : Nat) (m : f.addr ∈ ws) :
    c.sameRegsBut (d.put f v) ws :=
  fun a ha => (Chip.reg_put_ne d f v (fun x => ha (by rw [x]; exact m))).trans (h a ha)

theorem Chip.sameRegsBut.setReg {ws : List Nat} (h : c.sameRegsBut d ws) (b : Nat) (w : Word) (m : b ∈ ws) :
    c.sameRegsBut (d.setReg b w) ws :=
  fun a ha => (Chip.reg_setReg_ne d w (fun x => ha (by rw [x]; exact m))).trans (h a ha)

theorem Chip.sameRegsBut.choice {ws : List Nat} (p : Prop) [Decidable p] (h : c.sameRegsBut d ws)
    (k : c.sameRegsBut e ws) : c.sameRegsBut (if p then d else e) ws := by split <;> assumption

/-- The registers that the placing of an event may write: the overrun flags of the event queue and of the transmit
queues. -/
def eventRegs : List Nat := [0x118, 0x3000C, 0x3800C]

theorem Chip.sendLocal_regs (c : Chip) (p : PortIx) (f : TxMsg) : c.sameRegsBut (c.sendLocal p f) eventRegs := by
  unfold Chip.sendLocal
  refine .choice _ (.same (.refl _ c) rfl) (.choice _ (.put (.refl _ c) _ _ ?_) (.same (.refl _ c) rfl))
  revert p; decide

theorem Chip.message_regs (c : Chip) (t a v : Nat) : (c.message t a v).regs = c.regs := by
  unfold Chip.message
  repeat' split
  all_goals rfl

theorem Chip.eventMessage_regs (c : Chip) (x : EventRec) : (c.eventMessage x).regs = c.regs := by
  unfold Chip.eventMessage
  repeat' split
  all_goals first | exact c.message_regs .. | rfl

theorem Chip.sendNotice_regs (c : Chip) (x : EventRec) : c.sameRegsBut (c.sendNotice x) eventRegs := by
  have one : ∀ (c : Chip) (p : PortIx) (f : TxMsg),
      c.sameRegsBut (if c.linkUp p then c.sendLocal p f else c) eventRegs :=
    fun c p f => .choice _ (c.sendLocal_regs p f) (.refl _ c)
  unfold Chip.sendNotice
  refine .choice _ ?_ (.refl _ c)
  exact .same ((one c 0 _).trans (one _ 1 _)) rfl

theorem Chip.noteSignal_regs (c : Chip) (x : EventRec) : (c.noteSignal x).regs = c.regs := by
  unfold Chip.noteSignal
  split <;> rfl

/-- An event is placed: no register changes but the overrun flags. -/
theorem Chip.placeEvent_regs (c : Chip) (type prio cause unit argA argB frame value : Nat) :
    c.sameRegsBut (c.placeEvent type prio cause unit argA argB frame value) eventRegs := by
  unfold Chip.placeEvent
  refine .choice _ ?_ ?_
  · refine .same ?_ (Chip.eventMessage_regs ..)
    exact .same (.put (.same (.refl _ c) rfl) _ _ (by simp [eventRegs, ID_SEL_EVENT.EVQ_OVERRUN, Fld.bit])) rfl
  · refine .same (.same ?_ (Chip.eventMessage_regs ..)) (Chip.noteSignal_regs ..)
    exact (Chip.sameRegsBut.same (.refl _ c) rfl).trans (Chip.sendNotice_regs _ _)

theorem Chip.event_regs (c : Chip) (type prio cause unit argA argB value : Nat) :
    c.sameRegsBut (c.event type prio cause unit argA argB value) eventRegs := Chip.placeEvent_regs _ _ _ _ _ _ _ _ _

/-- A field outside the registers that may differ reads as before. -/
theorem Chip.sameRegsBut.get {ws : List Nat} (h : c.sameRegsBut d ws) (f : Fld) (m : f.addr ∉ ws) : d.get f = c.get f := by
  unfold Chip.get
  rw [h _ m]

theorem Chip.sameCountersBut.bump {ws : List Nat} (h : c.sameCountersBut d ws) (a n : Nat) (m : a ∈ ws) :
    c.sameCountersBut (d.bump a n) ws :=
  fun b hb => (Chip.count_bump_ne d n (fun x => hb (by rw [x]; exact m))).trans (h b hb)

end Sys2Proof.Machine
end

