-- ==== Sys2Proof/Laws/Errors.lean ====
section
/-!
SUPPORT. The error log and the resets that errors end in: what the writing of an entry may change, that a log with room
holds the entry, and what an error whose containment is a reset leaves (R445, R458, R459, R462).
-/

namespace Sys2Proof.Machine

open Sys2Proof

/-- The parts that an entry of the error log may change. -/
def logParts : List Part := .errs :: eventParts

theorem Chip.raiseErr_only (c : Chip) (b : Nat) : c.Only eventParts (c.raiseErr b) :=
  c.raise_only _ _ (fun _ => Chip.event_only ..)

theorem Chip.event_log (c : Chip) (type prio cause unit argA argB value : Nat) :
    c.Only logParts (c.event type prio cause unit argA argB value) := (Chip.event_only ..).more (by decide)

theorem Chip.storeEntry_only (c : Chip) (e : LogEntry) : c.Only logParts (c.storeEntry e) := by
  unfold Chip.storeEntry
  generalize logInsert c.errs.log e = r
  have h1 : ∀ x, c.Only logParts (c.setErrs x) := fun x => .setErrs (.refl _ c) x
  have h2 : ∀ x, c.Only logParts (if r.2.1 = true then (c.setErrs x).showLog.bump (errCnt 0x00) 1 else c.setErrs x) :=
    fun x => .choice _ (.bump (.put (h1 x) _ _) _ _) (h1 x)
  have h3 : ∀ (d : Chip), c.Only logParts d →
      c.Only logParts (if e.secondary = true then d.bump (errCnt 0x08) 1 else d) := fun d h => .choice _ (.bump h _ _) h
  have h4 : ∀ (d : Chip), c.Only logParts d →
      c.Only logParts (if r.2.2 = true then (d.bump (errCnt 0x28) 1).raiseErr 0 else d) := fun d h =>
    .choice _ ((Chip.Only.bump h _ _).trans ((Chip.raiseErr_only _ 0).more (by decide))) h
  exact h4 _ (h3 _ (h2 _))

theorem Chip.entryEvent_only (c : Chip) (e : LogEntry) : c.Only logParts (c.entryEvent e) := by
  unfold Chip.entryEvent
  exact .choice _ (.refl _ c) (Chip.event_log ..)

/-- An entry is written: nothing but what `logParts` lists changes. -/
theorem Chip.writeLog_only (c : Chip) (e : LogEntry) : c.Only logParts (c.writeLog e) :=
  (c.storeEntry_only _).trans (Chip.entryEvent_only _ _)

theorem Chip.setOutcome_only (c : Chip) (q : Nat) (o : ErrOutcome) : c.Only logParts (c.setOutcome q o) :=
  Chip.Only.setErrs (.refl _ c) _

theorem Chip.showEngine_only (c : Chip) : c.Only [.regs] c.showEngine :=
  .put (.put (.refl _ c) _ _) _ _

theorem Chip.skipDetection_only (c : Chip) : c.Only eventParts c.skipDetection :=
  (Chip.Only.bump (.refl _ c) _ _).trans (Chip.raise_only _ _ _ (fun _ => Chip.event_only ..))

/-- What a change of the display may change: the scan engines, and what an event changes. -/
def displayParts : List Part := .scan :: eventParts

theorem Chip.setDisplay_only (c : Chip) (d : Display) : c.Only displayParts (c.setDisplay d) := by
  have show_ : ∀ (c : Chip) x, c.Only displayParts (c.setScan x).showEngine := fun c x =>
    (Chip.Only.setScan (.refl _ c) _).trans ((Chip.showEngine_only _).more (by decide))
  unfold Chip.setDisplay
  exact .choice _ (show_ c _)
    ((Chip.Only.fold _ (fun c _ => c.skipDetection_only.more (by decide)) _ c).trans (show_ _ _))

theorem Chip.blankOutputs_only (c : Chip) : c.Only displayParts c.blankOutputs := c.setDisplay_only _

theorem Chip.storeEntry_log (c : Chip) (e : LogEntry) (h : c.errs.log.length < 128) :
    (c.storeEntry e).errs.log = c.errs.log ++ [e] := by
  unfold Chip.storeEntry logInsert
  simp only [h, if_true]
  cases e.secondary <;> simp [Chip.showLog]

/-- A log with room holds the entry written, at its end. -/
theorem Chip.writeLog_log (c : Chip) (e : LogEntry) (h : c.errs.log.length < 128) :
    (c.writeLog e).errs.log = c.errs.log ++ [c.stampEntry e] := by
  unfold Chip.writeLog
  have k : ∀ d : Chip, ∀ e, (d.entryEvent e).errs = d.errs := by
    intro d e
    unfold Chip.entryEvent
    split
    · rfl
    · exact (Chip.event_only ..).errs.resolve_left (by decide)
  rw [k, Chip.storeEntry_log c _ h]

/-- What a reset other than `POWER` leaves, taken outside Reset and Off (R509). -/
theorem Chip.takeReset_leaves (c : Chip) (cause : Nat) (h : c.st ≠ .off) (h' : c.st ≠ .reset) (hc : cause ≠ causePower) :
    (c.takeReset cause).st = .reset ∧ (c.takeReset cause).regs = [] ∧ (c.takeReset cause).evq = [] ∧
      (c.takeReset cause).sel = Selul.start ∧ (c.takeReset cause).errs.log = c.errs.log ∧ (c.takeReset cause).aon =
        { c.aon with resetCause := cause, fromDormant := false, resetCount := min (c.aon.resetCount + 1) 0xFFFF } := by
  unfold Chip.takeReset
  rw [if_neg h, if_neg (fun x => h' x.1)]
  simp only [if_neg hc, h', if_false, decide_false, Bool.and_false]
  exact ⟨rfl, rfl, rfl, rfl, trivial, trivial⟩

/-- What an error whose containment is a reset leaves: the device in Reset, its registers at their reset values, no
events and no transactions, the cause and the count in the always-on record, and the entry in the log. -/
theorem Chip.fatal_leaves (c : Chip) (code unit detail cause : Nat) (h : c.st ≠ .off) (h' : c.st ≠ .reset)
    (hc : cause ≠ causePower) :
    (c.fatal code unit detail cause).st = .reset ∧ (c.fatal code unit detail cause).regs = [] ∧
      (c.fatal code unit detail cause).evq = [] ∧ (c.fatal code unit detail cause).sel = Selul.start ∧
      (c.fatal code unit detail cause).aon =
        { c.aon with resetCause := cause, fromDormant := false, resetCount := min (c.aon.resetCount + 1) 0xFFFF } ∧
      (c.errs.log.length < 128 → ∃ e ∈ (c.fatal code unit detail cause).errs.log,
        e.code = code ∧ e.unit = unit ∧ e.outcome = .reset) := by
  have hf : c.fatal code unit detail cause =
    (((c.writeLog (plainEntry code unit detail .none)).setOutcome c.errs.nextSeq .reset).blankOutputs).takeReset cause := rfl
  have e1 : (((c.writeLog (plainEntry code unit detail .none)).setOutcome c.errs.nextSeq .reset).blankOutputs).st = c.st := by
    rw [(Chip.blankOutputs_only _).st.resolve_left (by decide), (Chip.setOutcome_only _ _ _).st.resolve_left (by decide),
      (Chip.writeLog_only _ _).st.resolve_left (by decide)]
  have e2 : (((c.writeLog (plainEntry code unit detail .none)).setOutcome c.errs.nextSeq .reset).blankOutputs).aon = c.aon := by
    rw [(Chip.blankOutputs_only _).aon.resolve_left (by decide), (Chip.setOutcome_only _ _ _).aon.resolve_left (by decide),
      (Chip.writeLog_only _ _).aon.resolve_left (by decide)]
  obtain ⟨k1, k2, k3, k4, k5, k6⟩ := Chip.takeReset_leaves _ cause (by rw [e1]; exact h) (by rw [e1]; exact h') hc
  rw [hf, k6, e2]
  refine ⟨k1, k2, k3, k4, rfl, fun hl => ?_⟩
  refine ⟨{ c.stampEntry (plainEntry code unit detail .none) with outcome := .reset }, ?_, rfl, rfl, rfl⟩
  rw [k5, (Chip.blankOutputs_only _).errs.resolve_left (by decide)]
  unfold Chip.setOutcome
  simp only [Chip.writeLog_log c _ hl, List.map_append, List.mem_append]
  right
  simp [Chip.stampEntry, plainEntry]

end Sys2Proof.Machine
end

