-- ==== Sys2Proof/Laws/Messages.lean ====
section
/-!
SUPPORT. Bytes of messages: big-endian fields, the length of a hash, and gang and pair messages, which are read back as they
were formed and are authentic under the key that formed them.
-/

namespace Sys2Proof.Machine

open Sys2Proof

theorem Chip.get_lt (c : Chip) (f : Fld) : c.get f < 2 ^ f.width := Nat.mod_lt _ (Nat.two_pow_pos _)

theorem byteOf_toNat (n : Nat) : (byteOf n).toNat = n % 256 := BitVec.toNat_ofNat ..

@[simp] theorem length_bytesBE (k n : Nat) : (bytesBE k n).length = k := by
  induction k with
  | zero => rfl
  | succ k ih => simp [bytesBE, ih]

theorem natBE_two (a b : Byte) : natBE [a, b] = a.toNat * 256 + b.toNat := by simp [natBE]

theorem natBE_four (a b c d : Byte) :
    natBE [a, b, c, d] = ((a.toNat * 256 + b.toNat) * 256 + c.toNat) * 256 + d.toNat := by simp [natBE]

theorem bytesBE_two (n : Nat) : bytesBE 2 n = [byteOf (n / 256), byteOf n] := by simp [bytesBE]

theorem bytesBE_four (n : Nat) :
    bytesBE 4 n = [byteOf (n / 2 ^ 24), byteOf (n / 2 ^ 16), byteOf (n / 2 ^ 8), byteOf n] := by simp [bytesBE]

theorem natBE_bytesBE_two (n : Nat) : natBE (bytesBE 2 n) = n % 2 ^ 16 := by
  rw [bytesBE_two, natBE_two, byteOf_toNat, byteOf_toNat]; omega

theorem natBE_bytesBE_four (n : Nat) : natBE (bytesBE 4 n) = n % 2 ^ 32 := by
  rw [bytesBE_four, natBE_four]; simp only [byteOf_toNat]; omega

theorem fieldBE_append_left (a b : List Byte) (o n : Nat) (h : o + n ≤ a.length) :
    fieldBE (a ++ b) o n = fieldBE a o n := by
  unfold fieldBE sliceB
  rw [List.drop_append_of_le_length (by omega), List.take_append_of_le_length (by simp; omega)]

theorem fieldBE_append_right (a b : List Byte) (o n : Nat) (h : a.length ≤ o) :
    fieldBE (a ++ b) o n = fieldBE b (o - a.length) n := by
  unfold fieldBE sliceB
  rw [List.drop_append, List.drop_eq_nil_of_le h, List.nil_append]

/-! The length of a hash. -/

theorem length_shaPrimes : shaPrimes.length = 64 := by decide +kernel

theorem length_shaInit : shaInit.length = 8 := by
  unfold shaInit
  rw [List.length_map, List.length_take, length_shaPrimes]
  rfl

theorem length_shaBlock (h : List Word) (b : List Byte) (k : h.length = 8) : (shaBlock h b).length = 8 := by
  unfold shaBlock
  simp only [List.length_zipWith, k]
  rfl

theorem length_shaBlocks (n : Nat) (h : List Word) (l : List Byte) (k : h.length = 8) :
    (shaBlocks n h l).length = 8 := by
  induction n generalizing h l with
  | zero => exact k
  | succ n ih => unfold shaBlocks; exact ih _ _ (length_shaBlock h _ k)

theorem length_sha256 (m : List Byte) : (sha256 m).length = 32 := by
  have h : ∀ l : List Word, (l.flatMap (fun w => bytesBE 4 w.toNat)).length = 4 * l.length := by
    intro l
    induction l with
    | nil => rfl
    | cons w l ih => rw [List.flatMap_cons, List.length_append, ih, length_bytesBE, List.length_cons]; omega
  unfold sha256
  dsimp only
  rw [h, length_shaBlocks _ _ _ length_shaInit]

theorem length_hmac256 (k m : List Byte) : (hmac256 k m).length = 32 := length_sha256 _

/-! Gang and pair messages (R374). -/

/-- The header of a message. -/
def linkHead (magic kind id src dst gseq epoch n : Nat) : List Byte :=
  bytesBE 2 magic ++ [1#8, byteOf kind] ++ bytesBE 2 id ++ [byteOf src, byteOf dst] ++ bytesBE 4 gseq
    ++ bytesBE 4 epoch ++ bytesBE 2 n ++ bytesBE 2 0

/-- The trailer of a message. -/
def linkMac (key : Option (List Byte)) (dst boot : Nat) (m : List Byte) : List Byte :=
  match key with
  | some k => (hmac256 k (m ++ (if dst = 0xFF then [] else bytesBE 4 boot))).take 16
  | none => zeroMac

theorem linkMsg_eq (magic kind id src dst gseq epoch : Nat) (key : Option (List Byte)) (boot : Nat) (body : List Byte) :
    linkMsg magic kind id src dst gseq epoch key boot body =
      linkHead magic kind id src dst gseq epoch body.length ++ (body ++ linkMac key dst boot
        (linkHead magic kind id src dst gseq epoch body.length ++ body)) := by
  unfold linkMsg linkMac linkHead
  dsimp only
  refine (List.append_assoc _ _ _).trans ?_
  cases key <;> exact rfl

@[simp] theorem length_linkHead (magic kind id src dst gseq epoch n : Nat) :
    (linkHead magic kind id src dst gseq epoch n).length = 20 := by simp [linkHead]

theorem length_linkMac (key : Option (List Byte)) (dst boot : Nat) (m : List Byte) :
    (linkMac key dst boot m).length = 16 := by
  unfold linkMac
  split
  · rw [List.length_take, length_hmac256]; rfl
  · rfl

theorem linkHead_fields (magic kind id src dst gseq epoch n : Nat) :
    let h := linkHead magic kind id src dst gseq epoch n
    fieldBE h 0 2 = magic % 2 ^ 16 ∧ fieldBE h 2 1 = 1 ∧ fieldBE h 3 1 = kind % 2 ^ 8 ∧ fieldBE h 4 2 = id % 2 ^ 16 ∧
      fieldBE h 6 1 = src % 2 ^ 8 ∧ fieldBE h 7 1 = dst % 2 ^ 8 ∧ fieldBE h 8 4 = gseq % 2 ^ 32 ∧
      fieldBE h 12 4 = epoch % 2 ^ 32 ∧ fieldBE h 16 2 = n % 2 ^ 16 := by
  simp only [linkHead, bytesBE_two, bytesBE_four, fieldBE, sliceB, List.cons_append, List.nil_append, List.drop_succ_cons,
    List.drop_zero, List.take_succ_cons, List.take_zero, natBE, List.foldl_cons, List.foldl_nil, byteOf_toNat]
  refine ⟨?_, rfl, ?_, ?_, ?_, ?_, ?_, ?_, ?_⟩ <;> omega

/-- A message is read back as it was formed. -/
theorem parseLink_linkMsg (magic kind id src dst gseq epoch : Nat) (key : Option (List Byte)) (boot : Nat) (body : List Byte)
    (hm : magic < 2 ^ 16) (hk : kind < 2 ^ 8) (hi : id < 2 ^ 16) (hs : src < 2 ^ 8) (hd : dst < 2 ^ 8)
    (hg : gseq < 2 ^ 32) (he : epoch < 2 ^ 32) (hb : body.length < 2 ^ 16) :
    parseLink magic (linkMsg magic kind id src dst gseq epoch key boot body) =
      some { kind := kind, id := id, src := src, dst := dst, gseq := gseq, epoch := epoch, body := body,
             mac := linkMac key dst boot (linkHead magic kind id src dst gseq epoch body.length ++ body),
             head := linkHead magic kind id src dst gseq epoch body.length } := by
  obtain ⟨f0, f2, f3, f4, f6, f7, f8, f12, f16⟩ := linkHead_fields magic kind id src dst gseq epoch body.length
  have hl := length_linkHead magic kind id src dst gseq epoch body.length
  rw [Nat.mod_eq_of_lt hm] at f0
  rw [Nat.mod_eq_of_lt hk] at f3
  rw [Nat.mod_eq_of_lt hi] at f4
  rw [Nat.mod_eq_of_lt hs] at f6
  rw [Nat.mod_eq_of_lt hd] at f7
  rw [Nat.mod_eq_of_lt hg] at f8
  rw [Nat.mod_eq_of_lt he] at f12
  rw [Nat.mod_eq_of_lt hb] at f16
  rw [linkMsg_eq]
  generalize hM : linkMac key dst boot (linkHead magic kind id src dst gseq epoch body.length ++ body) = mac
  have hmac : mac.length = 16 := by rw [← hM]; exact length_linkMac ..
  generalize linkHead magic kind id src dst gseq epoch body.length = h at *
  have e : ∀ o n, o + n ≤ 20 → fieldBE (h ++ (body ++ mac)) o n = fieldBE h o n :=
    fun o n hn => fieldBE_append_left _ _ _ _ (by omega)
  unfold parseLink
  simp only [e 0 2 (by decide), e 2 1 (by decide), e 3 1 (by decide), e 4 2 (by decide), e 6 1 (by decide),
    e 7 1 (by decide), e 8 4 (by decide), e 12 4 (by decide), e 16 2 (by decide), f0, f2, f3, f4, f6, f7, f8, f12, f16]
  rw [if_pos ⟨trivial, trivial, by simp [hl, hmac]; omega⟩]
  congr 2
  · unfold sliceB
    rw [List.drop_append_of_le_length (by omega), List.drop_eq_nil_of_le (by omega)]
    simp
  · rw [← List.append_assoc, show (h ++ body ++ mac).length - 16 = (h ++ body).length by simp [hmac]; omega]
    exact List.drop_left
  · rw [List.take_append_of_le_length (by omega), List.take_of_length_le (by omega)]

theorem Peer.take_fresh (p : Peer) (boot : Option Nat) (s : Nat) (h : (p.take none s).2 = .fresh) :
    (p.take boot s).2 = .fresh := by
  unfold Peer.take at *
  cases boot with
  | none => exact h
  | some b =>
    dsimp only at h ⊢
    by_cases hb : b = p.boot
    · simp only [hb, if_true]; exact h
    · simp only [hb, if_false]

theorem Peer.take_addr (p : Peer) (boot : Option Nat) (s : Nat) : (p.take boot s).1.addr = p.addr := by
  unfold Peer.take
  dsimp only
  cases boot with
  | none => dsimp only; split <;> rfl
  | some b =>
    dsimp only
    by_cases hb : b = p.boot
    · simp only [hb, if_true]; split <;> rfl
    · simp only [hb, if_false]

theorem Peer.take_boot (p : Peer) (s : Nat) : (p.take none s).1.boot = p.boot := by
  unfold Peer.take
  dsimp only
  split <;> rfl

theorem LinkIn.authentic_self (m : LinkIn) (key : List Byte) (boot : Nat)
    (h : m.mac = linkMac (some key) m.dst boot (m.head ++ m.body)) : m.authentic (some key) boot = true := by
  unfold LinkIn.authentic
  dsimp only
  rw [h]
  exact beq_self_eq_true _

/-- A gang message that the device hears is taken: its sender is known from then on, and nothing else but held deliveries of
an earlier boot of that sender changes. -/
theorem Chip.gangIn_gangMsg (c : Chip) (nv : NonVol) (kind src dst gseq epoch : Nat) (body : List Byte)
    (h : c.gangHears nv src gseq epoch = true) (hk : kind < 2 ^ 8) (hd : dst = 0xFF ∨ dst = gangAddr c)
    (hb : body.length < 2 ^ 16) (ht : kind = 1 ∨ kind = 3 → c.timeNear body = true) :
    ∃ m q g, c.gangIn nv kind (c.gangMsg nv kind src dst gseq epoch body) = (c.setGang g, some (m, .fresh)) ∧
      m.src = src ∧ m.gseq = gseq ∧ m.epoch = epoch ∧ m.body = body ∧ q.addr = src ∧
      (g = c.gang.setPeer q ∨ g = { c.gang.setPeer q with inbox := c.gang.inbox.filter (fun b => b.addr != src) }) := by
  unfold Chip.gangHears at h
  simp only [Bool.and_eq_true, decide_eq_true_eq] at h
  obtain ⟨⟨⟨⟨⟨⟨⟨_, _⟩, hin⟩, hkey⟩, hs⟩, hg⟩, he⟩, hp⟩ := h
  obtain ⟨key, hkey⟩ := Option.isSome_iff_exists.1 hkey
  have hid : c.get GNG_ID.GANG_ID < 2 ^ 16 := Chip.get_lt c GNG_ID.GANG_ID
  have ha : gangAddr c < 2 ^ 6 := Chip.get_lt c GNG_CTRL.GANG_ADDR
  have hd' : dst < 2 ^ 8 := by omega
  have hparse := parseLink_linkMsg 0x4C47 kind (c.get GNG_ID.GANG_ID) src dst gseq epoch
    (nv.keyAt (c.get GNG_ID.KEY_SLOT)) (bootId c) body (by decide) hk hid (by omega) hd' hg he hb
  unfold Chip.gangIn Chip.gangMsg
  rw [hparse, hkey]
  dsimp only
  have hdst : (dst != 0xFF && dst != gangAddr c) = false := by
    rcases hd with rfl | rfl <;> simp
  have htime : ((kind == 0x01 || kind == 0x03) && !c.timeNear body) = false := by
    cases hn : (kind == 0x01 || kind == 0x03) with
    | false => rfl
    | true =>
      simp only [Bool.or_eq_true, beq_iff_eq] at hn
      simp [ht hn]
  rw [if_neg (by simp [hin, hdst, hs]), if_neg (by rw [LinkIn.authentic_self _ key _ rfl]; decide), if_neg (by simp [htime])]
  generalize hq : Peer.take _ _ gseq = r
  have hfresh : r.2 = .fresh := by
    rw [← hq]
    apply Peer.take_fresh
    cases hpeer : c.gang.peer src with
    | none => rfl
    | some p => rw [hpeer] at hp; simpa using hp
  have haddr : r.1.addr = src := by
    rw [← hq, Peer.take_addr]
    cases hpeer : c.gang.peer src with
    | none => rfl
    | some p =>
      have := List.find?_some hpeer
      simpa using this
  obtain ⟨q, j⟩ := r
  dsimp only at hfresh haddr ⊢
  subst hfresh
  refine ⟨_, q, _, rfl, rfl, rfl, rfl, rfl, haddr, ?_⟩
  split
  · exact .inl rfl
  · exact .inr rfl

/-- A pair message that the unit hears is taken: the window of its peer moves on, and an epoch outside a heartbeat or a swap is
seen. Only a heartbeat may tell of a new start of the peer, which drops the peer's announcer window. -/
theorem Chip.pairIn_pairMsg (c : Chip) (nv : NonVol) (kind dst gseq epoch : Nat) (body : List Byte)
    (h : c.pairHears nv gseq epoch = true) (hk : kind < 2 ^ 8) (hd : dst = 0xFF ∨ dst = unitIdx c)
    (hb : body.length < 2 ^ 16) :
    ∃ m peer seen, c.pairIn nv kind (c.pairMsg nv kind dst gseq epoch body) =
        (if kind ≠ 0x11 ∧ kind ≠ 0x15 then (c.setPair { c.pair with peer := peer, announcers := seen }).seeEpoch epoch
          else c.setPair { c.pair with peer := peer, announcers := seen }, some m) ∧
      (kind ≠ 0x11 → seen = c.pair.announcers) ∧ m.gseq = gseq ∧ m.epoch = epoch ∧ m.body = body ∧ peer.isSome = (kind == 0x11 || c.pair.peer.isSome) := by
  unfold Chip.pairHears at h
  simp only [Bool.and_eq_true, decide_eq_true_eq] at h
  obtain ⟨⟨⟨⟨⟨⟨_, _⟩, hin⟩, hkey⟩, hg⟩, he⟩, hp⟩ := h
  obtain ⟨key, hkey⟩ := Option.isSome_iff_exists.1 hkey
  have hid : pairId c < 2 ^ 16 := Chip.get_lt c RED_ID.PAIR_ID
  have hu : unitIdx c < 2 ^ 1 := Chip.get_lt c RED_CTRL.UNIT_IDX
  have hd' : dst < 2 ^ 8 := by omega
  have hparse := parseLink_linkMsg 0x4C52 kind (pairId c) (1 - unitIdx c) dst gseq epoch
    (nv.keyAt (c.get RED_ID.KEY_SLOT)) (bootId c) body (by decide) hk hid (by omega) hd' hg he hb
  unfold Chip.pairIn Chip.pairMsg
  rw [hparse, hkey]
  dsimp only
  have hdst : (dst != 0xFF && dst != unitIdx c) = false := by
    rcases hd with rfl | rfl <;> simp
  have hsrc : (1 - unitIdx c == unitIdx c) = false := by rw [beq_eq_false_iff_ne]; omega
  rw [if_neg (by rw [LinkIn.authentic_self _ key _ rfl]; simp [hin, hdst, hsrc])]
  generalize hq : Peer.take _ _ gseq = r
  have hfresh : r.2 = .fresh := by
    rw [← hq]
    apply Peer.take_fresh
    cases hpeer : c.pair.peer with
    | none => rfl
    | some p => rw [hpeer] at hp; simpa using hp
  obtain ⟨q, j⟩ := r
  dsimp only at hfresh ⊢
  subst hfresh
  have hboot : kind ≠ 0x11 → (c.pair.peer.getD
      { addr := 1 - unitIdx c, boot := none, high := none, bitmap := 0, prio := none }).boot = q.boot := by
    intro hk
    have := Peer.take_boot (c.pair.peer.getD
      { addr := 1 - unitIdx c, boot := none, high := none, bitmap := 0, prio := none }) gseq
    rw [if_neg hk] at hq
    rw [hq] at this
    exact this.symm
  refine ⟨?m, if kind = 0x11 ∨ c.pair.peer.isSome = true then some q else none,
    if (c.pair.peer.getD { addr := 1 - unitIdx c, boot := none, high := none, bitmap := 0, prio := none }).boot = q.boot
      then c.pair.announcers else c.pair.announcers.filter (fun x => x.addr != pairId c * 256 + (1 - unitIdx c)),
    ?eq, ?ann, ?g, ?e, ?b, ?peer⟩
  case eq =>
    by_cases hb : (c.pair.peer.getD
        { addr := 1 - unitIdx c, boot := none, high := none, bitmap := 0, prio := none }).boot = q.boot
    · simp only [hb, if_true, true_and]; exact rfl
    · simp only [hb, if_false, true_and]; exact rfl
  case ann => intro hk; rw [if_pos (hboot hk)]
  case peer => by_cases h1 : kind = 0x11 <;> cases c.pair.peer <;> simp [h1]
  all_goals rfl

end Sys2Proof.Machine
end

