-- ==== Sys2Proof/Laws/Run.lean ====
section
/-!
SUPPORT. What follows at once from an effect: nothing, where the effect leaves a quiet chip.
-/

namespace Sys2Proof.Machine

open Sys2Proof

theorem Chip.stepTxns_quiet (c : Chip) (nv : NonVol) (before : Int)
    (h : c.sel.txns.all (fun t => t.state != .scheduled) = true) : c.stepTxns nv before = c := by
  have e : c.sel.txns.filter (fun t => t.state == .scheduled && decide (before < t.dueAt) && decide (t.dueAt ≤ c.now)) = [] := by
    rw [List.filter_eq_nil_iff]
    intro t ht
    have := List.all_eq_true.1 h t ht
    simp only [bne_iff_ne, ne_eq] at this
    simp [this]
  unfold Chip.stepTxns
  simp only [e, List.foldl_nil]

theorem Chip.quietRings_rest (c : Chip) (h : c.ringsRest = true) : c.quietRings = c := by
  unfold Chip.ringsRest at h
  unfold Chip.quietRings
  have rest : (List.range 4).all (fun f => !(c.feed f).running) = true →
      (List.range 4).foldl (fun c f => if (c.feed f).running then c.stopRing f else c) c = c := by
    intro hr
    simp only [List.all_eq_true, List.mem_range, Bool.not_eq_true'] at hr
    have e : List.range 4 = [0, 1, 2, 3] := rfl
    simp [e, hr 0 (by decide), hr 1 (by decide), hr 2 (by decide), hr 3 (by decide)]
  cases hd : c.scan.display
  all_goals
    simp only [hd] at h ⊢
    try exact rest h

/-- What follows from a quiet chip is that chip. -/
theorem Chip.finish_quiet (c : Chip) (e : RunEnv) (before : Int) (held : Bool) (h : c.quiet = true) :
    c.finish e before held = c := by
  unfold Chip.quiet at h
  simp only [Bool.and_eq_true] at h
  obtain ⟨⟨⟨⟨⟨⟨hp, ht⟩, hr⟩, hq⟩, hi⟩, hc⟩, hs⟩ := h
  have hq' : c.sel.cmdq = [] := List.isEmpty_iff.1 hq
  have hf : c.flushOdd e 65 = c := by
    unfold Chip.flushOdd
    rw [hq']
  unfold Chip.finish
  simp only [hp, if_true, Chip.stepTxns_quiet c e.nv before ht, Chip.quietRings_rest c hr, hf, hi, Bool.or_true, hc]
  unfold Chip.flushSignals
  simp only [hs, if_true]

/-- The machine after an effect that leaves a quiet chip is that chip, with the effects owed to memory and flash. -/
theorem State.run_quiet (s : State) (c : Chip) (h : c.quiet = true) : s.run c = s.put c := by
  unfold State.run
  rw [Chip.finish_quiet c _ _ _ h]

theorem State.put_chip (s : State) (c : Chip) : (s.put c).chip = (c.setSramOps []).setNvOps [] := rfl

theorem State.run_chip_quiet (s : State) (c : Chip) (h : c.quiet = true) :
    (s.run c).chip = (c.setSramOps []).setNvOps [] := by
  rw [State.run_quiet s c h, State.put_chip]

theorem State.run_tap (s : State) (c : Chip) : (s.run c).tap = s.tap := rfl

theorem State.run_pending (s : State) (c : Chip) : (s.run c).pending = s.pending := rfl

/-- Memory is as before where nothing is owed to it. -/
theorem State.put_mem (s : State) (c : Chip) (h : c.sramOps = []) : (s.put c).cal = s.cal ∧ (s.put c).sram = s.sram := by
  unfold State.put
  simp [h]

/-- Flash and fuses are as before where nothing is owed to them. -/
theorem State.put_nv (s : State) (c : Chip) (h : c.nvOps = []) : (s.put c).nv = s.nv := by
  unfold State.put
  simp [h]

/-! Turns (R571). -/

/-- A command that waits alone is in its turn. -/
theorem State.turn_alone (s : State) (i : Instr) (hp : s.pending = []) (hl : s.late = []) : s.turn i = true := by
  unfold State.turn Chip.free
  rw [hp, hl]
  simp

theorem State.inTurn_turn {s : State} {i : Instr} (r : State) (h : s.turn i = true) : s.inTurn i r = .next r := by
  unfold State.inTurn
  rw [if_pos h]

/-- A command out of its turn is put off, and nothing else happens. -/
theorem State.inTurn_late {s : State} {i : Instr} (r : State) (h : s.turn i = false) : s.inTurn i r = .next (s.putOff i) := by
  unfold State.inTurn
  rw [h]
  rfl

/-- A command that acts in every state. -/
theorem ends_act {i : Instr} {s : State} {P : Chip → Prop} (f : Chip → Chip) (h : exec i s = s.act i f) (hp : P (f s.chip)) :
    ends i s P := fun ht => ⟨f s.chip, by rw [h, State.act, State.inTurn_turn _ ht], hp⟩

/-- A command that acts where its guard holds. -/
theorem ends_when {i : Instr} {s : State} {P : Chip → Prop} (p : Bool) (f : Chip → Chip) (h : exec i s = s.when i p f)
    (hg : p = true) (hp : P (f s.chip)) : ends i s P :=
  fun ht => ⟨f s.chip, by rw [h, State.when, if_pos hg, State.inTurn_turn _ ht], hp⟩

end Sys2Proof.Machine
end

