-- ==== Sys2Proof/Laws/Step.lean ====
section
/-!
SUPPORT. What a step can do at all: every command completes, in a state that follows from some effect on the chip, or in
one that differs in the boundary-scan logic and the free values drawn.
-/

namespace Sys2Proof.Machine

open Sys2Proof

/-- What a command can make of the machine: an effect and what follows from it, a change of the boundary-scan logic, or nothing
but that it is put off. -/
def State.Shaped (s t : State) : Prop :=
  (∃ c y, t = { s.run c with tap := y }) ∨ (∃ n y, t = { s with chip := s.chip.setFreeCtr n, tap := y }) ∨ ∃ i, t = s.putOff i

theorem State.shaped_self (s : State) : s.Shaped s := .inr (.inl ⟨s.chip.freeCtr, s.tap, rfl⟩)

theorem State.shaped_run (s : State) (c : Chip) : s.Shaped (s.run c) := .inl ⟨c, s.tap, rfl⟩

theorem State.shaped_tap (s : State) (c : Chip) (y : Tap) : s.Shaped { s.run c with tap := y } := .inl ⟨c, y, rfl⟩

theorem State.shaped_inTurn (s : State) (i : Instr) (r : State) (h : s.Shaped r) : ∃ t, s.inTurn i r = .next t ∧ s.Shaped t := by
  cases hi : s.turn i
  · exact ⟨_, State.inTurn_late r hi, .inr (.inr ⟨i, rfl⟩)⟩
  · exact ⟨_, State.inTurn_turn r hi, h⟩

theorem State.shaped_act (s : State) (i : Instr) (f : Chip → Chip) : ∃ t, s.act i f = .next t ∧ s.Shaped t :=
  s.shaped_inTurn i _ (s.shaped_run _)

theorem State.shaped_when (s : State) (i : Instr) (p : Bool) (f : Chip → Chip) : ∃ t, s.when i p f = .next t ∧ s.Shaped t := by
  cases p
  · exact s.shaped_inTurn i _ s.shaped_self
  · exact s.shaped_inTurn i _ (s.shaped_run _)

theorem execTckEdge_shaped (level tms tdi : Bool) (s : State) : ∃ t, execTckEdge level tms tdi s = .next t ∧ s.Shaped t := by
  unfold execTckEdge
  split
  · exact ⟨s, rfl, s.shaped_self⟩
  · dsimp only
    split
    · exact ⟨_, rfl, .inr (.inl ⟨s.chip.freeCtr + 1, _, rfl⟩)⟩
    · exact ⟨_, rfl, .inr (.inl ⟨s.chip.freeCtr, _, rfl⟩)⟩

theorem execTrstNLow_shaped (s : State) : ∃ t, execTrstNLow s = .next t ∧ s.Shaped t :=
  ⟨_, rfl, .inr (.inl ⟨s.chip.freeCtr, _, rfl⟩)⟩

theorem execRailLost_shaped (r : Rail) (s : State) : ∃ t, execRailLost r s = .next t ∧ s.Shaped t := by
  unfold execRailLost
  generalize s.chip.railLost r = c
  refine s.shaped_inTurn _ _ ?_
  split
  · exact s.shaped_tap c _
  · exact s.shaped_run c

theorem execResetRelease_shaped (straps : BitVec 11) (banks : List BankSupply) (testEn : Bool) (s : State) :
    ∃ t, execResetRelease straps banks testEn s = .next t ∧ s.Shaped t := by
  unfold execResetRelease
  generalize s.chip.release straps.toNat banks testEn = c
  refine ⟨_, rfl, ?_⟩
  split
  · exact s.shaped_tap c _
  · exact s.shaped_run c

/-- Every command completes, and this is all that it can do. -/
theorem exec_shaped (i : Instr) (s : State) : ∃ t, exec i s = .next t ∧ s.Shaped t := by
  cases i
  case tckEdge a b c => exact execTckEdge_shaped a b c s
  case trstNLow => exact execTrstNLow_shaped s
  case railLost r => exact execRailLost_shaped r s
  case resetRelease a b c => exact execResetRelease_shaped a b c s
  all_goals
    dsimp only [exec, execGroupARailsGood, execMainRailTimeout, execPinReset, execImageStart, execPortsUp,
      execSettingsApplied, execBootListenEnd, execWatchdogExpiry, execXtalStall, execXtalGrossFreqTrip,
      execP0Loss, execP0Freq, execXtalQualified, execRecoveredQualified, execXtalQualFail,
      execWaitXtalDeadline, execPllLock, execRevertHoldExpiry, execSrcModeWrite, execXtalRestart,
      execFofsUpdate, execTrimNow, execTrimGateEnd, execAutoRetrim, execSyncReceived, execAnnounceReceivedPtp,
      execForeignMasterAgeout, execDelayReqReceived, execPdelayExchange, execSyncSend, execSyncLoss,
      execHoldExpired, execFsyncInEdge, execFsyncMissLimit, execSetGo, execTimNowRead, execTsqPop, execCapEdge,
      execCapPop, execTrigArm, execTrigFire, execTrigPulseEnd, execFrameBoundary, execFreezePoint,
      execZoneStale, execSubframeEdge, execRowSlotStart, execStagingBufferFree, execSubframeRelease,
      execItemDeadline, execCoreRequest, execItemRetire, execItemHang, execPeakClr, execTrClear, execTracePop,
      execLockFrame, execDetectionWindow, execReadbackWindow, execReadbackDone, execCfgNow, execFmapClear,
      execFmapRead, execSensorPoll, execSensorReadDone, execNtcConversion, execRxFrame, execRingBufferRelease,
      execWmHitClear, execFwdStart, execEgressIdle, execLocalTxEnqueue, execLinkUpSeen, execLinkDown,
      execSpeedSearchTimeout, execModChange, execTxFaultSeen, execArpRequest, execMcReportRepeat, execMcQuery,
      execStatsCounterRead, execWakeMatch, execSacnSyncTimeout, execSacnSourceTimeout, execSourceLost,
      execDmxRxPacket, execDmxSendInstant, execRdmResponse, execAckTimerWaitEnd, execSemExpired,
      execSemTimeout, execSelulPacket, execBroadcastReply, execHqPut, execHqGet, execHqStat, execPing,
      execIdentify, execRead, execWrite, execWriteMasked, execRegisterWrite, execTxnBegin, execTxnCommit,
      execTxnRollback, execTxnStatus, execTxnDue, execTxnTimeout, execBulkLoad, execStatsRead, execEventFetch,
      execEventAck, execTraceRead, execGateQuiesce, execGateResume, execReset, execCommandActionStart,
      execDormant, execStart, execStop, execFwBlock, execBlockBad, execFwVerify, execVerifyDone,
      execFwActivate, execActivationStart, execActCancel, execFwRevert, execSave, execSaveDone, execLcStatus,
      execLcOpen, execLcSeal, execLcPin, execRaiseFloor, execConsent, execConsentExpiry, execLcReturn,
      execReblank, execDecommission, execSetKey, execClearKey, execCalRun, execCalTrigger, execCalItemDone,
      execCalDone, execDeskewStep, execDeskewNoWindow, execCalInterpolate, execBridgeReq, execBridgeResult,
      execBridgeResultCommand, execPoll, execPollReceived, execStatusSend, execStatusReceived, execApexLost,
      execClaimSend, execClaimReceived, execApexChange, execRelayReceived, execRelayReplyReceived,
      execRelayTimeout, execSignalReceived, execAckReceived, execSignalResend, execForget, execWr, execRd,
      execStat, execMsg, execBlk, execSel, execRst, execHeartbeatSend, execHeartbeatReceived, execHbMiss,
      execPairStartListenEnd, execSnapshotSend, execSnapPartReceived, execJournalReceived, execJournalIssue,
      execPairAckReceived, execSwapNow, execSwapReceived, execSwapFail, execSwapEveryTimer,
      execAnnounceReceived, execAnnouncePeriodic, execReprovision, execErrorDetected, execHandlerComplete,
      execHandlerTimeout, execLogClear, execLogPop, execGangMemberRead, execCalSetRead, execDelayReqSend,
      execDelayRespReceived, execPtpAnnounceSend, execP0ActiveTimeout]
    with_reducible first | exact s.shaped_act _ _ | exact s.shaped_when _ _ _

/-! Memory, flash and fuses over a step. -/

theorem smWfAbove_smKeep {α : Type} [DecidableEq α] (d : Nat → α) (p : Nat → Bool) (m : SMap α) (lo : Nat)
    (w : smWfAbove d m lo = true) : smWfAbove d (smKeep p m) lo = true := by
  induction m generalizing lo with
  | nil => rfl
  | cons x m ih =>
    obtain ⟨a, v⟩ := x
    simp only [smWfAbove, Bool.and_eq_true, decide_eq_true_eq] at w
    unfold smKeep
    rw [List.filter_cons]
    split
    · simp only [smWfAbove, Bool.and_eq_true, decide_eq_true_eq]
      exact ⟨w.1, ih (a + 1) w.2⟩
    · exact smWfAbove_mono d (by omega) (ih (a + 1) w.2)

theorem SramOp.apply_wf (g : Nat) (o : SramOp) (m : SMap Byte × SMap Byte)
    (w : smWf calDefault m.1 = true ∧ smWf sramDefault m.2 = true) :
    smWf calDefault (SramOp.apply g m o).1 = true ∧ smWf sramDefault (SramOp.apply g m o).2 = true := by
  cases o with
  | store a l =>
    unfold SramOp.apply
    dsimp only
    split
    · exact ⟨smWf_smSetList _ _ _ _ _ w.1, w.2⟩
    · exact ⟨w.1, smWf_smSetList _ _ _ _ _ w.2⟩
  | zero lo hi => exact ⟨w.1, smWfAbove_smKeep sramDefault (fun a => !(decide (lo ≤ a) && decide (a < hi))) m.2 0 w.2⟩
  | resetCal => exact ⟨rfl, w.2⟩

theorem State.put_memWf (s : State) (c : Chip) (w : s.memWf = true) : (s.put c).memWf = true := by
  unfold State.memWf at *
  simp only [Bool.and_eq_true] at *
  unfold State.put
  dsimp only
  generalize c.get FST_LAYOUT_CAL.CAL_GRAN = g
  have h : ∀ (l : List SramOp) (m : SMap Byte × SMap Byte), smWf calDefault m.1 = true ∧ smWf sramDefault m.2 = true →
      smWf calDefault (l.foldl (SramOp.apply g) m).1 = true ∧ smWf sramDefault (l.foldl (SramOp.apply g) m).2 = true := by
    intro l
    induction l with
    | nil => exact fun _ h => h
    | cons o l ih => exact fun m h => ih _ (SramOp.apply_wf g o m h)
  exact h c.sramOps (s.cal, s.sram) w

theorem State.put_settled (s : State) (c : Chip) : (s.put c).settled = true := rfl

theorem NvOp.apply_floor (n : NonVol) (o : NvOp) : n.floor ≤ (NvOp.apply n o).floor := by
  cases o with
  | floor v => exact Nat.le_max_left ..
  | lifecycle v => unfold NvOp.apply; dsimp only; split <;> exact Nat.le_refl _
  | nodeSetting a b => unfold NvOp.apply; dsimp only; split <;> exact Nat.le_refl _
  | _ => exact Nat.le_refl _

theorem NvOp.apply_decommissioned (n : NonVol) (o : NvOp) (h : n.lifecycle = 4) : (NvOp.apply n o).lifecycle = 4 := by
  cases o with
  | lifecycle v => unfold NvOp.apply; simp only [h, if_true]
  | nodeSetting a b => unfold NvOp.apply; dsimp only; split <;> exact h
  | _ => exact h

/-! What the passing of a tick may change. -/

theorem Chip.edge_only (c : Chip) (o : PlannedOp) : c.Only [.scan] (c.edge o) := .setScan (.refl _ c) _

theorem Chip.edgesTo_only (c : Chip) (t : Int) : c.Only [.scan] (c.edgesTo t) := by
  unfold Chip.edgesTo
  exact .choice _ (.refl _ c) ((Chip.Only.setScan (.refl _ c) _).trans (.fold _ Chip.edge_only _ _))

theorem Chip.takeCap_only (c : Chip) (n : Nat) : c.Only tickParts (c.takeCap n) := by
  unfold Chip.takeCap
  dsimp only
  split
  · exact .refl _ c
  · exact .choice _ (.setTime (.refl _ c) _) (.choice _ (.bump (.setTime (.refl _ c) _) _ _)
      (.choice _ (.latch (.setTime (.refl _ c) _) _) (.setTime (.setTime (.refl _ c) _) _)))

theorem Chip.takeCaps_only (c : Chip) : c.Only tickParts c.takeCaps :=
  .fold _ (fun c n => .choice _ (c.takeCap_only n) (.refl _ c)) _ c

/-- A tick leaves memory, flash, the boundary-scan logic and every command that waits alone, and of the chip changes no more
than `tickParts` lists. -/
theorem State.tick_only (s : State) : s.chip.Only tickParts s.tick.chip ∧ s.tick = { s with chip := s.tick.chip } := by
  unfold State.tick
  split
  · exact ⟨(Chip.Only.setTime (.refl _ _) _).trans ((Chip.takeCaps_only _).trans ((Chip.edgesTo_only _ _).more (by decide))), rfl⟩
  · exact ⟨.refl _ _, rfl⟩

/-! What a step can do. -/

/-- A step runs one command, or passes a tick. -/
theorem step_shaped (s : State) : ∃ t, step s = .next t ∧
    (t = s.tick ∨ ∃ p l b u, State.Shaped { s with pending := p, late := l, taking := b } u ∧
      (t = u ∨ t = { u with taking := false })) := by
  unfold step
  split
  · have put : ∀ (i : Instr) (l : List Instr), ∃ t, taken (exec i { s with late := l, taking := true }) = .next t ∧
        (t = s.tick ∨ ∃ p l b u, State.Shaped { s with pending := p, late := l, taking := b } u ∧
          (t = u ∨ t = { u with taking := false })) := by
      intro i l
      obtain ⟨u, hu, k⟩ := exec_shaped i { s with late := l, taking := true }
      exact ⟨{ u with taking := false }, by rw [hu]; rfl, .inr ⟨s.pending, l, true, u, k, .inr rfl⟩⟩
    unfold stepLate
    cases s.chip.pick [] s.late with
    | some x => exact put x.1 x.2
    | none => cases s.late with
      | nil => exact ⟨_, rfl, .inl rfl⟩
      | cons i l => exact put i l
  · rename_i i rest _
    obtain ⟨u, hu, k⟩ := exec_shaped i { s with pending := rest }
    exact ⟨u, hu, .inr ⟨rest, s.late, s.taking, u, k, .inl rfl⟩⟩

/-- A relation between the contents of flash and fuses before and after each effect on them holds over every step. -/
theorem step_nv (P : NonVol → NonVol → Prop) (hr : ∀ n, P n n) (ht : ∀ a b c, P a b → P b c → P a c)
    (ho : ∀ n o, P n (NvOp.apply n o)) (s t : State) (h : step s = .next t) : P s.nv t.nv := by
  have hf : ∀ (l : List NvOp) (n : NonVol), P n (l.foldl NvOp.apply n) := by
    intro l
    induction l with
    | nil => exact hr
    | cons o l ih => exact fun n => ht _ _ _ (ho n o) (ih _)
  obtain ⟨t', h', k⟩ := step_shaped s
  rw [h'] at h
  cases h
  rcases k with rfl | ⟨p, l, b, u, k, ht'⟩
  · rw [s.tick_only.2]; exact hr _
  · have hu : P s.nv u.nv := by
      rcases k with ⟨c, y, rfl⟩ | ⟨n, y, rfl⟩ | ⟨i, rfl⟩
      · exact hf _ _
      · exact hr _
      · exact hr _
    rcases ht' with rfl | rfl <;> exact hu

/-- A tick leaves memory in its canonical form and nothing owed to memory, flash or fuses. -/
theorem State.tick_inv (s : State) (w : s.inv = true) : s.tick.inv = true := by
  unfold State.inv at *
  rw [Bool.and_eq_true] at *
  obtain ⟨k, e⟩ := s.tick_only
  refine ⟨by rw [e]; exact w.1, ?_⟩
  unfold State.settled
  rw [k.sramOps.resolve_left (by decide), k.nvOps.resolve_left (by decide)]
  exact w.2

/-- So does a command. -/
theorem State.shaped_inv (s t : State) (k : s.Shaped t) (w : s.inv = true) : t.inv = true := by
  unfold State.inv at *
  rw [Bool.and_eq_true] at *
  rcases k with ⟨c, y, rfl⟩ | ⟨n, y, rfl⟩ | ⟨i, rfl⟩
  · exact ⟨State.put_memWf s _ w.1, rfl⟩
  · exact ⟨w.1, w.2⟩
  · exact ⟨w.1, w.2⟩

end Sys2Proof.Machine
end

