-- ==== Sys2Proof/Laws/Write.lean ====
section
/-!
SUPPORT. A write of 1 to one write-only bit (R4, R5, R353): it is refused for the state, for a lock or for what the bit
does, and otherwise its action is taken and `OK` is answered; no field changes.
-/

namespace Sys2Proof.Machine

open Sys2Proof

/-- Whether a field is made of write-only bits alone. -/
def Fld.acts (f : Fld) : Bool :=
  f.addr % 4 == 0 && (badWord 1 f.addr).isNone && regHome f.addr == f.addr && f.bits % 2 ^ 32 == f.bits
    && f.bits &&& (rowOf f.addr).rw == 0 && f.bits &&& (rowOf f.addr).w1c == 0
    && f.bits &&& (rowOf f.addr).wo == f.bits && f.bits != 0

/-- The word that a write of 1 to the field writes. -/
def Fld.one (f : Fld) : StagedWord := ⟨f.addr, f.bits, f.bits⟩

theorem Chip.ans_setAnswer (c : Chip) (a : Answer) (st : Status) (ws : List Nat) :
    (c.setAnswer a).ans st ws = c.ans st ws := rfl

theorem and_sub_mask {x m r : Nat} (h : m &&& r = 0) : x &&& m &&& r = 0 := by
  rw [Nat.and_assoc, h, Nat.and_zero]

theorem or_mask {m a b : Nat} (h : m &&& (a ||| b) = 0) : m &&& a = 0 := by
  apply Nat.eq_of_testBit_eq
  intro i
  have e := congrArg (fun x => x.testBit i) h
  simp only [Nat.testBit_and, Nat.testBit_or, Nat.zero_testBit] at e ⊢
  revert e
  cases m.testBit i <;> cases a.testBit i <;> simp

theorem mask_or {m a b : Nat} (h : m &&& a = 0) (h' : m &&& b = 0) : m &&& (a ||| b) = 0 := by
  rw [Nat.and_or_distrib_left, h, h', Nat.or_self]

/-- No configuration rule judges a word that selects no read-write bit. -/
theorem Chip.ruleRefusal_act (c d : Chip) (w : StagedWord) (h : w.mask &&& (rowOf w.addr).rw = 0)
    (ha : c.actionRefusal d w = none) : c.ruleRefusal d [w] = none := by
  have hk : ∀ k : ConfigRule, k.judge d [w] = none := by
    intro k
    simp [ConfigRule.judge, firstIdx, h]
  have hr : ∀ l : List ConfigRule, l.foldl (fun r k => earlier r (k.judge d [w])) none = none := by
    intro l
    induction l with
    | nil => rfl
    | cons k l ih => rw [List.foldl_cons, hk]; exact ih
  unfold Chip.ruleRefusal Chip.actionsRefusal
  rw [hr]
  simp [firstIdx, ha, earlier]

/-- A write of 1 to a write-only bit in Stopped or Running that nothing refuses. -/
theorem Chip.writeOne_act (c : Chip) (nv : NonVol) (f : Fld) (hst : c.st = .stopped ∨ c.st = .running)
    (hf : f.acts = true) (hlock : c.lockedBy 0 f.addr = false)
    (hact : c.actionRefusal c.overlay f.one = none) :
    c.writeOne nv f = (c.actWord nv f.one).ans .ok [0xFFFFFFFF] := by
  unfold Fld.acts at hf
  simp only [Bool.and_eq_true, beq_iff_eq, bne_iff_ne, ne_eq, Option.isNone_iff_eq_none] at hf
  obtain ⟨⟨⟨⟨⟨⟨⟨h4, hbad⟩, hhome⟩, hlt⟩, hrw⟩, hw1c⟩, hwo⟩, hne⟩ := hf
  have hstage : stageWord f.addr f.bits f.bits = f.one := by
    unfold stageWord Fld.one
    rw [hhome, hlt]
  have hwr : c.writable = true := by
    unfold Chip.writable
    rcases hst with h | h <;> simp [h]
  have hnf : ¬ c.st = .fenced := by rcases hst with h | h <;> simp [h]
  have hF : f.bits &&& (rowOf f.addr).classF = 0 := by
    unfold RegRow.rw at hrw
    have h1 := or_mask hrw
    rw [Nat.or_comm] at h1
    exact or_mask h1
  have hrefW : c.wordRefusal 0 f.one = none := by
    unfold Chip.wordRefusal Fld.one
    simp only [hnf, false_and, if_false, hlock, and_sub_mask hrw, Nat.zero_and, ne_eq, not_true_eq_false, Bool.false_eq_true]
  have hputRw : ∀ d : Chip, d.putRw f.one = d := by
    intro d
    simp [Chip.putRw, Chip.applyWord, Fld.one, hrw]
  have href : c.writeRefusal 0 [f.one] = none := by
    unfold Chip.writeRefusal Chip.firstRefused
    simp only [firstIdx, hrefW, Option.isSome_none]
    simp only [Bool.false_eq_true, if_false, Option.map_none, List.foldl_cons, List.foldl_nil, hputRw]
    exact Chip.ruleRefusal_act c _ f.one hrw hact
  have hparts : parts StagedWord.partF [f.one] = [] := by
    simp [parts, StagedWord.partF, Fld.one, hF]
  have hcarry : carriesTset [] = false := rfl
  have hholds : [f.one].filter StagedWord.holds = [] := by
    simp [StagedWord.holds, Fld.one, mask_or hrw hw1c]
  have hacts : f.bits &&& f.bits &&& (rowOf f.addr).wo ≠ 0 := by rw [Nat.and_self, hwo]; exact hne
  have htake : c.takeWords nv [f.one] = (c.actWord nv f.one).setAnswer c.answer := by
    unfold Chip.takeWords
    simp only [hholds]
    have : [f.one].filter (fun w => decide (w.value &&& w.mask &&& (rowOf w.addr).wo ≠ 0)) = [f.one] := by
      simp only [Fld.one, List.filter_cons, List.filter_nil, hacts, ne_eq, not_false_eq_true, decide_true, if_true]
    simp only [this, List.foldl_cons, List.foldl_nil, Chip.takeFields, List.isEmpty_nil, if_true]
  unfold Chip.writeOne Chip.writeField
  simp only [hwr, hbad, h4, hstage]
  simp [Chip.writeNow, href, Chip.commitWords, hparts, htake, hcarry, Chip.ans_setAnswer]

/-! The action of each write-only bit (R4). -/

/-- Every write-only bit that a command of the table writes. -/
theorem acts_all : [CLK_CTRL.XTAL_RESTART, CLK_COSC_TRIM.TRIM_NOW, TIM_CTRL.SET_GO, SCH_CTRL.PEAK_CLR, SCH_TRACE_CTRL.TR_CLEAR, CHN_CTRL.CFG_NOW, CHN_CTRL.FMAP_CLEAR,
    ID_STATE_CTRL.START, ID_STATE_CTRL.STOP, FWU_CTRL.ACT_CANCEL, FWU_CTRL.SAVE, GNG_CTRL.FORGET, RED_CTRL.SWAP_NOW, RED_CTRL.REPROVISION, ERR_CTRL.LOG_CLEAR].all Fld.acts = true := by
  decide

theorem Chip.actWord_xtal_restart (c : Chip) (nv : NonVol) : c.actWord nv CLK_CTRL.XTAL_RESTART.one = c.xtalRestart := by
  simp only [Chip.actWord, show CLK_CTRL.XTAL_RESTART.one.sets CLK_CTRL.XTAL_RESTART = true from rfl, show CLK_CTRL.XTAL_RESTART.one.sets CLK_COSC_TRIM.TRIM_NOW = false from rfl, show CLK_CTRL.XTAL_RESTART.one.sets TIM_CTRL.SET_GO = false from rfl, show CLK_CTRL.XTAL_RESTART.one.sets SCH_CTRL.PEAK_CLR = false from rfl, show CLK_CTRL.XTAL_RESTART.one.sets SCH_TRACE_CTRL.TR_CLEAR = false from rfl, show CLK_CTRL.XTAL_RESTART.one.sets CHN_CTRL.CFG_NOW = false from rfl, show CLK_CTRL.XTAL_RESTART.one.sets CHN_CTRL.FMAP_CLEAR = false from rfl, show CLK_CTRL.XTAL_RESTART.one.sets ID_STATE_CTRL.START = false from rfl, show CLK_CTRL.XTAL_RESTART.one.sets ID_STATE_CTRL.STOP = false from rfl, show CLK_CTRL.XTAL_RESTART.one.sets GNG_CTRL.FORGET = false from rfl, show CLK_CTRL.XTAL_RESTART.one.sets RED_CTRL.SWAP_NOW = false from rfl, show CLK_CTRL.XTAL_RESTART.one.sets RED_CTRL.REPROVISION = false from rfl, show CLK_CTRL.XTAL_RESTART.one.sets ERR_CTRL.LOG_CLEAR = false from rfl, show CLK_CTRL.XTAL_RESTART.one.sets FWU_CTRL.SAVE = false from rfl, show CLK_CTRL.XTAL_RESTART.one.sets FWU_CTRL.ACT_CANCEL = false from rfl, show (CLK_CTRL.XTAL_RESTART.one.addr = 0x90000) = False from by decide, show (CLK_CTRL.XTAL_RESTART.one.addr = 0xC0000) = False from by decide, show (CLK_CTRL.XTAL_RESTART.one.addr = 0xE0000) = False from by decide, if_true, if_false, Bool.false_eq_true]
theorem Chip.actWord_trim_now (c : Chip) (nv : NonVol) : c.actWord nv CLK_COSC_TRIM.TRIM_NOW.one = c.trimNow := by
  simp only [Chip.actWord, show CLK_COSC_TRIM.TRIM_NOW.one.sets CLK_CTRL.XTAL_RESTART = false from rfl, show CLK_COSC_TRIM.TRIM_NOW.one.sets CLK_COSC_TRIM.TRIM_NOW = true from rfl, show CLK_COSC_TRIM.TRIM_NOW.one.sets TIM_CTRL.SET_GO = false from rfl, show CLK_COSC_TRIM.TRIM_NOW.one.sets SCH_CTRL.PEAK_CLR = false from rfl, show CLK_COSC_TRIM.TRIM_NOW.one.sets SCH_TRACE_CTRL.TR_CLEAR = false from rfl, show CLK_COSC_TRIM.TRIM_NOW.one.sets CHN_CTRL.CFG_NOW = false from rfl, show CLK_COSC_TRIM.TRIM_NOW.one.sets CHN_CTRL.FMAP_CLEAR = false from rfl, show CLK_COSC_TRIM.TRIM_NOW.one.sets ID_STATE_CTRL.START = false from rfl, show CLK_COSC_TRIM.TRIM_NOW.one.sets ID_STATE_CTRL.STOP = false from rfl, show CLK_COSC_TRIM.TRIM_NOW.one.sets GNG_CTRL.FORGET = false from rfl, show CLK_COSC_TRIM.TRIM_NOW.one.sets RED_CTRL.SWAP_NOW = false from rfl, show CLK_COSC_TRIM.TRIM_NOW.one.sets RED_CTRL.REPROVISION = false from rfl, show CLK_COSC_TRIM.TRIM_NOW.one.sets ERR_CTRL.LOG_CLEAR = false from rfl, show CLK_COSC_TRIM.TRIM_NOW.one.sets FWU_CTRL.SAVE = false from rfl, show CLK_COSC_TRIM.TRIM_NOW.one.sets FWU_CTRL.ACT_CANCEL = false from rfl, show (CLK_COSC_TRIM.TRIM_NOW.one.addr = 0x90000) = False from by decide, show (CLK_COSC_TRIM.TRIM_NOW.one.addr = 0xC0000) = False from by decide, show (CLK_COSC_TRIM.TRIM_NOW.one.addr = 0xE0000) = False from by decide, if_true, if_false, Bool.false_eq_true]
theorem Chip.actWord_set_go (c : Chip) (nv : NonVol) : c.actWord nv TIM_CTRL.SET_GO.one = c.setGo := by
  simp only [Chip.actWord, show TIM_CTRL.SET_GO.one.sets CLK_CTRL.XTAL_RESTART = false from rfl, show TIM_CTRL.SET_GO.one.sets CLK_COSC_TRIM.TRIM_NOW = false from rfl, show TIM_CTRL.SET_GO.one.sets TIM_CTRL.SET_GO = true from rfl, show TIM_CTRL.SET_GO.one.sets SCH_CTRL.PEAK_CLR = false from rfl, show TIM_CTRL.SET_GO.one.sets SCH_TRACE_CTRL.TR_CLEAR = false from rfl, show TIM_CTRL.SET_GO.one.sets CHN_CTRL.CFG_NOW = false from rfl, show TIM_CTRL.SET_GO.one.sets CHN_CTRL.FMAP_CLEAR = false from rfl, show TIM_CTRL.SET_GO.one.sets ID_STATE_CTRL.START = false from rfl, show TIM_CTRL.SET_GO.one.sets ID_STATE_CTRL.STOP = false from rfl, show TIM_CTRL.SET_GO.one.sets GNG_CTRL.FORGET = false from rfl, show TIM_CTRL.SET_GO.one.sets RED_CTRL.SWAP_NOW = false from rfl, show TIM_CTRL.SET_GO.one.sets RED_CTRL.REPROVISION = false from rfl, show TIM_CTRL.SET_GO.one.sets ERR_CTRL.LOG_CLEAR = false from rfl, show TIM_CTRL.SET_GO.one.sets FWU_CTRL.SAVE = false from rfl, show TIM_CTRL.SET_GO.one.sets FWU_CTRL.ACT_CANCEL = false from rfl, show (TIM_CTRL.SET_GO.one.addr = 0x90000) = False from by decide, show (TIM_CTRL.SET_GO.one.addr = 0xC0000) = False from by decide, show (TIM_CTRL.SET_GO.one.addr = 0xE0000) = False from by decide, if_true, if_false, Bool.false_eq_true]
theorem Chip.actWord_peak_clr (c : Chip) (nv : NonVol) : c.actWord nv SCH_CTRL.PEAK_CLR.one = c.peakClear := by
  simp only [Chip.actWord, show SCH_CTRL.PEAK_CLR.one.sets CLK_CTRL.XTAL_RESTART = false from rfl, show SCH_CTRL.PEAK_CLR.one.sets CLK_COSC_TRIM.TRIM_NOW = false from rfl, show SCH_CTRL.PEAK_CLR.one.sets TIM_CTRL.SET_GO = false from rfl, show SCH_CTRL.PEAK_CLR.one.sets SCH_CTRL.PEAK_CLR = true from rfl, show SCH_CTRL.PEAK_CLR.one.sets SCH_TRACE_CTRL.TR_CLEAR = false from rfl, show SCH_CTRL.PEAK_CLR.one.sets CHN_CTRL.CFG_NOW = false from rfl, show SCH_CTRL.PEAK_CLR.one.sets CHN_CTRL.FMAP_CLEAR = false from rfl, show SCH_CTRL.PEAK_CLR.one.sets ID_STATE_CTRL.START = false from rfl, show SCH_CTRL.PEAK_CLR.one.sets ID_STATE_CTRL.STOP = false from rfl, show SCH_CTRL.PEAK_CLR.one.sets GNG_CTRL.FORGET = false from rfl, show SCH_CTRL.PEAK_CLR.one.sets RED_CTRL.SWAP_NOW = false from rfl, show SCH_CTRL.PEAK_CLR.one.sets RED_CTRL.REPROVISION = false from rfl, show SCH_CTRL.PEAK_CLR.one.sets ERR_CTRL.LOG_CLEAR = false from rfl, show SCH_CTRL.PEAK_CLR.one.sets FWU_CTRL.SAVE = false from rfl, show SCH_CTRL.PEAK_CLR.one.sets FWU_CTRL.ACT_CANCEL = false from rfl, show (SCH_CTRL.PEAK_CLR.one.addr = 0x90000) = False from by decide, show (SCH_CTRL.PEAK_CLR.one.addr = 0xC0000) = False from by decide, show (SCH_CTRL.PEAK_CLR.one.addr = 0xE0000) = False from by decide, if_true, if_false, Bool.false_eq_true]
theorem Chip.actWord_tr_clear (c : Chip) (nv : NonVol) : c.actWord nv SCH_TRACE_CTRL.TR_CLEAR.one = c.clearTrace := by
  simp only [Chip.actWord, show SCH_TRACE_CTRL.TR_CLEAR.one.sets CLK_CTRL.XTAL_RESTART = false from rfl, show SCH_TRACE_CTRL.TR_CLEAR.one.sets CLK_COSC_TRIM.TRIM_NOW = false from rfl, show SCH_TRACE_CTRL.TR_CLEAR.one.sets TIM_CTRL.SET_GO = false from rfl, show SCH_TRACE_CTRL.TR_CLEAR.one.sets SCH_CTRL.PEAK_CLR = false from rfl, show SCH_TRACE_CTRL.TR_CLEAR.one.sets SCH_TRACE_CTRL.TR_CLEAR = true from rfl, show SCH_TRACE_CTRL.TR_CLEAR.one.sets CHN_CTRL.CFG_NOW = false from rfl, show SCH_TRACE_CTRL.TR_CLEAR.one.sets CHN_CTRL.FMAP_CLEAR = false from rfl, show SCH_TRACE_CTRL.TR_CLEAR.one.sets ID_STATE_CTRL.START = false from rfl, show SCH_TRACE_CTRL.TR_CLEAR.one.sets ID_STATE_CTRL.STOP = false from rfl, show SCH_TRACE_CTRL.TR_CLEAR.one.sets GNG_CTRL.FORGET = false from rfl, show SCH_TRACE_CTRL.TR_CLEAR.one.sets RED_CTRL.SWAP_NOW = false from rfl, show SCH_TRACE_CTRL.TR_CLEAR.one.sets RED_CTRL.REPROVISION = false from rfl, show SCH_TRACE_CTRL.TR_CLEAR.one.sets ERR_CTRL.LOG_CLEAR = false from rfl, show SCH_TRACE_CTRL.TR_CLEAR.one.sets FWU_CTRL.SAVE = false from rfl, show SCH_TRACE_CTRL.TR_CLEAR.one.sets FWU_CTRL.ACT_CANCEL = false from rfl, show (SCH_TRACE_CTRL.TR_CLEAR.one.addr = 0x90000) = False from by decide, show (SCH_TRACE_CTRL.TR_CLEAR.one.addr = 0xC0000) = False from by decide, show (SCH_TRACE_CTRL.TR_CLEAR.one.addr = 0xE0000) = False from by decide, if_true, if_false, Bool.false_eq_true]
theorem Chip.actWord_cfg_now (c : Chip) (nv : NonVol) : c.actWord nv CHN_CTRL.CFG_NOW.one = c.cfgNow := by
  simp only [Chip.actWord, show CHN_CTRL.CFG_NOW.one.sets CLK_CTRL.XTAL_RESTART = false from rfl, show CHN_CTRL.CFG_NOW.one.sets CLK_COSC_TRIM.TRIM_NOW = false from rfl, show CHN_CTRL.CFG_NOW.one.sets TIM_CTRL.SET_GO = false from rfl, show CHN_CTRL.CFG_NOW.one.sets SCH_CTRL.PEAK_CLR = false from rfl, show CHN_CTRL.CFG_NOW.one.sets SCH_TRACE_CTRL.TR_CLEAR = false from rfl, show CHN_CTRL.CFG_NOW.one.sets CHN_CTRL.CFG_NOW = true from rfl, show CHN_CTRL.CFG_NOW.one.sets CHN_CTRL.FMAP_CLEAR = false from rfl, show CHN_CTRL.CFG_NOW.one.sets ID_STATE_CTRL.START = false from rfl, show CHN_CTRL.CFG_NOW.one.sets ID_STATE_CTRL.STOP = false from rfl, show CHN_CTRL.CFG_NOW.one.sets GNG_CTRL.FORGET = false from rfl, show CHN_CTRL.CFG_NOW.one.sets RED_CTRL.SWAP_NOW = false from rfl, show CHN_CTRL.CFG_NOW.one.sets RED_CTRL.REPROVISION = false from rfl, show CHN_CTRL.CFG_NOW.one.sets ERR_CTRL.LOG_CLEAR = false from rfl, show CHN_CTRL.CFG_NOW.one.sets FWU_CTRL.SAVE = false from rfl, show CHN_CTRL.CFG_NOW.one.sets FWU_CTRL.ACT_CANCEL = false from rfl, show (CHN_CTRL.CFG_NOW.one.addr = 0x90000) = True from by decide, show (CHN_CTRL.CFG_NOW.one.addr = 0xC0000) = False from by decide, show (CHN_CTRL.CFG_NOW.one.addr = 0xE0000) = False from by decide, if_true, if_false, Bool.false_eq_true]
theorem Chip.actWord_fmap_clear (c : Chip) (nv : NonVol) : c.actWord nv CHN_CTRL.FMAP_CLEAR.one = c.fmapClear := by
  simp only [Chip.actWord, show CHN_CTRL.FMAP_CLEAR.one.sets CLK_CTRL.XTAL_RESTART = false from rfl, show CHN_CTRL.FMAP_CLEAR.one.sets CLK_COSC_TRIM.TRIM_NOW = false from rfl, show CHN_CTRL.FMAP_CLEAR.one.sets TIM_CTRL.SET_GO = false from rfl, show CHN_CTRL.FMAP_CLEAR.one.sets SCH_CTRL.PEAK_CLR = false from rfl, show CHN_CTRL.FMAP_CLEAR.one.sets SCH_TRACE_CTRL.TR_CLEAR = false from rfl, show CHN_CTRL.FMAP_CLEAR.one.sets CHN_CTRL.CFG_NOW = false from rfl, show CHN_CTRL.FMAP_CLEAR.one.sets CHN_CTRL.FMAP_CLEAR = true from rfl, show CHN_CTRL.FMAP_CLEAR.one.sets ID_STATE_CTRL.START = false from rfl, show CHN_CTRL.FMAP_CLEAR.one.sets ID_STATE_CTRL.STOP = false from rfl, show CHN_CTRL.FMAP_CLEAR.one.sets GNG_CTRL.FORGET = false from rfl, show CHN_CTRL.FMAP_CLEAR.one.sets RED_CTRL.SWAP_NOW = false from rfl, show CHN_CTRL.FMAP_CLEAR.one.sets RED_CTRL.REPROVISION = false from rfl, show CHN_CTRL.FMAP_CLEAR.one.sets ERR_CTRL.LOG_CLEAR = false from rfl, show CHN_CTRL.FMAP_CLEAR.one.sets FWU_CTRL.SAVE = false from rfl, show CHN_CTRL.FMAP_CLEAR.one.sets FWU_CTRL.ACT_CANCEL = false from rfl, show (CHN_CTRL.FMAP_CLEAR.one.addr = 0x90000) = True from by decide, show (CHN_CTRL.FMAP_CLEAR.one.addr = 0xC0000) = False from by decide, show (CHN_CTRL.FMAP_CLEAR.one.addr = 0xE0000) = False from by decide, if_true, if_false, Bool.false_eq_true]
theorem Chip.actWord_start (c : Chip) (nv : NonVol) : c.actWord nv ID_STATE_CTRL.START.one = (if c.st == .stopped && c.startOk then c.enterRunning else c) := by
  simp only [Chip.actWord, show ID_STATE_CTRL.START.one.sets CLK_CTRL.XTAL_RESTART = false from rfl, show ID_STATE_CTRL.START.one.sets CLK_COSC_TRIM.TRIM_NOW = false from rfl, show ID_STATE_CTRL.START.one.sets TIM_CTRL.SET_GO = false from rfl, show ID_STATE_CTRL.START.one.sets SCH_CTRL.PEAK_CLR = false from rfl, show ID_STATE_CTRL.START.one.sets SCH_TRACE_CTRL.TR_CLEAR = false from rfl, show ID_STATE_CTRL.START.one.sets CHN_CTRL.CFG_NOW = false from rfl, show ID_STATE_CTRL.START.one.sets CHN_CTRL.FMAP_CLEAR = false from rfl, show ID_STATE_CTRL.START.one.sets ID_STATE_CTRL.START = true from rfl, show ID_STATE_CTRL.START.one.sets ID_STATE_CTRL.STOP = false from rfl, show ID_STATE_CTRL.START.one.sets GNG_CTRL.FORGET = false from rfl, show ID_STATE_CTRL.START.one.sets RED_CTRL.SWAP_NOW = false from rfl, show ID_STATE_CTRL.START.one.sets RED_CTRL.REPROVISION = false from rfl, show ID_STATE_CTRL.START.one.sets ERR_CTRL.LOG_CLEAR = false from rfl, show ID_STATE_CTRL.START.one.sets FWU_CTRL.SAVE = false from rfl, show ID_STATE_CTRL.START.one.sets FWU_CTRL.ACT_CANCEL = false from rfl, show (ID_STATE_CTRL.START.one.addr = 0x90000) = False from by decide, show (ID_STATE_CTRL.START.one.addr = 0xC0000) = False from by decide, show (ID_STATE_CTRL.START.one.addr = 0xE0000) = False from by decide, if_true, if_false, Bool.false_eq_true]
theorem Chip.actWord_stop (c : Chip) (nv : NonVol) : c.actWord nv ID_STATE_CTRL.STOP.one = (if c.st = .running then c.enterStopped else c) := by
  simp only [Chip.actWord, show ID_STATE_CTRL.STOP.one.sets CLK_CTRL.XTAL_RESTART = false from rfl, show ID_STATE_CTRL.STOP.one.sets CLK_COSC_TRIM.TRIM_NOW = false from rfl, show ID_STATE_CTRL.STOP.one.sets TIM_CTRL.SET_GO = false from rfl, show ID_STATE_CTRL.STOP.one.sets SCH_CTRL.PEAK_CLR = false from rfl, show ID_STATE_CTRL.STOP.one.sets SCH_TRACE_CTRL.TR_CLEAR = false from rfl, show ID_STATE_CTRL.STOP.one.sets CHN_CTRL.CFG_NOW = false from rfl, show ID_STATE_CTRL.STOP.one.sets CHN_CTRL.FMAP_CLEAR = false from rfl, show ID_STATE_CTRL.STOP.one.sets ID_STATE_CTRL.START = false from rfl, show ID_STATE_CTRL.STOP.one.sets ID_STATE_CTRL.STOP = true from rfl, show ID_STATE_CTRL.STOP.one.sets GNG_CTRL.FORGET = false from rfl, show ID_STATE_CTRL.STOP.one.sets RED_CTRL.SWAP_NOW = false from rfl, show ID_STATE_CTRL.STOP.one.sets RED_CTRL.REPROVISION = false from rfl, show ID_STATE_CTRL.STOP.one.sets ERR_CTRL.LOG_CLEAR = false from rfl, show ID_STATE_CTRL.STOP.one.sets FWU_CTRL.SAVE = false from rfl, show ID_STATE_CTRL.STOP.one.sets FWU_CTRL.ACT_CANCEL = false from rfl, show (ID_STATE_CTRL.STOP.one.addr = 0x90000) = False from by decide, show (ID_STATE_CTRL.STOP.one.addr = 0xC0000) = False from by decide, show (ID_STATE_CTRL.STOP.one.addr = 0xE0000) = False from by decide, if_true, if_false, Bool.false_eq_true]
theorem Chip.actWord_act_cancel (c : Chip) (nv : NonVol) : c.actWord nv FWU_CTRL.ACT_CANCEL.one = c.actCancel nv := by
  simp only [Chip.actWord, show FWU_CTRL.ACT_CANCEL.one.sets CLK_CTRL.XTAL_RESTART = false from rfl, show FWU_CTRL.ACT_CANCEL.one.sets CLK_COSC_TRIM.TRIM_NOW = false from rfl, show FWU_CTRL.ACT_CANCEL.one.sets TIM_CTRL.SET_GO = false from rfl, show FWU_CTRL.ACT_CANCEL.one.sets SCH_CTRL.PEAK_CLR = false from rfl, show FWU_CTRL.ACT_CANCEL.one.sets SCH_TRACE_CTRL.TR_CLEAR = false from rfl, show FWU_CTRL.ACT_CANCEL.one.sets CHN_CTRL.CFG_NOW = false from rfl, show FWU_CTRL.ACT_CANCEL.one.sets CHN_CTRL.FMAP_CLEAR = false from rfl, show FWU_CTRL.ACT_CANCEL.one.sets ID_STATE_CTRL.START = false from rfl, show FWU_CTRL.ACT_CANCEL.one.sets ID_STATE_CTRL.STOP = false from rfl, show FWU_CTRL.ACT_CANCEL.one.sets GNG_CTRL.FORGET = false from rfl, show FWU_CTRL.ACT_CANCEL.one.sets RED_CTRL.SWAP_NOW = false from rfl, show FWU_CTRL.ACT_CANCEL.one.sets RED_CTRL.REPROVISION = false from rfl, show FWU_CTRL.ACT_CANCEL.one.sets ERR_CTRL.LOG_CLEAR = false from rfl, show FWU_CTRL.ACT_CANCEL.one.sets FWU_CTRL.SAVE = false from rfl, show FWU_CTRL.ACT_CANCEL.one.sets FWU_CTRL.ACT_CANCEL = true from rfl, show (FWU_CTRL.ACT_CANCEL.one.addr = 0x90000) = False from by decide, show (FWU_CTRL.ACT_CANCEL.one.addr = 0xC0000) = False from by decide, show (FWU_CTRL.ACT_CANCEL.one.addr = 0xE0000) = True from by decide, if_true, if_false, Bool.false_eq_true]
theorem Chip.actWord_save (c : Chip) (nv : NonVol) : c.actWord nv FWU_CTRL.SAVE.one = c.save := by
  simp only [Chip.actWord, show FWU_CTRL.SAVE.one.sets CLK_CTRL.XTAL_RESTART = false from rfl, show FWU_CTRL.SAVE.one.sets CLK_COSC_TRIM.TRIM_NOW = false from rfl, show FWU_CTRL.SAVE.one.sets TIM_CTRL.SET_GO = false from rfl, show FWU_CTRL.SAVE.one.sets SCH_CTRL.PEAK_CLR = false from rfl, show FWU_CTRL.SAVE.one.sets SCH_TRACE_CTRL.TR_CLEAR = false from rfl, show FWU_CTRL.SAVE.one.sets CHN_CTRL.CFG_NOW = false from rfl, show FWU_CTRL.SAVE.one.sets CHN_CTRL.FMAP_CLEAR = false from rfl, show FWU_CTRL.SAVE.one.sets ID_STATE_CTRL.START = false from rfl, show FWU_CTRL.SAVE.one.sets ID_STATE_CTRL.STOP = false from rfl, show FWU_CTRL.SAVE.one.sets GNG_CTRL.FORGET = false from rfl, show FWU_CTRL.SAVE.one.sets RED_CTRL.SWAP_NOW = false from rfl, show FWU_CTRL.SAVE.one.sets RED_CTRL.REPROVISION = false from rfl, show FWU_CTRL.SAVE.one.sets ERR_CTRL.LOG_CLEAR = false from rfl, show FWU_CTRL.SAVE.one.sets FWU_CTRL.SAVE = true from rfl, show FWU_CTRL.SAVE.one.sets FWU_CTRL.ACT_CANCEL = false from rfl, show (FWU_CTRL.SAVE.one.addr = 0x90000) = False from by decide, show (FWU_CTRL.SAVE.one.addr = 0xC0000) = False from by decide, show (FWU_CTRL.SAVE.one.addr = 0xE0000) = True from by decide, if_true, if_false, Bool.false_eq_true]
theorem Chip.actWord_forget (c : Chip) (nv : NonVol) : c.actWord nv GNG_CTRL.FORGET.one = c.forget := by
  simp only [Chip.actWord, show GNG_CTRL.FORGET.one.sets CLK_CTRL.XTAL_RESTART = false from rfl, show GNG_CTRL.FORGET.one.sets CLK_COSC_TRIM.TRIM_NOW = false from rfl, show GNG_CTRL.FORGET.one.sets TIM_CTRL.SET_GO = false from rfl, show GNG_CTRL.FORGET.one.sets SCH_CTRL.PEAK_CLR = false from rfl, show GNG_CTRL.FORGET.one.sets SCH_TRACE_CTRL.TR_CLEAR = false from rfl, show GNG_CTRL.FORGET.one.sets CHN_CTRL.CFG_NOW = false from rfl, show GNG_CTRL.FORGET.one.sets CHN_CTRL.FMAP_CLEAR = false from rfl, show GNG_CTRL.FORGET.one.sets ID_STATE_CTRL.START = false from rfl, show GNG_CTRL.FORGET.one.sets ID_STATE_CTRL.STOP = false from rfl, show GNG_CTRL.FORGET.one.sets GNG_CTRL.FORGET = true from rfl, show GNG_CTRL.FORGET.one.sets RED_CTRL.SWAP_NOW = false from rfl, show GNG_CTRL.FORGET.one.sets RED_CTRL.REPROVISION = false from rfl, show GNG_CTRL.FORGET.one.sets ERR_CTRL.LOG_CLEAR = false from rfl, show GNG_CTRL.FORGET.one.sets FWU_CTRL.SAVE = false from rfl, show GNG_CTRL.FORGET.one.sets FWU_CTRL.ACT_CANCEL = false from rfl, show (GNG_CTRL.FORGET.one.addr = 0x90000) = False from by decide, show (GNG_CTRL.FORGET.one.addr = 0xC0000) = False from by decide, show (GNG_CTRL.FORGET.one.addr = 0xE0000) = False from by decide, if_true, if_false, Bool.false_eq_true]
theorem Chip.actWord_swap_now (c : Chip) (nv : NonVol) : c.actWord nv RED_CTRL.SWAP_NOW.one = (c.swapNow nv).1 := by
  simp only [Chip.actWord, show RED_CTRL.SWAP_NOW.one.sets CLK_CTRL.XTAL_RESTART = false from rfl, show RED_CTRL.SWAP_NOW.one.sets CLK_COSC_TRIM.TRIM_NOW = false from rfl, show RED_CTRL.SWAP_NOW.one.sets TIM_CTRL.SET_GO = false from rfl, show RED_CTRL.SWAP_NOW.one.sets SCH_CTRL.PEAK_CLR = false from rfl, show RED_CTRL.SWAP_NOW.one.sets SCH_TRACE_CTRL.TR_CLEAR = false from rfl, show RED_CTRL.SWAP_NOW.one.sets CHN_CTRL.CFG_NOW = false from rfl, show RED_CTRL.SWAP_NOW.one.sets CHN_CTRL.FMAP_CLEAR = false from rfl, show RED_CTRL.SWAP_NOW.one.sets ID_STATE_CTRL.START = false from rfl, show RED_CTRL.SWAP_NOW.one.sets ID_STATE_CTRL.STOP = false from rfl, show RED_CTRL.SWAP_NOW.one.sets GNG_CTRL.FORGET = false from rfl, show RED_CTRL.SWAP_NOW.one.sets RED_CTRL.SWAP_NOW = true from rfl, show RED_CTRL.SWAP_NOW.one.sets RED_CTRL.REPROVISION = false from rfl, show RED_CTRL.SWAP_NOW.one.sets ERR_CTRL.LOG_CLEAR = false from rfl, show RED_CTRL.SWAP_NOW.one.sets FWU_CTRL.SAVE = false from rfl, show RED_CTRL.SWAP_NOW.one.sets FWU_CTRL.ACT_CANCEL = false from rfl, show (RED_CTRL.SWAP_NOW.one.addr = 0x90000) = False from by decide, show (RED_CTRL.SWAP_NOW.one.addr = 0xC0000) = True from by decide, show (RED_CTRL.SWAP_NOW.one.addr = 0xE0000) = False from by decide, if_true, if_false, Bool.false_eq_true]
theorem Chip.actWord_reprovision (c : Chip) (nv : NonVol) : c.actWord nv RED_CTRL.REPROVISION.one = c.reprovision := by
  simp only [Chip.actWord, show RED_CTRL.REPROVISION.one.sets CLK_CTRL.XTAL_RESTART = false from rfl, show RED_CTRL.REPROVISION.one.sets CLK_COSC_TRIM.TRIM_NOW = false from rfl, show RED_CTRL.REPROVISION.one.sets TIM_CTRL.SET_GO = false from rfl, show RED_CTRL.REPROVISION.one.sets SCH_CTRL.PEAK_CLR = false from rfl, show RED_CTRL.REPROVISION.one.sets SCH_TRACE_CTRL.TR_CLEAR = false from rfl, show RED_CTRL.REPROVISION.one.sets CHN_CTRL.CFG_NOW = false from rfl, show RED_CTRL.REPROVISION.one.sets CHN_CTRL.FMAP_CLEAR = false from rfl, show RED_CTRL.REPROVISION.one.sets ID_STATE_CTRL.START = false from rfl, show RED_CTRL.REPROVISION.one.sets ID_STATE_CTRL.STOP = false from rfl, show RED_CTRL.REPROVISION.one.sets GNG_CTRL.FORGET = false from rfl, show RED_CTRL.REPROVISION.one.sets RED_CTRL.SWAP_NOW = false from rfl, show RED_CTRL.REPROVISION.one.sets RED_CTRL.REPROVISION = true from rfl, show RED_CTRL.REPROVISION.one.sets ERR_CTRL.LOG_CLEAR = false from rfl, show RED_CTRL.REPROVISION.one.sets FWU_CTRL.SAVE = false from rfl, show RED_CTRL.REPROVISION.one.sets FWU_CTRL.ACT_CANCEL = false from rfl, show (RED_CTRL.REPROVISION.one.addr = 0x90000) = False from by decide, show (RED_CTRL.REPROVISION.one.addr = 0xC0000) = True from by decide, show (RED_CTRL.REPROVISION.one.addr = 0xE0000) = False from by decide, if_true, if_false, Bool.false_eq_true]
theorem Chip.actWord_log_clear (c : Chip) (nv : NonVol) : c.actWord nv ERR_CTRL.LOG_CLEAR.one = c.logClear := by
  simp only [Chip.actWord, show ERR_CTRL.LOG_CLEAR.one.sets CLK_CTRL.XTAL_RESTART = false from rfl, show ERR_CTRL.LOG_CLEAR.one.sets CLK_COSC_TRIM.TRIM_NOW = false from rfl, show ERR_CTRL.LOG_CLEAR.one.sets TIM_CTRL.SET_GO = false from rfl, show ERR_CTRL.LOG_CLEAR.one.sets SCH_CTRL.PEAK_CLR = false from rfl, show ERR_CTRL.LOG_CLEAR.one.sets SCH_TRACE_CTRL.TR_CLEAR = false from rfl, show ERR_CTRL.LOG_CLEAR.one.sets CHN_CTRL.CFG_NOW = false from rfl, show ERR_CTRL.LOG_CLEAR.one.sets CHN_CTRL.FMAP_CLEAR = false from rfl, show ERR_CTRL.LOG_CLEAR.one.sets ID_STATE_CTRL.START = false from rfl, show ERR_CTRL.LOG_CLEAR.one.sets ID_STATE_CTRL.STOP = false from rfl, show ERR_CTRL.LOG_CLEAR.one.sets GNG_CTRL.FORGET = false from rfl, show ERR_CTRL.LOG_CLEAR.one.sets RED_CTRL.SWAP_NOW = false from rfl, show ERR_CTRL.LOG_CLEAR.one.sets RED_CTRL.REPROVISION = false from rfl, show ERR_CTRL.LOG_CLEAR.one.sets ERR_CTRL.LOG_CLEAR = true from rfl, show ERR_CTRL.LOG_CLEAR.one.sets FWU_CTRL.SAVE = false from rfl, show ERR_CTRL.LOG_CLEAR.one.sets FWU_CTRL.ACT_CANCEL = false from rfl, show (ERR_CTRL.LOG_CLEAR.one.addr = 0x90000) = False from by decide, show (ERR_CTRL.LOG_CLEAR.one.addr = 0xC0000) = False from by decide, show (ERR_CTRL.LOG_CLEAR.one.addr = 0xE0000) = False from by decide, if_true, if_false, Bool.false_eq_true]

end Sys2Proof.Machine
end

