-- ==== Sys2Proof/WellFormed.lean ====
section
/-!
DEFINITION. The commands that a sender can form: every operand within the width that its packet, frame or pin gives it.
The machine judges values; this file judges widths only, and a step does not look at it.
-/

namespace Sys2Proof

/-- A number of `n` bits. -/
def fits (n x : Nat) : Bool := decide (x < 2 ^ n)

/-- A source: IP addresses of 128 bits, UDP ports of 16, gang addresses of 6, sequence numbers of 32 (R345, R374). -/
def Source.wf : Source → Bool
  | .host => true
  | .net ip udp => fits 128 ip && fits 16 udp
  | .gang sender gseq => fits 6 sender && fits 32 gseq

/-- A Selul command with the field widths of R338. -/
def Cmd.wf (c : Cmd) : Bool :=
  c.src.wf && fits 16 c.opcode && fits 8 c.gang && fits 16 c.tag && fits 16 c.txn && fits 32 c.epoch && fits 32 c.seq
    && fits 16 c.node && fits 32 c.arg && decide (c.payload.length ≤ 8192)

/-- Tenths of a nanosecond since the last tick of 1.25 ns (R73, R76). -/
def fracOk (f : Nat) : Bool := decide (f ≤ 12)

/-- A VLAN tag of IEEE 802.1Q. -/
def VlanTag.wf (t : VlanTag) : Bool := fits 12 t.vid && fits 3 t.pcp

def SyncMsg.wf (m : SyncMsg) : Bool := fits 64 m.master && fits 16 m.seq && fracOk m.frac10

def PtpAnnounce.wf (a : PtpAnnounce) : Bool :=
  fits 64 a.sender && fits 8 a.domain && fits 8 a.priority1 && fits 8 a.clockClass && fits 8 a.accuracy
    && fits 16 a.variance && fits 8 a.priority2 && fits 64 a.gmId && fits 16 a.stepsRemoved && fits 16 a.utcOffset

/-- A completed peer delay exchange. -/
def PdelayMsg.wf (m : PdelayMsg) : Bool := fits 16 m.seq

/-- A PTP event message that may be forwarded. -/
def PtpHead.wf (m : PtpHead) : Bool := fracOk m.frac10

def FrameHead.wf (h : FrameHead) : Bool :=
  fits 48 h.dst && fits 48 h.src && h.tags.all VlanTag.wf && h.ptp.all PtpHead.wf

def IpHdr.wf (h : IpHdr) : Bool := fits 128 h.src && fits 128 h.dst && fits 16 h.sport && fits 16 h.dport

def RtpPkt.wf (p : RtpPkt) : Bool :=
  fits 7 p.payloadType && fits 32 p.ssrc && fits 32 p.seq && fits 32 p.timestamp && fits 16 p.body.length

def E131Pkt.wf (p : E131Pkt) : Bool :=
  fits 128 p.cid && fits 8 p.priority && fits 16 p.univ && fits 8 p.seq && fits 16 p.syncAddr && fits 8 p.startCode
    && decide (p.slots.length ≤ 512)

def RxBody.wf : RxBody → Bool
  | .rtp ip p => ip.wf && p.wf
  | .luevevan ip l => ip.wf && fits 16 l.length
  | .e131 ip p => ip.wf && p.wf
  | .e131Sync ip u => ip.wf && fits 16 u
  | .other => true

/-- The positions of a chain of 64 lanes (R278). -/
def LaneRead.wf (r : LaneRead) : Bool := decide (r.lane < 64)

def RdmResp.wf : RdmResp → Bool
  | .none => true
  | .bad => true
  | .ack uid pid data => fits 48 uid && fits 16 pid && decide (data.length ≤ 231)
  | .overflow data => decide (data.length ≤ 231)
  | .nack reason => fits 16 reason
  | .timer tenths => fits 16 tenths
  | .found uids => uids.all (fits 48)

def CalOutcome.wf : CalOutcome → Bool
  | .osc => true
  | .phase _ _ => true
  | .adc _ gain => fits 16 gain
  | .deskew taps => taps.all (fun t => decide (t.1 < 64))
  | .rbDelay delays => delays.all (fun t => decide (t.1 < 64))

/-- A write that arms a trigger (R112). -/
def TrigWrite.wf : TrigWrite → Bool
  | .time v => fits 32 v
  | .mode m => fits 2 m

/-- A sub-frame of a frame (R277). -/
def subOk (k : Nat) : Bool := decide (k < 32)

/-- A strip of a feed, or a half (R220, R233). -/
def stripOk (s : Nat) : Bool := fits 8 s

/-- A UDP payload. -/
def packetOk (l : List Byte) : Bool := fits 16 l.length

def SensorRead.wf : SensorRead → Bool
  | .value v => fits 16 v
  | .noAck | .stuck => true

/-- The checks of every command's operands. -/
def Instr.wf : Instr → Bool
  | .groupARailsGood => true
  | .mainRailTimeout => true
  | .railLost _ => true
  | .pinReset => true
  | .resetRelease _ banks _ => decide (banks.length = 4)
  | .imageStart _ _ => true
  | .portsUp => true
  | .settingsApplied => true
  | .bootListenEnd => true
  | .watchdogExpiry _ => true
  | .xtalStall => true
  | .xtalGrossFreqTrip => true
  | .p0Loss _ => true
  | .p0Freq _ => true
  | .xtalQualified => true
  | .recoveredQualified _ => true
  | .xtalQualFail => true
  | .waitXtalDeadline => true
  | .pllLock => true
  | .revertHoldExpiry => true
  | .srcModeWrite _ => true
  | .xtalRestart => true
  | .fofsUpdate _ _ => true
  | .trimNow => true
  | .trimGateEnd _ _ => true
  | .autoRetrim => true
  | .syncReceived m => m.wf
  | .announceReceivedPtp a => a.wf
  | .foreignMasterAgeout _ sender => fits 64 sender
  | .delayReqReceived _ requester seq frac10 => fits 64 requester && fits 16 seq && fracOk frac10
  | .pdelayExchange m => m.wf
  | .syncSend _ frac10 => fracOk frac10
  | .syncLoss => true
  | .holdExpired => true
  | .fsyncInEdge _ frac10 => fracOk frac10
  | .fsyncMissLimit => true
  | .setGo => true
  | .timNowRead => true
  | .tsqPop => true
  | .capEdge _ _ frac10 => fracOk frac10
  | .capPop _ => true
  | .trigArm _ w => w.wf
  | .trigFire _ => true
  | .trigPulseEnd _ => true
  | .frameBoundary _ => true
  | .freezePoint _ => true
  | .zoneStale _ => true
  | .subframeEdge _ k => subOk k
  | .rowSlotStart _ k r => subOk k && fits 8 r
  | .stagingBufferFree _ k => subOk k
  | .subframeRelease _ k => subOk k
  | .itemDeadline _ k _ strip => subOk k && stripOk strip
  | .coreRequest _ => true
  | .itemRetire _ _ => true
  | .itemHang _ => true
  | .peakClr => true
  | .trClear => true
  | .tracePop => true
  | .lockFrame _ => true
  | .detectionWindow _ k _ => subOk k
  | .readbackWindow _ k => subOk k
  | .readbackDone _ k reads => subOk k && reads.all LaneRead.wf
  | .cfgNow => true
  | .fmapClear => true
  | .fmapRead _ => true
  | .sensorPoll _ _ => true
  | .sensorReadDone _ x => x.wf
  | .ntcConversion _ code => fits 16 code
  | .rxFrame _ h b => h.wf && b.wf
  | .ringBufferRelease _ _ => true
  | .wmHitClear _ => true
  | .fwdStart _ => true
  | .egressIdle _ => true
  | .localTxEnqueue _ _ => true
  | .linkUpSeen _ speed => fits 3 speed
  | .linkDown _ => true
  | .speedSearchTimeout _ => true
  | .modChange _ _ best => fits 3 best
  | .txFaultSeen _ => true
  | .arpRequest _ ip asker => fits 128 ip && fits 128 asker
  | .mcReportRepeat _ => true
  | .mcQuery _ q => fits 128 q.group
  | .statsCounterRead addr => fits 32 addr
  | .wakeMatch frame _ => packetOk frame
  | .sacnSyncTimeout _ => true
  | .sacnSourceTimeout _ cid => fits 128 cid
  | .sourceLost _ => true
  | .dmxRxPacket _ _ _ startCode slots => fits 8 startCode && decide (slots.length ≤ 512)
  | .dmxSendInstant _ => true
  | .rdmResponse _ resp => resp.wf
  | .ackTimerWaitEnd _ => true
  | .semExpired _ => true
  | .semTimeout _ => true
  | .selulPacket _ ip bytes => ip.wf && packetOk bytes
  | .broadcastReply => true
  | .hqPut bytes => packetOk bytes
  | .hqGet _ => true
  | .hqStat => true
  | .ping cmd => cmd.wf
  | .identify cmd => cmd.wf
  | .read cmd _ => cmd.wf
  | .write cmd => cmd.wf
  | .writeMasked cmd => cmd.wf
  | .registerWrite addr _ _ => fits 32 addr
  | .txnBegin cmd => cmd.wf
  | .txnCommit cmd => cmd.wf
  | .txnRollback cmd => cmd.wf
  | .txnStatus cmd => cmd.wf
  | .txnDue id => fits 16 id
  | .txnTimeout id => fits 16 id
  | .bulkLoad cmd => cmd.wf
  | .statsRead cmd => cmd.wf
  | .eventFetch x => x.cmd.wf
  | .eventAck cmd => cmd.wf
  | .traceRead x => x.cmd.wf
  | .gateQuiesce cmd _ => cmd.wf
  | .gateResume cmd => cmd.wf
  | .reset cmd => cmd.wf
  | .commandActionStart => true
  | .dormant cmd => cmd.wf
  | .start => true
  | .stop => true
  | .fwBlock cmd => cmd.wf
  | .blockBad _ => true
  | .fwVerify cmd => cmd.wf
  | .verifyDone => true
  | .fwActivate cmd => cmd.wf
  | .activationStart => true
  | .actCancel => true
  | .fwRevert cmd => cmd.wf
  | .save => true
  | .saveDone _ => true
  | .lcStatus cmd => cmd.wf
  | .lcOpen cmd => cmd.wf
  | .lcSeal cmd => cmd.wf
  | .lcPin cmd => cmd.wf
  | .raiseFloor cmd => cmd.wf
  | .consent cmd => cmd.wf
  | .consentExpiry => true
  | .lcReturn cmd => cmd.wf
  | .reblank cmd => cmd.wf
  | .decommission cmd => cmd.wf
  | .setKey cmd => cmd.wf
  | .clearKey cmd => cmd.wf
  | .calRun cmd => cmd.wf
  | .calTrigger trigger => fits 2 trigger
  | .calItemDone o => o.wf
  | .calDone => true
  | .deskewStep quad taps => decide (quad < 16) && taps.all (fun t => decide (t.1 < 64))
  | .deskewNoWindow => true
  | .calInterpolate _ => true
  | .bridgeReq cmd => cmd.wf
  | .bridgeResult _ => true
  | .bridgeResultCommand cmd => cmd.wf
  | .poll => true
  | .pollReceived bytes => packetOk bytes
  | .statusSend => true
  | .statusReceived bytes => packetOk bytes
  | .apexLost => true
  | .claimSend => true
  | .claimReceived bytes => packetOk bytes
  | .apexChange => true
  | .relayReceived _ bytes _ _ => packetOk bytes
  | .relayReplyReceived bytes => packetOk bytes
  | .relayTimeout gseq => fits 32 gseq
  | .signalReceived bytes => packetOk bytes
  | .ackReceived bytes => packetOk bytes
  | .signalResend gseq => fits 32 gseq
  | .forget => true
  | .wr addr words => fits 16 addr && words.all (fits 32)
  | .rd addr _ => fits 16 addr
  | .stat => true
  | .msg _ => true
  | .blk addr data => fits 32 addr && packetOk data
  | .sel a => fits 8 a
  | .rst => true
  | .heartbeatSend => true
  | .heartbeatReceived bytes => packetOk bytes
  | .hbMiss => true
  | .pairStartListenEnd => true
  | .snapshotSend => true
  | .snapPartReceived bytes => packetOk bytes
  | .journalReceived bytes => packetOk bytes
  | .journalIssue record => packetOk record
  | .pairAckReceived bytes => packetOk bytes
  | .swapNow => true
  | .swapReceived bytes => packetOk bytes
  | .swapFail => true
  | .swapEveryTimer => true
  | .announceReceived bytes => packetOk bytes
  | .announcePeriodic => true
  | .reprovision => true
  | .errorDetected code unit detail => fits 16 code && fits 16 unit && fits 32 detail
  | .handlerComplete _ => true
  | .handlerTimeout _ => true
  | .logClear => true
  | .logPop => true
  | .gangMemberRead _ => true
  | .calSetRead _ => true
  | .delayReqSend _ frac10 => fracOk frac10
  | .delayRespReceived _ sender seq _ _ => fits 64 sender && fits 16 seq
  | .ptpAnnounceSend _ => true
  | .p0ActiveTimeout _ _ => true
  | .tckEdge _ _ _ => true
  | .trstNLow => true

end Sys2Proof
end

