-- ==== Sys2Proof/Tests/Slice0.lean ====
section
/-!
SUPPORT. Tests: an ill-formed term for each check of WellFormed; single steps whose expected results come from the manual;
and, for each statement of the obligations, a state and operands that meet the hypotheses of each of its clauses together.
-/

namespace Sys2Proof.Tests

open Sys2Proof Sys2Proof.Machine

set_option maxRecDepth 100000
set_option Elab.async false
set_option linter.unusedVariables false

/-- A chip in the device state `st` whose supplies are good, whose image runs and whose ports have their links up. -/
def chipAt (st : DevState) : Chip :=
  (((Chip.powerOn.setSt st).setPower ⟨true, true, true, false, true, 0, true, true, true, false⟩).put
    (PRTn_STATUS.LINK_UP 0) 1).put (PRTn_STATUS.LINK_UP 1) 1

/-- A key of 32 bytes. -/
def key7 : List Byte := List.replicate 32 7#8

/-- A device in the state `st`, with a key in slot 0, changed by `f`. -/
def dev (st : DevState) (f : Chip → Chip) : State :=
  { State.reset with chip := f (chipAt st), nv := { NonVol.factory with keys := some key7 :: List.replicate 7 none } }

/-- `dev` with other contents of flash and fuses. -/
def devN (st : DevState) (g : NonVol → NonVol) (f : Chip → Chip) : State :=
  { dev st f with nv := g (dev st f).nv }

/-- A command of the host. -/
def ask (opcode : Nat) (payload : List Byte) : Cmd := ⟨.host, 0, 0, false, opcode, 0xFF, 5, 0, 0, 1, 0, 0, payload⟩

/-- A packet with the `PING` of a host that holds the key, and the same packet without its trailer. -/
def pingBody : List Byte := selulHead 0 1 0 0xFF 5 0 0 1 0 0 0
def ping : List Byte := pingBody ++ macOf16 (some key7) 0 pingBody
def pingBare : List Byte := pingBody ++ zeroMac

/-- An item of the type `t` in the state `st`. -/
def itemOf (t : WorkType) (st : ItemState) : Item :=
  { slot := 0, type := t, feed := 0, frame := 0, sub := 0, strip := 0, buffer := 0, counter := 0, waits := [],
    state := st, prio := 0, deadline := 0, cluster := none, cancel := none, again := false, grantC := 0, scale := 0,
    dith := (0, 0), gset := 0 }

/-- A display with four sub-frames of eight rows, the first of them of facet 0, over one pixel column in half A. -/
def showing (c : Chip) : Chip :=
  ((((((((c.setScan { c.scan with display := .showing }).put TIM_STATUS.TIME_VALID 1).put SCN_TSET0.SUBFRAMES 4).put
    SCN_TSET0.SCAN 8).put COL_CTRL.FACET_EN 1).put (COL_FACETf_MASK.SF_MASK 0) 1).put SCN_GEOM.TILE_W 1).put
    SCN_GEOM.TILE_H 8).put SCN_MERIDIAN.MERIDIAN 1

/-- A chip with the item `i` alone. -/
def holding (i : Item) (c : Chip) : Chip := c.setSched { c.sched with items := [i] }

/-- A tile of one pixel, with no lane and no facet enabled. -/
def bare (c : Chip) : Chip :=
  c.setRegs ((0x70000, 0#32) :: (SCN_GEOM.TILE_W.addr, 0x10001#32) :: (SCN_MERIDIAN.MERIDIAN.addr, 1#32) ::
    ([0, 1].flatMap (fun h => (List.range 32).map (fun i => ((SCN_x_LANEi_W0.LANE_EN h i).addr, 0#32)))))

/-- That chip with core 0 quiesced. -/
def bareGated : Chip := (dev .stopped bare).chip.putB (gateBit 0) true

theorem bare_rules_one : (configRules.take 6).any (fun r => !r.holds bareGated) = false := by decide +kernel
theorem bare_rules_two : ((configRules.drop 6).take 3).any (fun r => !r.holds bareGated) = false := by decide +kernel
theorem bare_rules_three : ((configRules.drop 6).drop 3).any (fun r => !r.holds bareGated) = false := by decide +kernel

theorem bare_rules : bareGated.rulesBroken = false := by
  have h : configRules.any (fun r => !r.holds bareGated) = false := by
    rw [← List.take_append_drop 6 configRules, List.any_append, bare_rules_one,
      ← List.take_append_drop 3 (configRules.drop 6), List.any_append, bare_rules_two, bare_rules_three]
    rfl
  rw [Chip.rulesBroken, h]
  decide +kernel

/-- Quiescing core 0 of that chip breaks no rule. -/
theorem bare_gate (x : Cmd) (hx : x.src = .host) : (dev .stopped bare).chip.gateConflict x 0 = false := by
  have h := bare_rules
  unfold bareGated at h
  have e : unitClass 0 = 0 := by decide +kernel
  simp only [Chip.gateConflict, h, hx, e]
  rfl

/-- A device of gang 5 with the gang's key. -/
def inGang5 (c : Chip) : Chip := (c.put GNG_ID.GANG_ID 5).put GNG_ID.KEY_SLOT 0

/-- A unit of pair 5 with the pair's key, in the pair state `n`. -/
def inPair5 (n : Nat) (c : Chip) : Chip :=
  (((c.put RED_ID.PAIR_ID 5).put RED_CTRL.PAIR_EN 1).put RED_ID.KEY_SLOT 0).put RED_STATUS.PAIR_STATE n

/-- A tile of 258 columns in one row, with one facet in strips of 32 lines, too long for a strip area. -/
def wide (c : Chip) : Chip :=
  (((bare c).put COL_CTRL.FACET_EN 1).put SCN_GEOM.TILE_W 258).put (STC_FEEDf_CFG.STRIP_LINES 0) 2

theorem bare_start : (dev .stopped bare).chip.startOk = true := by decide +kernel
theorem wide_start : (dev .stopped wide).chip.startOk = false := by decide +kernel

theorem witness_powerUpAndRelease :
    (∃ s : State, s.chip.st = .off ∧ s.chip.power.groupAGood = false) ∧
    (∃ s : State, s.chip.st = .reset ∧ s.chip.power.pwrenMain = true ∧ s.chip.power.groupBGood = false) ∧
    (∃ (s : State) (straps : BitVec 11) (banks : List BankSupply), s.chip.st = .reset ∧ s.chip.power.groupAGood = true ∧ s.chip.power.pwrenMain = true) ∧
    (∃ (s : State) (straps : BitVec 11) (banks : List BankSupply), s.chip.st = .reset) :=
  ⟨⟨dev .off (fun c => c.setPower { c.power with groupAGood := false }), by decide +kernel⟩,
   ⟨dev .reset (fun c => c.setPower { c.power with groupBGood := false }), by decide +kernel⟩,
   ⟨dev .reset id, 0, [.v18, .v18, .v18, .v18], by decide +kernel⟩,
   ⟨dev .reset id, 0, [.v18, .v18, .v18, .v18], by decide +kernel⟩⟩

theorem witness_lostRails :
    (∃ (s : State) (r : Rail), s.chip.st ≠ .off ∧ r ≠ .vddAon ∧ railB r = false) ∧
    (∃ (s : State) (r : Rail), s.chip.st ≠ .off ∧ s.chip.st ≠ .dormant ∧ s.chip.power.pwrenMain = true ∧ railB r = true) ∧
    (∃ s : State, s.chip.st ≠ .off ∧ s.turn (.railLost .vddAon) = true) ∧
    (∃ s : State, s.chip.st = .off ∧ s.chip.aon = Chip.powerOn.aon ∧ s.chip.power.groupAGood = false) ∧
    (∃ (s : State) (r : Rail), (s.chip.st = .dormant ∨ s.chip.power.pwrenMain = false) ∧ s.chip.st ≠ .off ∧ railB r = true) :=
  ⟨⟨dev .stopped id, .vddio3v3, by decide +kernel⟩,
   ⟨dev .stopped id, .vddCore, by decide +kernel⟩,
   ⟨dev .stopped id, by decide +kernel⟩,
   ⟨dev .off (fun c => c.setPower { c.power with groupAGood := false }), by decide +kernel⟩,
   ⟨dev .dormant id, .vddCore, by decide +kernel⟩⟩

theorem witness_resetsAndWhatTheyLeave :
    (∃ s : State, s.chip.st ≠ .off ∧ s.chip.st ≠ .dormant ∧ s.chip.st ≠ .reset) ∧
    (∃ s : State, s.chip.st = .dormant) ∧
    (∃ (s : State) (ms : Nat), s.chip.awake = true ∧ s.chip.errs.log.length < 128) ∧
    (∃ s : State, s.chip.awake = true ∧ s.chip.get CLK_STATUS.WAIT_XTAL = 1 ∧ s.chip.errs.log.length < 128) :=
  ⟨⟨dev .running id, by decide +kernel⟩,
   ⟨dev .dormant id, by decide +kernel⟩,
   ⟨dev .stopped id, 5, by decide +kernel⟩,
   ⟨dev .boot (fun c => c.put CLK_STATUS.WAIT_XTAL 1), by decide +kernel⟩⟩

theorem witness_bootSteps :
    (∃ (s : State) (records : Records) (logOk : Bool), s.chip.st = .boot ∧ s.chip.power.imageRunning = false ∧ s.chip.get CLK_STATUS.XTAL_QUAL = 1 ∧ s.chip.clk.trim = none) ∧
    (∃ (s : State) (records : Records) (logOk : Bool), s.chip.st = .boot ∧ s.chip.power.imageRunning = false ∧ s.chip.get CLK_STATUS.XTAL_QUAL = 1 ∧ s.chip.clk.trim = none ∧ (s.nv.lifecycle = 4 ∨ records = .otherBad)) ∧
    (∃ s : State, s.chip.st = .boot ∧ s.chip.power.imageRunning = true ∧ s.chip.power.portsUp = false) ∧
    (∃ s : State, s.chip.st = .boot ∧ s.chip.power.portsUp = true ∧ s.chip.power.settingsIn = false) ∧
    (∃ s : State, s.chip.st = .boot ∧ s.chip.power.settingsIn = true ∧ s.nv.fenceMark = true) ∧
    (∃ s : State, s.chip.st = .boot ∧ s.chip.power.settingsIn = true ∧ s.nv.fenceMark = false ∧ s.nv.wasRunning = false ∧ s.chip.get ID_STATE_CTRL.AUTO_START = 0) :=
  ⟨⟨dev .boot (fun c => (c.setPower { c.power with imageRunning := false }).put CLK_STATUS.XTAL_QUAL 1), .intact, true, by decide +kernel⟩,
   ⟨dev .boot (fun c => (c.setPower { c.power with imageRunning := false }).put CLK_STATUS.XTAL_QUAL 1), .otherBad, true, by decide +kernel⟩,
   ⟨dev .boot (fun c => c.setPower { c.power with portsUp := false }), by decide +kernel⟩,
   ⟨dev .boot (fun c => c.setPower { c.power with settingsIn := false }), by decide +kernel⟩,
   ⟨devN .boot (fun n => { n with fenceMark := true }) id, by decide +kernel⟩,
   ⟨dev .boot id, by decide +kernel⟩⟩

theorem witness_clockSourceLoss :
    (∃ (s : State) (p : PortIx), s.chip.awake = true ∧ s.chip.get CLK_STATUS.XTAL_WINDOW = 0 ∧ s.chip.clk.autoRestartUsed = false ∧ s.chip.activeSrc = some (portSrc p) ∧ s.chip.qualified (portSrc p) = true) ∧
    (∃ (s : State) (p : PortIx), s.chip.awake = true ∧ s.chip.get CLK_STATUS.XTAL_WINDOW = 0 ∧ s.chip.clk.autoRestartUsed = true ∧ s.chip.activeSrc = some (portSrc p) ∧ s.chip.qualified (portSrc p) = true) ∧
    (∃ (s : State) (p : PortIx), s.chip.awake = true ∧ s.chip.qualified .xtal = true ∧ s.chip.get CLK_STATUS.COSC_TRIMMED = 1 ∧ s.chip.activeSrc = some (portSrc p) ∧ s.chip.qualified (portSrc p) = true) ∧
    (∃ (s : State) (p : PortIx), s.chip.awake = true ∧ s.chip.qualified (portSrc p) = true ∧ s.chip.activeSrc = some .xtal ∧ s.chip.qualified .xtal = true ∧ s.chip.upstream ≠ p) ∧
    (∃ (s : State) (p : PortIx), s.chip.awake = true ∧ s.chip.qualified (portSrc p) = false) ∧
    (∃ (s : State) (p : PortIx), s.chip.awake = true ∧ s.chip.qualified (portSrc p) = true ∧ s.chip.upstream = p ∧ s.chip.get CLK_CTRL.SRC_MODE = 0 ∧ s.chip.activeSrc = some (portSrc p) ∧ s.chip.clk.lastSrc = some (portSrc p) ∧ s.chip.qualified .xtal = true ∧ s.chip.time.servo ≠ .locked) ∧
    (∃ (s : State) (p : PortIx), s.chip.awake = true ∧ s.chip.qualified (portSrc p) = true ∧ s.chip.upstream = p ∧ s.chip.activeSrc = some .xtal ∧ s.chip.qualified .xtal = true ∧ s.chip.time.servo = .locked ∧ s.chip.timeValid = true ∧ s.chip.get CLK_STATUS.WAIT_XTAL = 0) ∧
    (∃ (s : State) (p : PortIx), s.chip.awake = true ∧ s.chip.qualified (portSrc p) = true ∧ s.chip.upstream ≠ p ∧ s.chip.activeSrc = some .xtal ∧ s.chip.qualified .xtal = true) ∧
    (∃ (s : State) (p : PortIx), s.chip.awake = true ∧ s.chip.get CLK_STATUS.XTAL_WINDOW = 1 ∧ s.chip.get CLK_STATUS.WAIT_XTAL = 0 ∧ s.chip.qualified (portSrc p) = true) :=
  ⟨⟨dev .stopped (fun c => (((c.put CLK_STATUS.ACTIVE_SRC 2).put CLK_STATUS.XTAL_QUAL 1).put CLK_STATUS.P0_QUAL 1).put CLK_STATUS.XTAL_WINDOW 0), 0, by decide +kernel⟩,
   ⟨dev .stopped (fun c => (((((c.setClk { c.clk with autoRestartUsed := true })).put CLK_STATUS.ACTIVE_SRC 2).put CLK_STATUS.XTAL_QUAL 1).put CLK_STATUS.P0_QUAL 1).put CLK_STATUS.XTAL_WINDOW 0), 0, by decide +kernel⟩,
   ⟨dev .stopped (fun c => (((c.put CLK_STATUS.ACTIVE_SRC 2).put CLK_STATUS.XTAL_QUAL 1).put CLK_STATUS.P0_QUAL 1).put CLK_STATUS.COSC_TRIMMED 1), 0, by decide +kernel⟩,
   ⟨dev .stopped (fun c => (((c.put CLK_STATUS.ACTIVE_SRC 1).put CLK_STATUS.XTAL_QUAL 1).put CLK_STATUS.P0_QUAL 1).put CLK_CTRL.UPSTREAM 1), 0, by decide +kernel⟩,
   ⟨dev .stopped (fun c => (c.put CLK_STATUS.ACTIVE_SRC 1).put CLK_STATUS.XTAL_QUAL 1), 0, by decide +kernel⟩,
   ⟨dev .stopped (fun c => ((((c.setClk { c.clk with lastSrc := some .p0 })).put CLK_STATUS.ACTIVE_SRC 2).put CLK_STATUS.XTAL_QUAL 1).put CLK_STATUS.P0_QUAL 1), 0, by decide +kernel⟩,
   ⟨dev .stopped (fun c => (((((c.setTime { c.time with servo := .locked })).put CLK_STATUS.ACTIVE_SRC 1).put CLK_STATUS.XTAL_QUAL 1).put CLK_STATUS.P0_QUAL 1).put TIM_STATUS.TIME_VALID 1), 0, by decide +kernel⟩,
   ⟨dev .stopped (fun c => (((c.put CLK_STATUS.ACTIVE_SRC 1).put CLK_STATUS.XTAL_QUAL 1).put CLK_STATUS.P0_QUAL 1).put CLK_CTRL.UPSTREAM 1), 0, by decide +kernel⟩,
   ⟨dev .stopped (fun c => (c.put CLK_STATUS.XTAL_WINDOW 1).put CLK_STATUS.P0_QUAL 1), 0, by decide +kernel⟩⟩

theorem witness_clockQualification :
    (∃ s : State, s.chip.awake = true ∧ s.chip.get CLK_STATUS.XTAL_WINDOW = 1 ∧ s.chip.get CLK_STATUS.WAIT_XTAL = 0) ∧
    (∃ (s : State) (p : PortIx), s.chip.awake = true ∧ s.chip.qualified .xtal = true ∧ s.chip.power.portsUp = true ∧ s.chip.qualified (portSrc p) = false ∧ s.chip.get CLK_STATUS.WAIT_XTAL = 0) ∧
    (∃ s : State, s.chip.awake = true ∧ s.chip.activeSrc.isSome = true) ∧
    (∃ (s : State) (p : PortIx) (ppb : Int), s.chip.awake = true) :=
  ⟨⟨dev .stopped (fun c => c.put CLK_STATUS.XTAL_WINDOW 1), by decide +kernel⟩,
   ⟨dev .stopped (fun c => c.put CLK_STATUS.XTAL_QUAL 1), 0, by decide +kernel⟩,
   ⟨dev .stopped (fun c => c.put CLK_STATUS.ACTIVE_SRC 1), by decide +kernel⟩,
   ⟨dev .stopped id, 0, 5, by decide +kernel⟩⟩

theorem witness_reverting :
    (∃ s : State, s.chip.awake = true ∧ s.chip.activeSrc = some .xtal ∧ s.chip.clk.lastSrc = some .xtal ∧ s.chip.get CLK_CTRL.SRC_MODE = 0 ∧ s.chip.get CLK_CTRL.REVERTIVE = 1 ∧ s.chip.qualified (portSrc s.chip.upstream) = true) ∧
    (∃ s : State, s.chip.awake = true ∧ s.chip.get CLK_CTRL.SRC_MODE = 0 ∧ s.chip.get CLK_CTRL.REVERTIVE = 0) ∧
    (∃ (s : State) (p : PortIx), s.chip.awake = true ∧ s.chip.qualified .xtal = true ∧ s.chip.power.portsUp = true ∧ s.chip.qualified (portSrc p) = false ∧ s.chip.get CLK_STATUS.WAIT_XTAL = 0 ∧ s.chip.activeSrc = some .xtal ∧ s.chip.get CLK_CTRL.SRC_MODE = 0 ∧ s.chip.clk.modeFresh = false) :=
  ⟨⟨dev .stopped (fun c => (((((c.setClk { c.clk with lastSrc := some .xtal })).put CLK_STATUS.ACTIVE_SRC 1).put CLK_STATUS.XTAL_QUAL 1).put CLK_STATUS.P0_QUAL 1).put CLK_CTRL.REVERTIVE 1), by decide +kernel⟩,
   ⟨dev .stopped (fun c => c.put CLK_CTRL.REVERTIVE 0), by decide +kernel⟩,
   ⟨dev .stopped (fun c => (c.put CLK_STATUS.ACTIVE_SRC 1).put CLK_STATUS.XTAL_QUAL 1), 0, by decide +kernel⟩⟩

theorem witness_clockControlAndTrim :
    (∃ (s : State) (mode : Fin 4), (s.chip.st = .stopped ∨ s.chip.st = .running) ∧ s.chip.sel.txns = [] ∧ s.chip.layoutOld = false ∧ s.chip.get CLK_STATUS.WAIT_XTAL = 0) ∧
    (∃ (s : State) (p : PortIx), (s.chip.st = .stopped ∨ s.chip.st = .running) ∧ s.chip.sel.txns = [] ∧ s.chip.get CLK_STATUS.WAIT_XTAL = 0 ∧ s.chip.activeSrc = some (portSrc p)) ∧
    (∃ s : State, (s.chip.st = .stopped ∨ s.chip.st = .running) ∧ s.chip.sel.txns = [] ∧ (s.chip.get CLK_STATUS.WAIT_XTAL = 1 ∨ (s.chip.activeSrc = some .xtal ∧ s.chip.qualified .p0 = false ∧ s.chip.qualified .p1 = false))) ∧
    (∃ s : State, (s.chip.st = .stopped ∨ s.chip.st = .running) ∧ s.chip.sel.txns = [] ∧ s.chip.clk.trim = none ∧ s.chip.get CLK_COSC_TRIM.TRIM_REF ≠ 3) ∧
    (∃ s : State, (s.chip.st = .stopped ∨ s.chip.st = .running) ∧ s.chip.sel.txns = [] ∧ s.chip.clk.trim.isSome = true) ∧
    (∃ s : State, s.chip.awake = true ∧ s.chip.get CLK_COSC_TRIM.AUTO = 1 ∧ s.chip.power.imageRunning = true ∧ s.chip.clk.trim = none ∧ s.chip.get CLK_COSC_TRIM.TRIM_REF ≠ 3) ∧
    (∃ (s : State) (t : Trim) (cycles : Nat), s.chip.awake = true ∧ s.chip.clk.trim = some t ∧ t.phase = .coarse ∧ s.chip.get CLK_COSC_TRIM.TRIM_REF = 0 ∧ 196800000 ≤ cycles * 25000000 / 262144 ∧ cycles * 25000000 / 262144 ≤ 203200000) ∧
    (∃ (s : State) (t : Trim) (cycles : Nat), s.chip.awake = true ∧ s.chip.clk.trim = some t ∧ t.phase = .fine 0 ∧ s.chip.get CLK_COSC_TRIM.TRIM_REF = 0 ∧ cycles * 25000000 / 262144 = 200000000) ∧
    (∃ (s : State) (cycles : Nat), s.chip.awake = true) :=
  ⟨⟨dev .stopped id, 0, by decide +kernel⟩,
   ⟨dev .stopped (fun c => c.put CLK_STATUS.ACTIVE_SRC 2), 0, by decide +kernel⟩,
   ⟨dev .stopped (fun c => c.put CLK_STATUS.WAIT_XTAL 1), by decide +kernel⟩,
   ⟨dev .stopped id, by decide +kernel⟩,
   ⟨dev .stopped (fun c => c.setClk { c.clk with trim := some (⟨.coarse, 0, 0, none, 0, 0⟩ : Trim) }), by decide +kernel⟩,
   ⟨dev .stopped (fun c => c.put CLK_COSC_TRIM.AUTO 1), by decide +kernel⟩,
   ⟨dev .stopped (fun c => c.setClk { c.clk with trim := some (⟨.coarse, 0, 0, none, 0, 0⟩ : Trim) }), (⟨.coarse, 0, 0, none, 0, 0⟩ : Trim), 2097152, by decide +kernel⟩,
   ⟨dev .stopped (fun c => c.setClk { c.clk with trim := some (⟨.fine 0, 0, 0, none, 0, 0⟩ : Trim) }), (⟨.fine 0, 0, 0, none, 0, 0⟩ : Trim), 2097152, by decide +kernel⟩,
   ⟨dev .stopped id, 5, by decide +kernel⟩⟩

theorem witness_syncRunsTheServo :
    (∃ (s : State) (m : SyncMsg), s.chip.timed = true ∧ s.chip.power.portsUp = true ∧ s.chip.linkUp m.port = true ∧ s.chip.get TIM_CTRL.TIME_SRC = 0 ∧ s.chip.get TIM_CTRL.PROFILE = 0 ∧ s.chip.get TIM_CTRL.TS_EXPORT = 0 ∧ s.chip.time.slave = some (m.port, m.master) ∧ s.chip.time.servo = .locked ∧ s.chip.time.upstreamLostAt ≠ some s.chip.time.c.toNat ∧ mag (s.chip.syncError m) ≤ s.chip.stepThresh ∧ s.chip.isOutlier (s.chip.syncError m) = false) ∧
    (∃ (s : State) (m : SyncMsg), s.chip.timed = true ∧ s.chip.power.portsUp = true ∧ s.chip.linkUp m.port = true ∧ s.chip.get TIM_CTRL.TIME_SRC = 0 ∧ s.chip.get TIM_CTRL.PROFILE = 0 ∧ s.chip.get TIM_CTRL.TS_EXPORT = 0 ∧ s.chip.time.slave = some (m.port, m.master) ∧ s.chip.time.servo = .locked ∧ s.chip.time.upstreamLostAt ≠ some s.chip.time.c.toNat ∧ mag (s.chip.syncError m) ≤ s.chip.stepThresh ∧ s.chip.isOutlier (s.chip.syncError m) = true) ∧
    (∃ (s : State) (m : SyncMsg), s.chip.timed = true ∧ s.chip.power.portsUp = true ∧ s.chip.linkUp m.port = true ∧ s.chip.get TIM_CTRL.TIME_SRC = 0 ∧ s.chip.get TIM_CTRL.PROFILE = 0 ∧ s.chip.get TIM_CTRL.TS_EXPORT = 0 ∧ s.chip.time.slave = some (m.port, m.master) ∧ s.chip.time.servo = .acquire ∧ s.chip.time.upstreamLostAt ≠ some s.chip.time.c.toNat ∧ s.chip.stepThresh < mag (s.chip.syncError m) ∧ (∀ n, n < 4 → (s.chip.trig n).target = none)) ∧
    (∃ (s : State) (m : SyncMsg), s.chip.timed = true ∧ s.chip.power.portsUp = true ∧ s.chip.linkUp m.port = true ∧ s.chip.get TIM_CTRL.TS_EXPORT = 0 ∧ s.chip.time.upstreamLostAt = some s.chip.time.c.toNat) ∧
    (∃ (s : State) (m : SyncMsg), s.chip.timed = true ∧ s.chip.power.portsUp = true ∧ s.chip.linkUp m.port = true ∧ s.chip.get TIM_CTRL.TIME_SRC = 0 ∧ s.chip.get TIM_CTRL.PROFILE = 1 ∧ s.chip.get TIM_STATUS.PHASE_VALID = 1 ∧ m.phaseBit = true ∧ s.chip.get TIM_CTRL.TS_EXPORT = 0 ∧ s.chip.time.slave = some (m.port, m.master) ∧ s.chip.time.upstreamLostAt ≠ some s.chip.time.c.toNat ∧ s.chip.phaseItem = true ∧ (s.chip.linkUp 0 && s.chip.linkUp 1) = false) :=
  ⟨⟨dev .stopped (fun c => (c.setTime { c.time with slave := some (0, 7), servo := .locked })), ⟨0, 7, 1, 0, 0, 0, false, 0, 0⟩, by decide +kernel⟩,
   ⟨dev .stopped (fun c => ((c.setTime { c.time with slave := some (0, 7), servo := .locked, accepted := List.replicate 8 0 })).put TIM_SERVO.OUTLIER 1), ⟨0, 7, 1, 500 * nsU, 0, 0, false, 0, 0⟩, by decide +kernel⟩,
   ⟨dev .stopped (fun c => (c.setTime { c.time with slave := some (0, 7), servo := .acquire })), ⟨0, 7, 1, 10000000000 * nsU, 0, 0, false, 0, 0⟩, by decide +kernel⟩,
   ⟨dev .stopped (fun c => (c.setTime { c.time with slave := some (0, 7), servo := .holdover, upstreamLostAt := some 0 })), ⟨0, 7, 1, 0, 0, 0, false, 0, 0⟩, by decide +kernel⟩,
   ⟨dev .stopped (fun c => (((((c.setTime { c.time with slave := some (0, 7), servo := .locked }).setCalib { c.calib with run := some ⟨0, [1], [], [], [], [], none⟩ })).put TIM_CTRL.PROFILE 1).put TIM_STATUS.PHASE_VALID 1).put (PRTn_STATUS.LINK_UP 1) 0), ⟨0, 7, 1, 0, 0, 0, true, 0, 0⟩, by decide +kernel⟩⟩

theorem witness_ptpMessages :
    (∃ (s : State) (a : PtpAnnounce), s.chip.timed = true ∧ s.chip.power.portsUp = true ∧ s.chip.linkUp a.port = true ∧ a.domain = s.chip.get TIM_CTRL.DOMAIN ∧ a.gmId < 2 ^ 64 ∧ s.chip.get TIM_CTRL.PTP_ROLE = 0 ∧ s.chip.time.foreign = [] ∧ s.chip.activeSrc.isSome = true) ∧
    (∃ (s : State) (a : PtpAnnounce), s.chip.timed = true ∧ s.chip.power.portsUp = true ∧ s.chip.linkUp a.port = true ∧ a.domain ≠ s.chip.get TIM_CTRL.DOMAIN) ∧
    (∃ (s : State) (p : PortIx) (sender : Nat), s.chip.timed = true ∧ s.chip.time.servo ≠ .acquire ∧ s.chip.activeSrc.isSome = true) ∧
    (∃ (s : State) (p : PortIx) (requester seq frac10 : Nat), s.chip.timed = true ∧ s.chip.power.portsUp = true ∧ s.chip.linkUp p = true ∧ s.chip.get TIM_CTRL.PTP_ROLE = 2 ∧ s.chip.get TIM_CTRL.TS_EXPORT = 0 ∧ (s.chip.time.dreqWindow.getD p.val (0, 0)).1 ≠ s.chip.time.c.toNat / 800000000 ∧ (s.chip.port p).txq.length < 64) ∧
    (∃ (s : State) (m : PdelayMsg), s.chip.timed = true ∧ s.chip.power.portsUp = true ∧ s.chip.linkUp m.port = true ∧ s.chip.get TIM_CTRL.TS_EXPORT = 0) ∧
    (∃ (s : State) (p : PortIx) (frac10 : Nat), s.chip.timed = true ∧ s.chip.power.portsUp = true ∧ s.chip.isMaster = true ∧ s.chip.linkUp p = true ∧ (s.chip.port p).txq.length < 64 ∧ s.chip.get TIM_CTRL.TS_EXPORT = 0) ∧
    (∃ (s : State) (p : PortIx), s.chip.timed = true ∧ s.chip.power.portsUp = true ∧ s.chip.isMaster = true ∧ s.chip.linkUp p = true ∧ (s.chip.port p).txq.length < 64) ∧
    (∃ (s : State) (p : PortIx) (frac10 : Nat), s.chip.timed = true ∧ s.chip.power.portsUp = true ∧ s.chip.peerDelay = true ∧ s.chip.linkUp p = true ∧ (s.chip.port p).txq.length < 64 ∧ s.chip.get TIM_CTRL.TS_EXPORT = 0) ∧
    (∃ (s : State) (p : PortIx) (sender seq : Nat) (receipt correction t1 t2 t3 : Int), s.chip.timed = true ∧ s.chip.power.portsUp = true ∧ s.chip.linkUp p = true ∧ s.chip.peerDelay = false ∧ s.chip.time.slave = some (p, sender) ∧ s.chip.time.delayReq = some (t3, seq) ∧ s.chip.time.lastSync = some (t1, t2)) :=
  ⟨⟨dev .stopped (fun c => (c.put CLK_STATUS.ACTIVE_SRC 1).put TIM_CTRL.DOMAIN 0), ⟨0, 7, 0, 128, 6, 0, 0, 128, 9, 0, 37, true⟩, by decide +kernel⟩,
   ⟨dev .stopped id, ⟨0, 7, 1, 128, 6, 0, 0, 128, 9, 0, 37, true⟩, by decide +kernel⟩,
   ⟨dev .stopped (fun c => c.put CLK_STATUS.ACTIVE_SRC 1), 0, 7, by decide +kernel⟩,
   ⟨dev .stopped (fun c => ((c.setTime { c.time with dreqWindow := [(5, 0), (0, 0)] })).put TIM_CTRL.PTP_ROLE 2), 0, 7, 1, 0, by decide +kernel⟩,
   ⟨dev .stopped id, ⟨0, 0, 0, 0, 0, 0, 0, false⟩, by decide +kernel⟩,
   ⟨dev .stopped (fun c => c.put TIM_CTRL.PTP_ROLE 2), 0, 0, by decide +kernel⟩,
   ⟨dev .stopped (fun c => c.put TIM_CTRL.PTP_ROLE 2), 0, by decide +kernel⟩,
   ⟨dev .stopped (fun c => c.put TIM_CTRL.PROFILE 1), 0, 0, by decide +kernel⟩,
   ⟨dev .stopped (fun c => c.setTime { c.time with slave := some (0, 7), delayReq := some (3, 1), lastSync := some (1, 2) }), 0, 7, 1, 0, 0, 1, 2, 3, by decide +kernel⟩⟩

theorem witness_holdoverOfTime :
    (∃ s : State, s.chip.timed = true ∧ s.chip.time.servo = .locked ∧ s.chip.timeValid = true ∧ s.chip.get CLK_STATUS.WAIT_XTAL = 0) ∧
    (∃ s : State, s.chip.timed = true ∧ s.chip.time.servo ≠ .locked ∧ s.chip.time.servo ≠ .acquire) ∧
    (∃ s : State, s.chip.timed = true ∧ s.chip.time.servo = .acquire ∧ s.chip.timeValid = false ∧ s.chip.get TIM_CTRL.PTP_ROLE ≠ 2) ∧
    (∃ s : State, s.chip.timed = true ∧ s.chip.time.servo = .fsync ∧ s.chip.timeValid = true ∧ s.chip.get CLK_STATUS.WAIT_XTAL = 0) ∧
    (∃ s : State, s.chip.timed = true ∧ s.chip.time.servo ≠ .fsync) ∧
    (∃ s : State, s.chip.timed = true ∧ s.chip.holdOver = true ∧ s.chip.get TIM_HOLD.HOLD_ACTION = 0) ∧
    (∃ s : State, s.chip.timed = true ∧ s.chip.holdOver = true ∧ s.chip.get TIM_HOLD.HOLD_ACTION = 1 ∧ s.chip.timeValid = true) ∧
    (∃ s : State, s.chip.timed = true ∧ s.chip.holdOver = false) :=
  ⟨⟨dev .stopped (fun c => ((c.setTime { c.time with servo := .locked })).put TIM_STATUS.TIME_VALID 1), by decide +kernel⟩,
   ⟨dev .stopped (fun c => (c.setTime { c.time with servo := .freerun })), by decide +kernel⟩,
   ⟨dev .stopped (fun c => (c.setTime { c.time with servo := .acquire })), by decide +kernel⟩,
   ⟨dev .stopped (fun c => ((c.setTime { c.time with servo := .fsync })).put TIM_STATUS.TIME_VALID 1), by decide +kernel⟩,
   ⟨dev .stopped (fun c => (c.setTime { c.time with servo := .locked })), by decide +kernel⟩,
   ⟨dev .stopped (fun c => (c.setTime { c.time with servo := .holdover, holdStart := some 0, c := 2 ^ 50 })), by decide +kernel⟩,
   ⟨dev .stopped (fun c => (((c.setTime { c.time with servo := .holdover, holdStart := some 0, c := 2 ^ 50 })).put TIM_STATUS.TIME_VALID 1).put TIM_HOLD.HOLD_ACTION 1), by decide +kernel⟩,
   ⟨dev .stopped (fun c => (c.setTime { c.time with servo := .locked })), by decide +kernel⟩⟩

theorem witness_fsyncAndSetGo :
    (∃ (s : State) (rising : Bool) (frac10 : Nat), s.chip.timed = true ∧ s.chip.bit TIM_FSYNC.FS_EDGE = rising) ∧
    (∃ (s : State) (rising : Bool) (frac10 : Nat), s.chip.timed = true ∧ s.chip.bit TIM_FSYNC.FS_EDGE = !rising ∧ s.chip.get TIM_CTRL.TIME_SRC ≠ 1) ∧
    (∃ (s : State) (rising : Bool) (frac10 : Nat), s.chip.timed = true ∧ s.chip.bit TIM_FSYNC.FS_EDGE = !rising ∧ s.chip.get TIM_CTRL.TIME_SRC = 1 ∧ s.chip.time.servo ≠ .fsync ∧ (∀ n, n < 4 → (s.chip.trig n).target = none)) ∧
    (∃ s : State, (s.chip.st = .stopped ∨ s.chip.st = .running) ∧ s.chip.sel.txns = [] ∧ s.chip.get TIM_CTRL.PTP_ROLE = 2 ∧ (∀ n, n < 4 → (s.chip.trig n).target = none)) ∧
    (∃ s : State, (s.chip.st = .stopped ∨ s.chip.st = .running) ∧ s.chip.sel.txns = [] ∧ s.chip.get TIM_CTRL.PTP_ROLE ≠ 2 ∧ s.chip.get TIM_CTRL.TIME_SRC = 0) :=
  ⟨⟨dev .stopped id, false, 0, by decide +kernel⟩,
   ⟨dev .stopped id, true, 0, by decide +kernel⟩,
   ⟨dev .stopped (fun c => c.put TIM_CTRL.TIME_SRC 1), true, 0, by decide +kernel⟩,
   ⟨dev .stopped (fun c => c.put TIM_CTRL.PTP_ROLE 2), by decide +kernel⟩,
   ⟨dev .stopped id, by decide +kernel⟩⟩

theorem witness_timeReadsAndCaptures :
    (∃ s : State, s.chip.writable = true) ∧
    (∃ (s : State) (e : TsqEntry) (q : List TsqEntry), s.chip.writable = true ∧ s.chip.time.tsq = e :: q) ∧
    (∃ s : State, s.chip.writable = true ∧ s.chip.time.tsq = []) ∧
    (∃ (s : State) (p : PortIx) (requester seq frac10 : Nat), s.chip.timed = true ∧ s.chip.power.portsUp = true ∧ s.chip.linkUp p = true ∧ s.chip.isMaster = false ∧ s.chip.get TIM_CTRL.TS_EXPORT = 1 ∧ s.chip.time.tsq.length < 64) ∧
    (∃ (s : State) (p : PortIx) (requester seq frac10 : Nat), s.chip.timed = true ∧ s.chip.power.portsUp = true ∧ s.chip.linkUp p = true ∧ s.chip.isMaster = false ∧ s.chip.get TIM_CTRL.TS_EXPORT = 1 ∧ 64 ≤ s.chip.time.tsq.length) ∧
    (∃ (s : State) (n : Fin 4) (rising : Bool) (frac10 : Nat), s.chip.timed = true ∧ s.chip.time.capHeld.length = 4 ∧ s.chip.time.capHeld.getD n.val none = none) ∧
    (∃ (s : State) (n : Fin 4) (rising : Bool) (frac10 : Nat) (h : CapHold), s.chip.timed = true ∧ s.chip.time.capHeld.length = 4 ∧ s.chip.time.capHeld.getD n.val none = some h ∧ h.rising = !rising ∧ s.chip.time.at05 frac10 < h.at05 + 100) ∧
    (∃ (s : State) (n : Fin 4) (rising : Bool) (frac10 : Nat) (h : CapHold), s.chip.timed = true ∧ s.chip.time.caps.length = 4 ∧ s.chip.time.capHeld.getD n.val none = some h ∧ h.enabled = true ∧ (h.rising = rising ∨ h.at05 + 100 ≤ s.chip.time.at05 frac10) ∧ (s.chip.time.lastCap.getD n.val none).all (fun l => decide (l + 1000 ≤ h.at05)) = true ∧ (s.chip.time.caps.getD n.val []).length < 16) ∧
    (∃ (s : State) (n : Fin 4) (rising : Bool) (frac10 : Nat) (h : CapHold), s.chip.timed = true ∧ s.chip.time.capHeld.getD n.val none = some h ∧ h.enabled = true ∧ h.rising = rising ∧ s.chip.time.lastCap.getD n.val none = none ∧ 16 ≤ (s.chip.time.caps.getD n.val []).length) ∧
    (∃ (s : State) (n : Fin 4) (rising : Bool) (frac10 t : Nat) (h : CapHold), s.chip.timed = true ∧ s.chip.time.capHeld.getD n.val none = some h ∧ h.enabled = true ∧ h.rising = rising ∧ s.chip.time.lastCap.getD n.val none = some t ∧ h.at05 < t + 1000) ∧
    (∃ (s : State) (n : Fin 4) (e : TimeRec) (q : List TimeRec), s.chip.writable = true ∧ s.chip.time.caps.length = 4 ∧ s.chip.time.caps.getD n.val [] = e :: q) :=
  ⟨⟨dev .stopped id, by decide +kernel⟩,
   ⟨dev .stopped (fun c => (c.setTime { c.time with tsq := [⟨⟨0, 0, 0, false⟩, 0, 0, false, 0⟩] })), ⟨⟨0, 0, 0, false⟩, 0, 0, false, 0⟩, [], by decide +kernel⟩,
   ⟨dev .stopped id, by decide +kernel⟩,
   ⟨dev .stopped (fun c => (c.put TIM_CTRL.TS_EXPORT 1).put TIM_CTRL.PTP_ROLE 0), 0, 7, 1, 0, by decide +kernel⟩,
   ⟨dev .stopped (fun c => (((c.setTime { c.time with tsq := List.replicate 64 ⟨⟨0, 0, 0, false⟩, 0, 0, false, 0⟩ })).put TIM_CTRL.TS_EXPORT 1).put TIM_CTRL.PTP_ROLE 0), 0, 7, 1, 0, by decide +kernel⟩,
   ⟨dev .stopped id, 0, true, 0, by decide +kernel⟩,
   ⟨dev .stopped (fun c => (c.setTime { c.time with capHeld := [some ⟨0, false, ⟨0, 0, 0, false⟩, true⟩, none, none, none] })), 0, true, 0, ⟨0, false, ⟨0, 0, 0, false⟩, true⟩, by decide +kernel⟩,
   ⟨dev .stopped (fun c => (c.setTime { c.time with capHeld := [some ⟨0, true, ⟨0, 0, 0, false⟩, true⟩, none, none, none] })), 0, true, 0, ⟨0, true, ⟨0, 0, 0, false⟩, true⟩, by decide +kernel⟩,
   ⟨dev .stopped (fun c => (c.setTime { c.time with capHeld := [some ⟨0, true, ⟨0, 0, 0, false⟩, true⟩, none, none, none], caps := List.replicate 4 (List.replicate 16 ⟨0, 0, 0, false⟩) })), 0, true, 0, ⟨0, true, ⟨0, 0, 0, false⟩, true⟩, by decide +kernel⟩,
   ⟨dev .stopped (fun c => (c.setTime { c.time with capHeld := [some ⟨0, true, ⟨0, 0, 0, false⟩, true⟩, none, none, none], lastCap := [some 0, none, none, none] })), 0, true, 0, 0, ⟨0, true, ⟨0, 0, 0, false⟩, true⟩, by decide +kernel⟩,
   ⟨dev .stopped (fun c => (c.setTime { c.time with caps := [[⟨0, 0, 0, false⟩], [], [], []] })), 0, ⟨0, 0, 0, false⟩, [], by decide +kernel⟩⟩

theorem witness_triggers :
    (∃ (s : State) (n : Fin 4) (v : Nat), (s.chip.st = .stopped ∨ s.chip.st = .running) ∧ s.chip.sel.txns = [] ∧ s.chip.layoutOld = false ∧ s.chip.time.trigs.length = 4 ∧ v < 2 ^ 32 ∧ (s.chip.get (TIM_TRIGn_CTRL.MODE n) = 1 ∨ s.chip.get (TIM_TRIGn_CTRL.MODE n) = 2) ∧ ((v : Int) - s.chip.now / nsU) % 2 ^ 32 < 2 ^ 31 ∧ ((v : Int) - s.chip.now / nsU) % 2 ^ 32 ≠ 0) ∧
    (∃ (s : State) (n : Fin 4) (g : Int), s.chip.timed = true ∧ s.chip.timeValid = true ∧ s.chip.time.trigs.length = 4 ∧ s.chip.get (TIM_TRIGn_CTRL.MODE n) = 1 ∧ (s.chip.trig n).target = some g ∧ g < s.chip.nextTick) ∧
    (∃ (s : State) (n : Fin 4) (g : Int), s.chip.timed = true ∧ s.chip.timeValid = true ∧ s.chip.time.trigs.length = 4 ∧ s.chip.get (TIM_TRIGn_CTRL.MODE n) = 2 ∧ (s.chip.trig n).target = some g ∧ (s.chip.trig n).fired = none ∧ g < s.chip.nextTick) ∧
    (∃ (s : State) (n : Fin 4) (g : Int), s.chip.timed = true ∧ s.chip.timeValid = true ∧ s.chip.time.trigs.length = 4 ∧ (s.chip.get (TIM_TRIGn_CTRL.MODE n) = 3 ∨ s.chip.get (TIM_TRIGn_CTRL.MODE n) = 4) ∧ s.chip.trigDue n = some g) ∧
    (∃ (s : State) (n : Fin 4), s.chip.timed = true ∧ s.chip.trigDue n = none) ∧
    (∃ (s : State) (n : Fin 4) (g : Int), s.chip.timed = true ∧ s.chip.timeValid = false ∧ s.chip.time.trigs.length = 4 ∧ s.chip.get (TIM_TRIGn_CTRL.MODE n) = 1 ∧ (s.chip.trig n).target = some g ∧ g < s.chip.nextTick) ∧
    (∃ (s : State) (n : Fin 4), s.chip.timed = true ∧ s.chip.time.trigs.length = 4 ∧ (s.chip.trig n).asserted = true ∧ (s.chip.trig n).till ≤ s.chip.time.c.toNat) ∧
    (∃ (s : State) (n : Fin 4), s.chip.timed = true ∧ s.chip.time.c.toNat < (s.chip.trig n).till) :=
  ⟨⟨dev .stopped (fun c => c.put (TIM_TRIGn_CTRL.MODE 0) 1), 0, 5, by decide +kernel⟩,
   ⟨dev .running (fun c => (((c.setTime { c.time with trigs := ⟨some 0, 0, none, false, 0⟩ :: List.replicate 3 Trig.idle })).put (TIM_TRIGn_CTRL.MODE 0) 1).put TIM_STATUS.TIME_VALID 1), 0, 0, by decide +kernel⟩,
   ⟨dev .running (fun c => (((c.setTime { c.time with trigs := ⟨some 0, 0, none, false, 0⟩ :: List.replicate 3 Trig.idle })).put (TIM_TRIGn_CTRL.MODE 0) 2).put TIM_STATUS.TIME_VALID 1), 0, 0, by decide +kernel⟩,
   ⟨dev .running (fun c => (c.put (TIM_TRIGn_CTRL.MODE 0) 4).put TIM_STATUS.TIME_VALID 1), 0, 0, by decide +kernel⟩,
   ⟨dev .running id, 0, by decide +kernel⟩,
   ⟨dev .running (fun c => ((c.setTime { c.time with trigs := ⟨some 0, 0, none, false, 0⟩ :: List.replicate 3 Trig.idle })).put (TIM_TRIGn_CTRL.MODE 0) 1), 0, 0, by decide +kernel⟩,
   ⟨dev .running (fun c => (c.setTime { c.time with trigs := ⟨none, 0, none, true, 0⟩ :: List.replicate 3 Trig.idle })), 0, by decide +kernel⟩,
   ⟨dev .running (fun c => (c.setTime { c.time with trigs := ⟨none, 0, none, true, 9⟩ :: List.replicate 3 Trig.idle })), 0, by decide +kernel⟩⟩

theorem witness_boundariesAndFreezePoints :
    (∃ (s : State) (n : Int), s.chip.timed = true ∧ s.chip.timeValid = true ∧ s.chip.pend = [] ∧ (s.chip.time.lastFrame = none ∨ s.chip.time.lastFrame = some (n - 1))) ∧
    (∃ (s : State) (n : Int), s.chip.timed = true ∧ s.chip.timeValid = true ∧ s.chip.pend = [] ∧ s.chip.time.freezeDone = false ∧ (s.chip.time.lastFrame = none ∨ s.chip.time.lastFrame = some n)) ∧
    (∃ (s : State) (n : Int), s.chip.timed = true ∧ s.chip.timeValid = false) :=
  ⟨⟨dev .stopped (fun c => c.put TIM_STATUS.TIME_VALID 1), 0, by decide +kernel⟩,
   ⟨dev .stopped (fun c => c.put TIM_STATUS.TIME_VALID 1), 0, by decide +kernel⟩,
   ⟨dev .stopped id, 0, by decide +kernel⟩⟩

theorem witness_coresAndItems :
    (∃ (s : State) (k : Fin 64), s.chip.timed = true ∧ s.chip.sched.items = [] ∧ s.chip.coreLive k.val = true ∧ s.chip.sched.idle.contains k.val = false) ∧
    (∃ (s : State) (k : Fin 64) (i : Item), s.chip.timed = true ∧ s.turn (.coreRequest k) = true ∧ s.chip.sched.items = [i] ∧ i.state = .ready ∧ (i.type = .detect ∨ i.type = .map) ∧ s.chip.coreLive k.val = true ∧ s.chip.sched.idle = [] ∧ s.chip.get SCH_TRACE_CTRL.TR_EN = 0 ∧ s.canceling = false ∧ s.chip.pend = [] ∧ s.chip.sel.txns = [] ∧ s.chip.sel.cmdq = [] ∧ s.chip.gang.toSignal = [] ∧ s.chip.ringsRest = true ∧ s.chip.calib.run = none) ∧
    (∃ (s : State) (k : Fin 64) (i : Item), s.chip.timed = true ∧ s.chip.sched.items = [i] ∧ i.state = .running k.val ∧ i.type = .detect ∧ i.cancel = none ∧ s.chip.get SCH_TRACE_CTRL.TR_EN = 0 ∧ i.buffer < s.chip.scan.stg.length) ∧
    (∃ (s : State) (k : Fin 64) (i : Item) (r : Nat) (poison : Option (List Nat)), s.chip.timed = true ∧ s.chip.sched.items = [i] ∧ i.state = .running k.val ∧ i.cancel = some r ∧ r ≠ 0 ∧ r ≠ 6 ∧ r ≠ 7 ∧ s.chip.get SCH_TRACE_CTRL.TR_EN = 0) ∧
    (∃ (s : State) (k : Fin 64) (i : Item) (l : List Nat), s.chip.timed = true ∧ s.chip.sched.items = [i] ∧ i.state = .running k.val ∧ i.type = .detect ∧ i.cancel = none ∧ s.chip.get SCH_TRACE_CTRL.TR_EN = 0 ∧ i.buffer < s.chip.scan.stg.length) :=
  ⟨⟨dev .running id, 0, by decide +kernel⟩,
   ⟨dev .running (fun c => (holding (itemOf .detect .ready) c).put SCH_TRACE_CTRL.TR_EN 0), 0, itemOf .detect .ready, by decide +kernel⟩,
   ⟨dev .running (fun c => (holding (itemOf .detect (.running 0)) c).put SCH_TRACE_CTRL.TR_EN 0), 0, itemOf .detect (.running 0), by decide +kernel⟩,
   ⟨dev .running (fun c => (holding ({ itemOf .detect (.running 0) with cancel := some 1 }) c).put SCH_TRACE_CTRL.TR_EN 0), 0, { itemOf .detect (.running 0) with cancel := some 1 }, 1, none, by decide +kernel⟩,
   ⟨dev .running (fun c => (holding (itemOf .detect (.running 0)) c).put SCH_TRACE_CTRL.TR_EN 0), 0, itemOf .detect (.running 0), [0], by decide +kernel⟩⟩

theorem witness_subframeItems :
    (∃ (s : State) (n : Int) (k f : Nat), s.chip.timed = true ∧ s.chip.pend = [] ∧ s.chip.was = [] ∧ s.chip.sched.items = [] ∧ s.chip.showsFrame n = true ∧ s.chip.frozen n = true ∧ s.chip.scan.freed.getD (s.chip.bufferOf n k) false = true ∧ k < s.chip.subframes ∧ s.chip.owner k = some f ∧ s.chip.get SCH_STATUS.SHED_ACTIVE = 0 ∧ (s.chip.bufferOf n k) < s.chip.scan.stg.length) ∧
    (∃ (s : State) (n : Int) (k l f : Nat), s.chip.timed = true ∧ s.chip.pend = [] ∧ s.chip.was = [] ∧ s.chip.sched.items = [] ∧ s.chip.showsFrame n = true ∧ s.chip.frozen n = true ∧ s.chip.scan.freed.getD (s.chip.bufferOf n k) false = true ∧ k < s.chip.subframes ∧ s.chip.owner k = some f ∧ s.chip.get SCH_STATUS.SHED_ACTIVE = 1 ∧ (s.chip.staging (s.chip.bufferOf n k)).holds = some (n, l, f) ∧ s.chip.detSlot n ≠ some k ∧ s.chip.bufferOf n k < s.chip.scan.stg.length) ∧
    (∃ (s : State) (n : Int) (k f r : Nat), s.chip.timed = true ∧ s.chip.pend = [] ∧ s.chip.was = [] ∧ s.chip.sched.items = [] ∧ s.chip.showsFrame n = true ∧ k < s.chip.subframes ∧ s.chip.owner k = some f ∧ r < s.chip.stripCount f ∧ (s.chip.staging (s.chip.bufferOf n k)).marks = [] ∧ s.chip.scan.starved = []) ∧
    (∃ (s : State) (k : Fin 64) (i : Item), s.chip.timed = true ∧ s.chip.sched.items = [i] ∧ i.state = .running k.val ∧ s.chip.coreUnfenced k.val = true ∧ s.chip.errs.slots = [none, none, none, none] ∧ s.chip.errs.waiting.flatten = [] ∧ s.chip.errs.log.length < 128) :=
  ⟨⟨dev .running showing, 0, 0, 0, by decide +kernel⟩,
   ⟨dev .running (fun c => (((showing c).put SCH_STATUS.SHED_ACTIVE 1).put CHN_CTRL.DET_EN 0).setScan { (showing c).scan with stg := [⟨some (0, 3, 0), [], [], [none, none]⟩, Staging.start] }), 0, 0, 3, 0, by decide +kernel⟩,
   ⟨dev .running showing, 0, 0, 0, 0, by decide +kernel⟩,
   ⟨dev .running (fun c => (holding (itemOf .detect (.running 0)) c).put SCH_TRACE_CTRL.TR_EN 0), 0, itemOf .detect (.running 0), by decide +kernel⟩⟩

theorem witness_subframesAndRows :
    (∃ (s : State) (n : Int) (k f : Nat), s.chip.timed = true ∧ s.chip.timeValid = true ∧ k < s.chip.subframes ∧ s.chip.scan.display = .showing ∧ s.chip.owner k = some f ∧ s.chip.halfLive 0 = true ∧ s.chip.halfLive 1 = true) ∧
    (∃ (s : State) (n : Int) (k : Nat), s.chip.timed = true ∧ s.chip.timeValid = true ∧ k < s.chip.subframes ∧ s.chip.st = .running ∧ s.chip.owner k = none) ∧
    (∃ (s : State) (n : Int) (k r f : Nat), s.chip.timed = true ∧ s.chip.timeValid = true ∧ k < s.chip.subframes ∧ r < s.chip.rows ∧ s.chip.scan.display = .showing ∧ s.chip.owner k = some f ∧ s.chip.halfLive 0 = true) ∧
    (∃ (s : State) (n : Int) (k r : Nat), s.chip.timed = true ∧ s.chip.timeValid = true ∧ k < s.chip.subframes ∧ r < s.chip.rows ∧ s.chip.owner k = none) ∧
    (∃ (s : State) (n : Int) (k : Nat), s.chip.timed = true ∧ k < s.chip.subframes) :=
  ⟨⟨dev .running showing, 0, 0, 0, by decide +kernel⟩,
   ⟨dev .running showing, 0, 1, by decide +kernel⟩,
   ⟨dev .running showing, 0, 0, 0, 0, by decide +kernel⟩,
   ⟨dev .running showing, 0, 1, 0, by decide +kernel⟩,
   ⟨dev .running showing, 0, 0, by decide +kernel⟩⟩

theorem witness_lockFrameAndChainWindows :
    (∃ (s : State) (n : Int), s.chip.timed = true ∧ s.chip.timeValid = true ∧ s.chip.scan.display = .waitLock ∧ s.chip.st = .running ∧ s.chip.get (ID_ROLES.ROLES.bit 0) = 1 ∧ s.chip.get COL_CTRL.FACET_EN = 0 ∧ s.chip.sched.items = []) ∧
    (∃ (s : State) (n : Int) (k : Nat) (h : Fin 2) (row : Nat), s.chip.timed = true ∧ s.chip.subShown n k = true ∧ s.chip.halfLive h.val = true ∧ s.chip.detSlot n = some k ∧ (s.chip.staging (s.chip.bufferOf n k)).det.getD h.val none = some row) ∧
    (∃ (s : State) (n : Int) (k : Nat), s.chip.timed = true ∧ s.chip.readbackSub n k = true ∧ s.chip.get CHN_CTRL.CFG_REFRESH = 1) ∧
    (∃ (s : State) (n : Int) (k : Nat) (r : LaneRead), s.chip.timed = true ∧ s.chip.readbackSub n k = true ∧ k ≠ 0 ∧ s.chip.get CHN_CTRL.TESTS ≠ 0 ∧ r.lane < 64 ∧ s.chip.laneOn r.lane = true ∧ s.chip.halfLive (laneHalf r.lane) = true ∧ s.chip.scan.tests = [] ∧ s.chip.scan.display ≠ .showing ∧ s.chip.markerOk r = true) ∧
    (∃ (s : State) (n : Int) (k : Nat) (r : LaneRead), s.chip.timed = true ∧ s.chip.readbackSub n k = true ∧ k ≠ 0 ∧ s.chip.get CHN_CTRL.TESTS ≠ 0 ∧ r.lane < 64 ∧ s.chip.laneOn r.lane = true ∧ s.chip.halfLive (laneHalf r.lane) = true ∧ s.chip.scan.tests = [] ∧ s.chip.scan.display ≠ .showing ∧ s.chip.markerOk r = false) ∧
    (∃ s : State, s.chip.st = .stopped ∧ s.chip.sel.txns = []) ∧
    (∃ s : State, s.chip.st = .running ∧ s.chip.sel.txns = []) :=
  ⟨⟨dev .running (fun c => ((((c.setScan { c.scan with display := .waitLock })).put TIM_STATUS.TIME_VALID 1).put (ID_ROLES.ROLES.bit 0) 1).put COL_CTRL.FACET_EN 0), 0, by decide +kernel⟩,
   ⟨dev .running (fun c => ((showing c).put CHN_CTRL.DET_EN 1).setScan { (showing c).scan with stg := [⟨none, [], [], [some 2, none]⟩, Staging.start] }), 0, 0, 0, 2, by decide +kernel⟩,
   ⟨dev .running (fun c => (showing c).put CHN_CTRL.CFG_REFRESH 1), 0, 1, by decide +kernel⟩,
   ⟨dev .running (fun c => ((((showing c).setScan { (showing c).scan with display := .blankUntil 9 }).put CHN_CTRL.TESTS 1).put (ID_ROLES.ROLES.bit 0) 1).put (SCN_x_LANEi_W0.LANE_EN 0 0) 1), 0, 1, ⟨0, 0x3C5A * 2 ^ 384, 0⟩, by decide +kernel⟩,
   ⟨dev .running (fun c => ((((showing c).setScan { (showing c).scan with display := .blankUntil 9 }).put CHN_CTRL.TESTS 1).put (ID_ROLES.ROLES.bit 0) 1).put (SCN_x_LANEi_W0.LANE_EN 0 0) 1), 0, 1, ⟨0, 0, 0⟩, by decide +kernel⟩,
   ⟨dev .stopped id, by decide +kernel⟩,
   ⟨dev .running id, by decide +kernel⟩⟩

theorem witness_traceAndFaultList :
    (∃ s : State, (s.chip.st = .stopped ∨ s.chip.st = .running) ∧ s.chip.sel.txns = []) ∧
    (∃ s : State, (s.chip.st = .stopped ∨ s.chip.st = .running) ∧ s.chip.sel.txns = []) ∧
    (∃ (s : State) (w0 w1 w2 w3 : Nat) (q : List (List Nat)), s.chip.writable = true ∧ s.chip.sched.trace = [w0, w1, w2, w3] :: q ∧ s.chip.sched.traceC ≠ some s.chip.time.c.toNat) ∧
    (∃ s : State, s.chip.writable = true ∧ s.chip.sched.trace = []) ∧
    (∃ s : State, (s.chip.st = .stopped ∨ s.chip.st = .running) ∧ s.chip.sel.txns = [] ∧ s.chip.chains.faults ≠ []) ∧
    (∃ (s : State) (i : Fin 4096), s.chip.writable = true ∧ s.chip.chains.faults.find? (fun e => e.1 == i.val) = none) ∧
    (∃ (s : State) (i : Fin 4096) (e : FaultEntry), s.chip.writable = true ∧ s.chip.chains.faults.find? (fun x => x.1 == i.val) = some (i.val, e) ∧ e.x < 2 ^ 12 ∧ e.y < 2 ^ 12 ∧ e.ch < 4 ∧ e.lane < 2 ^ 6 ∧ e.row < 2 ^ 6 ∧ e.pos < 2 ^ 10 ∧ e.count < 2 ^ 4) :=
  ⟨⟨dev .stopped id, by decide +kernel⟩,
   ⟨dev .stopped id, by decide +kernel⟩,
   ⟨dev .stopped (fun c => c.setSched { c.sched with trace := [[1, 2, 3, 4]] }), 1, 2, 3, 4, [], by decide +kernel⟩,
   ⟨dev .stopped id, by decide +kernel⟩,
   ⟨dev .stopped (fun c => c.setChains { c.chains with faults := [(0, ⟨0, 0, 0, false, false, 1, 0, 0, 0⟩)] }), by decide +kernel⟩,
   ⟨dev .stopped id, 0, by decide +kernel⟩,
   ⟨dev .stopped (fun c => c.setChains { c.chains with faults := [(0, ⟨0, 0, 0, false, false, 1, 0, 0, 0⟩)] }), 0, ⟨0, 0, 0, false, false, 1, 0, 0, 0⟩, by decide +kernel⟩⟩

theorem witness_temperatures :
    (∃ (s : State) (z : Fin 16), s.chip.timed = true ∧ s.chip.zoneSrc z.val < 12 ∧ s.chip.colour.srcs.length = 12) ∧
    (∃ s : State, s.chip.timed = true) ∧
    (∃ (s : State) (n : Fin 12) (q : List Nat) (raw : Nat), s.chip.timed = true ∧ s.chip.chains.polling = n.val :: q ∧ s.chip.fifoFenced (busFifo n.val) = false ∧ -640 ≤ sensorCode (s.chip.get (CHN_SENSs.FMT n.val)) raw ∧ sensorCode (s.chip.get (CHN_SENSs.FMT n.val)) raw ≤ 2400) ∧
    (∃ (s : State) (n : Fin 12) (q : List Nat), s.chip.timed = true ∧ s.chip.chains.polling = n.val :: q) ∧
    (∃ (s : State) (n : Fin 12) (q : List Nat), s.chip.timed = true ∧ s.chip.chains.polling = n.val :: q) ∧
    (∃ (s : State) (a : Fin 4) (n : Nat), s.chip.timed = true ∧ s.chip.get (CHN_NTCa_CFG1.NTC_EN a.val) = 1 ∧ (n < 16 ∨ 4079 < n) ∧ n < 4096) ∧
    (∃ (s : State) (a : Fin 4) (n : Nat) (t : Int), s.chip.timed = true ∧ s.chip.get (CHN_NTCa_CFG1.NTC_EN a.val) = 1 ∧ 16 ≤ n ∧ n ≤ 4079 ∧ s.chip.fifoFenced 26 = false ∧ s.chip.ntcCode a.val n (Config.choice s.chip.freeCtr) = some t ∧ -640 ≤ t ∧ t ≤ 2400) :=
  ⟨⟨dev .running (fun c => c.put ⟨0x700F0, 0, 4⟩ 0), 0, by decide +kernel⟩,
   ⟨dev .running id, by decide +kernel⟩,
   ⟨dev .running (fun c => c.setChains { c.chains with polling := [0] }), 0, [], 0, by decide +kernel⟩,
   ⟨dev .running (fun c => c.setChains { c.chains with polling := [0] }), 0, [], by decide +kernel⟩,
   ⟨dev .running (fun c => c.setChains { c.chains with polling := [0] }), 0, [], by decide +kernel⟩,
   ⟨dev .running (fun c => c.put (CHN_NTCa_CFG1.NTC_EN 0) 1), 0, 5, by decide +kernel⟩,
   ⟨dev .running (fun c => ((c.put (CHN_NTCa_CFG1.NTC_EN 0) 1).put (CHN_NTCa_CFG0.NTC_RNOM 0) 100).put (CHN_NTCa_CFG1.PULLUP 0) 400), 0, 819, 400, by decide +kernel⟩⟩

theorem witness_receptionAndRing :
    (∃ (s : State) (p : PortIx) (h : FrameHead), s.chip.awake = true ∧ s.chip.power.portsUp = true ∧ s.chip.portLive p = true ∧ s.chip.linkUp p = true ∧ s.chip.get (PRTn_STATUS.FEC_ACT p) = 0 ∧ h.linkCut = false ∧ h.codeErr = false ∧ h.fcsOk = true ∧ 64 ≤ h.len ∧ h.len ≤ s.chip.maxLen p ∧ s.chip.ringUsed p + rxBuffers (s.chip.maxLen p) h.len ≤ s.chip.ringSize ∧ s.chip.ringUsed p + rxBuffers (s.chip.maxLen p) h.len < s.chip.wmLevel p ∧ s.chip.get (PRTn_CTRL.FWD_EN p) = 0 ∧ s.chip.delivers p h = true ∧ s.chip.dstKind p h.dst ≠ .macControl) ∧
    (∃ (s : State) (p : PortIx) (h : FrameHead) (b : RxBody), s.chip.awake = true ∧ s.chip.power.portsUp = true ∧ s.chip.portLive p = true ∧ s.chip.linkUp p = true ∧ s.chip.get (PRTn_STATUS.FEC_ACT p) = 0 ∧ h.linkCut = false ∧ h.codeErr = false ∧ h.fcsOk = true ∧ 64 ≤ h.len ∧ h.len ≤ s.chip.maxLen p ∧ s.chip.ringUsed p + rxBuffers (s.chip.maxLen p) h.len ≤ s.chip.ringSize ∧ s.chip.ringUsed p + rxBuffers (s.chip.maxLen p) h.len < s.chip.wmLevel p ∧ s.chip.get (PRTn_CTRL.FWD_EN p) = 0 ∧ s.chip.delivers p h = false) ∧
    (∃ (s : State) (p : PortIx) (h : FrameHead) (b : RxBody), s.chip.awake = true ∧ s.chip.power.portsUp = true ∧ s.chip.portLive p = true ∧ s.chip.linkUp p = true ∧ s.chip.get (PRTn_STATUS.FEC_ACT p) = 0 ∧ h.linkCut = false ∧ h.codeErr = false ∧ h.fcsOk = false ∧ 64 ≤ h.len ∧ h.len ≤ s.chip.maxLen p ∧ s.chip.ringUsed p + rxBuffers (s.chip.maxLen p) h.len ≤ s.chip.ringSize ∧ s.chip.ringUsed p + rxBuffers (s.chip.maxLen p) h.len < s.chip.wmLevel p ∧ s.chip.get (PRTn_CTRL.FWD_EN p) = 0) ∧
    (∃ (s : State) (p : PortIx) (h : FrameHead) (b : RxBody), s.chip.awake = true ∧ s.chip.power.portsUp = true ∧ s.chip.portLive p = true ∧ s.chip.linkUp p = true ∧ s.chip.ringSize ≤ s.chip.ringUsed p ∧ s.chip.get (PRTn_CTRL.FWD_EN p) = 0) ∧
    (∃ (s : State) (p : PortIx) (h : FrameHead) (b : RxBody), s.chip.awake = true ∧ s.chip.power.portsUp = true ∧ s.chip.portLive p = true ∧ s.chip.linkUp p = true ∧ h.linkCut = false ∧ h.codeErr = false ∧ h.fcsOk = false ∧ 64 ≤ h.len ∧ h.len ≤ s.chip.maxLen p ∧ s.chip.ringUsed p + rxBuffers (s.chip.maxLen p) h.len ≤ s.chip.ringSize ∧ s.chip.ringUsed p < s.chip.wmLevel p ∧ s.chip.wmLevel p ≤ s.chip.ringUsed p + rxBuffers (s.chip.maxLen p) h.len ∧ s.chip.get (PRTn_CTRL.FWD_EN p) = 0) ∧
    (∃ (s : State) (p : PortIx) (k : Nat) (h : HeldFrame), s.chip.awake = true ∧ (s.chip.port p).held[k]? = some h ∧ h.kept = false) ∧
    (∃ (s : State) (p : PortIx) (k : Nat) (h : HeldFrame), s.chip.awake = true ∧ (s.chip.port p).held[k]? = some h ∧ h.kept = true) ∧
    (∃ (s : State) (p : PortIx), (s.chip.st = .stopped ∨ s.chip.st = .running) ∧ s.chip.sel.txns = [] ∧ s.chip.layoutOld = false) :=
  ⟨⟨dev .stopped (fun c => (c.put (PRTn_CTRL.FWD_EN 0) 0).put (PRTn_RING_WM.WM_LEVEL 0) 2048), 0, ⟨2 ^ 48 - 1, 1, [], 64, true, false, false, none, false, 0, 0⟩, by decide +kernel⟩,
   ⟨dev .stopped (fun c => (c.put (PRTn_CTRL.FWD_EN 0) 0).put (PRTn_RING_WM.WM_LEVEL 0) 2048), 0, ⟨2, 1, [], 64, true, false, false, none, false, 0, 0⟩, .other, by decide +kernel⟩,
   ⟨dev .stopped (fun c => (c.put (PRTn_CTRL.FWD_EN 0) 0).put (PRTn_RING_WM.WM_LEVEL 0) 2048), 0, ⟨2 ^ 48 - 1, 1, [], 64, false, false, false, none, false, 0, 0⟩, .other, by decide +kernel⟩,
   ⟨dev .stopped (fun c => ((c.setPort 0 { c.port 0 with held := [⟨[512, 512, 512, 512], false, false⟩] })).put (PRTn_CTRL.FWD_EN 0) 0), 0, ⟨2 ^ 48 - 1, 1, [], 64, true, false, false, none, false, 0, 0⟩, .other, by decide +kernel⟩,
   ⟨dev .stopped (fun c => (c.put (PRTn_CTRL.FWD_EN 0) 0).put (PRTn_RING_WM.WM_LEVEL 0) 1), 0, ⟨2 ^ 48 - 1, 1, [], 64, false, false, false, none, false, 0, 0⟩, .other, by decide +kernel⟩,
   ⟨dev .stopped (fun c => (c.setPort 0 { c.port 0 with held := [⟨[0], false, false⟩] })), 0, 0, ⟨[0], false, false⟩, by decide +kernel⟩,
   ⟨dev .stopped (fun c => (c.setPort 0 { c.port 0 with held := [⟨[0], false, true⟩] })), 0, 0, ⟨[0], false, true⟩, by decide +kernel⟩,
   ⟨dev .stopped (fun c => c.put (PRTn_EVENT.WM_HIT 0) 1), 0, by decide +kernel⟩⟩

theorem witness_linksAndCage :
    (∃ (s : State) (p : PortIx) (speed : Nat) (a b d : Bool), s.chip.awake = true ∧ (s.chip.port p).up = true ∧ (s.chip.port p).mode = speed ∧ s.chip.portLive p = true ∧ s.chip.linkUp p = false ∧ speed < 8) ∧
    (∃ (s : State) (p : PortIx) (a b d : Bool), s.chip.awake = true ∧ s.chip.linkUp p = true) ∧
    (∃ (s : State) (p : PortIx) (a b d : Bool), s.chip.awake = true ∧ s.chip.searches p = true ∧ s.chip.linkUp p = false ∧ (s.chip.port p).up = true) ∧
    (∃ (s : State) (p : PortIx) (absent : Bool) (best : Nat) (a b d : Bool), s.chip.awake = true ∧ s.chip.get (PRTn_CTRL.SPEED p) = 4 ∧ s.chip.power.portsUp = true) ∧
    (∃ (s : State) (p : PortIx) (a b d : Bool), s.chip.awake = true ∧ s.chip.get (PRTn_STATUS.TX_FAULT p) = 0) :=
  ⟨⟨dev .stopped (fun c => ((c.setPort 0 { c.port 0 with up := true, mode := 3 })).put (PRTn_STATUS.LINK_UP 0) 0), 0, 3, false, false, true, by decide +kernel⟩,
   ⟨dev .stopped id, 0, false, false, true, by decide +kernel⟩,
   ⟨dev .stopped (fun c => ((((c.setPort 0 { c.port 0 with up := true })).put (PRTn_STATUS.LINK_UP 0) 0).put (PRTn_CTRL.SPEED 0) 4).put (PRTn_STATUS.MOD_ABS 0) 1), 0, false, false, true, by decide +kernel⟩,
   ⟨dev .stopped (fun c => ((c.setPort 0 { c.port 0 with up := true })).put (PRTn_CTRL.SPEED 0) 4), 0, true, 0, false, false, true, by decide +kernel⟩,
   ⟨dev .stopped id, 0, false, false, true, by decide +kernel⟩⟩

theorem witness_transmission :
    (∃ (s : State) (p : PortIx) (x : FwdFrame) (l : List FwdFrame), s.chip.awake = true ∧ (s.chip.port (otherPort p)).sending = .idle ∧ (s.chip.port p).fwd = x :: l ∧ x.ptp = none ∧ s.chip.linkUp (otherPort p) = true ∧ s.chip.localFirst (otherPort p) = false) ∧
    (∃ (s : State) (p : PortIx) (x : FwdFrame) (l : List FwdFrame) (m : PtpHead), s.chip.awake = true ∧ (s.chip.port (otherPort p)).sending = .idle ∧ (s.chip.port p).fwd = x :: l ∧ x.ptp = some m ∧ m.correction = cfTop ∧ (s.chip.get TIM_CTRL.TC_MODE = 1 ∨ s.chip.get TIM_CTRL.TC_MODE = 2) ∧ s.chip.linkUp (otherPort p) = true ∧ s.chip.localFirst (otherPort p) = false) ∧
    (∃ (s : State) (p : PortIx), s.chip.awake = true ∧ s.chip.localFirst (otherPort p) = true) ∧
    (∃ (s : State) (p : PortIx) (f : TxFrame), s.chip.awake = true ∧ s.chip.linkUp p = true ∧ (s.chip.port p).sending = .localFrame f ∧ (s.chip.port p).txq = [] ∧ (s.chip.port (otherPort p)).fwd = []) ∧
    (∃ (s : State) (p : PortIx) (f : TxFrame) (q : List TxFrame) (x : FwdFrame) (r : List FwdFrame), s.chip.awake = true ∧ s.chip.linkUp p = true ∧ (s.chip.port p).sending = .idle ∧ (s.chip.port p).txq = f :: q ∧ (s.chip.port (otherPort p)).fwd = x :: r ∧ max 1 (s.chip.get (PRTn_CTRL.FWD_BURST p)) ≤ (s.chip.port p).burst) ∧
    (∃ (s : State) (p : PortIx) (f : TxFrame) (q : List TxFrame) (x : FwdFrame) (r : List FwdFrame), s.chip.awake = true ∧ s.chip.linkUp p = true ∧ (s.chip.port p).sending = .idle ∧ (s.chip.port p).txq = f :: q ∧ (s.chip.port (otherPort p)).fwd = x :: r ∧ (s.chip.port p).burst < max 1 (s.chip.get (PRTn_CTRL.FWD_BURST p)) ∧ x.ptp = none) ∧
    (∃ (s : State) (p : PortIx) (len : Nat), s.chip.awake = true ∧ s.chip.power.portsUp = true) :=
  ⟨⟨dev .stopped (fun c => (c.setPort 0 { c.port 0 with fwd := [⟨64, false, none, 0⟩] })), 0, ⟨64, false, none, 0⟩, [], by decide +kernel⟩,
   ⟨dev .stopped (fun c => ((c.setPort 0 { c.port 0 with fwd := [⟨64, false, some ⟨.sync, cfTop, false, 0⟩, 0⟩] })).put TIM_CTRL.TC_MODE 1), 0, ⟨64, false, some ⟨.sync, cfTop, false, 0⟩, 0⟩, [], ⟨.sync, cfTop, false, 0⟩, by decide +kernel⟩,
   ⟨dev .stopped (fun c => ((c.setPort 0 { c.port 0 with txq := [⟨.other, 64, none⟩], burst := 8 })).setPort 1 { c.port 1 with fwd := [⟨64, false, none, 0⟩] }), 1, by decide +kernel⟩,
   ⟨dev .stopped (fun c => (c.setPort 0 { c.port 0 with sending := .localFrame ⟨.other, 64, none⟩ })), 0, ⟨.other, 64, none⟩, by decide +kernel⟩,
   ⟨dev .stopped (fun c => ((c.setPort 0 { c.port 0 with txq := [⟨.other, 64, none⟩], burst := 8 })).setPort 1 { c.port 1 with fwd := [⟨64, false, none, 0⟩] }), 0, ⟨.other, 64, none⟩, [], ⟨64, false, none, 0⟩, [], by decide +kernel⟩,
   ⟨dev .stopped (fun c => ((c.setPort 0 { c.port 0 with txq := [⟨.other, 64, none⟩], burst := 0 })).setPort 1 { c.port 1 with fwd := [⟨64, false, none, 0⟩] }), 0, ⟨.other, 64, none⟩, [], ⟨64, false, none, 0⟩, [], by decide +kernel⟩,
   ⟨dev .stopped id, 0, 64, by decide +kernel⟩⟩

theorem witness_addressingAndReports :
    (∃ (s : State) (p : PortIx) (ip asker : Nat), s.chip.awake = true ∧ s.chip.power.imageRunning = true ∧ s.chip.linkUp p = true ∧ s.chip.ownsIp p ip = true ∧ (s.chip.port p).txq.length < 64) ∧
    (∃ (s : State) (p : PortIx) (ip asker : Nat), s.chip.awake = true ∧ s.chip.ownsIp p ip = false) ∧
    (∃ (s : State) (p : PortIx) (g src n : Nat) (joining : Bool), s.chip.awake = true ∧ s.chip.linkUp p = true ∧ (s.chip.port p).reports = [(g, src, joining, n)] ∧ (s.chip.port p).txq.length < 64) ∧
    (∃ (s : State) (p : PortIx) (v6 : Bool) (g src query : Nat), s.chip.awake = true ∧ s.chip.power.imageRunning = true ∧ s.chip.linkUp p = true ∧ (s.chip.port p).table = [(g, src)] ∧ isIpGroup g = true ∧ isMapped4 g = !v6 ∧ (query = 0 ∨ query = g) ∧ (s.chip.port p).txq.length < 64) ∧
    (∃ (s : State) (p : PortIx) (v6 : Bool) (g src query : Nat), s.chip.awake = true ∧ (s.chip.port p).table = [(g, src)] ∧ isMapped4 g = v6) :=
  ⟨⟨dev .stopped (fun c => c.put (PRTn_IPV4.IPV4 0) 0x0A000001), 0, 0xFFFF0A000001, 7, by decide +kernel⟩,
   ⟨dev .stopped id, 0, 5, 7, by decide +kernel⟩,
   ⟨dev .stopped (fun c => (c.setPort 0 { c.port 0 with reports := [(1, 0, true, 2)] })), 0, 1, 0, 2, true, by decide +kernel⟩,
   ⟨dev .stopped (fun c => (c.setPort 0 { c.port 0 with table := [(0xFFFFE0000101, 0)] })), 0, false, 0xFFFFE0000101, 0, 0, by decide +kernel⟩,
   ⟨dev .stopped (fun c => (c.setPort 0 { c.port 0 with table := [(0xFFFFE0000101, 0)] })), 0, true, 0xFFFFE0000101, 0, 0, by decide +kernel⟩⟩

theorem witness_statisticsAndWake :
    (∃ (s : State) (a : Nat), s.chip.writable = true ∧ (counterBlock a).isSome = true ∧ a % 8 = 0) ∧
    (∃ (s : State) (frame : List Byte) (m : Nat), s.chip.st = .dormant ∧ s.chip.power.wakeArmed = true ∧ s.chip.linkUp 0 = true ∧ 64 ≤ frame.length ∧ frame.length ≤ 1522 ∧ (List.range 4).find? (fun m => s.chip.aon.matches m frame) = some m) ∧
    (∃ (s : State) (frame : List Byte) (ok : Bool), s.chip.st = .dormant ∧ (ok = false ∨ s.chip.power.wakeArmed = false)) :=
  ⟨⟨dev .stopped id, 0x100500, by decide +kernel⟩,
   ⟨dev .dormant (fun c => (c.setPower { c.power with wakeArmed := true }).setAon { c.aon with wakeEn := 1, wakeMask := [1], wakeCrc := [crc32 [0]] }), List.replicate 64 0#8, 0, by decide +kernel⟩,
   ⟨dev .dormant id, [], false, by decide +kernel⟩⟩

theorem witness_contextTimersAndDmx :
    (∃ (s : State) (x : Fin 512), s.chip.ingests = true ∧ s.chip.ctxEn x.val = true ∧ s.chip.ctxType x.val = ctxSacn ∧ (s.chip.ctx x.val).syncUniv ≠ 0) ∧
    (∃ (s : State) (x : Fin 512) (a b pa pb : Nat), s.chip.ingests = true ∧ s.chip.ctxEn x.val = true ∧ s.chip.ctxType x.val = ctxSacn ∧ (s.chip.ctx x.val).sources = [(a, pa), (b, pb)] ∧ a ≠ b ∧ (s.chip.ctx x.val).followed = some a) ∧
    (∃ (s : State) (x : Fin 512), s.chip.ingests = true ∧ s.chip.ctxActs x.val = true ∧ s.chip.ctxState x.val = 2 ∧ (s.chip.ctx x.val).syncUniv = 0 ∧ s.chip.ctxMaps x.val = false) ∧
    (∃ (s : State) (x : Fin 512) (p : PortIx), s.chip.ingests = true ∧ s.chip.ctxActs x.val = true) ∧
    (∃ (s : State) (p : Fin 4) (framing : Bool) (startCode : Nat) (slots : List Byte), s.chip.ingests = true ∧ s.chip.dmxMode p.val = 2 ∧ s.chip.bridgeLive = true) ∧
    (∃ (s : State) (p : Fin 4) (startCode : Nat) (slots : List Byte), s.chip.ingests = true ∧ s.chip.dmxMode p.val = 2 ∧ s.chip.bridgeLive = true ∧ startCode ≠ 0 ∧ startCode ≠ 0xCC) ∧
    (∃ (s : State) (p : Fin 4) (x : Nat) (slots : List Byte), s.chip.ingests = true ∧ s.chip.dmxMode p.val = 2 ∧ s.chip.bridgeLive = true ∧ x < 512 ∧ s.chip.ctxActs x = true ∧ s.chip.ctxType x = ctxDmx ∧ s.chip.get (STC_MATCH.STREAM_ID x) = p.val ∧ s.chip.ctxMaps x = false ∧ (∀ y, y < 512 → y ≠ x → s.chip.ctxEn y = false) ∧ slots.length = 512) ∧
    (∃ (s : State) (p : Fin 4), s.chip.ingests = true ∧ s.chip.dmxMode p.val = 1 ∧ s.chip.bridgeLive = true ∧ (s.chip.dmxPort p.val).toIdle = [] ∧ (s.chip.dmxPort p.val).runq = []) :=
  ⟨⟨dev .stopped (fun c => (((c.setCtx 0 { Ctx.start with syncUniv := 5 })).put (STC_CTRL.EN 0) 1).put (STC_CTRL.TYPE 0) ctxSacn), 0, by decide +kernel⟩,
   ⟨dev .stopped (fun c => (((c.setCtx 0 { Ctx.start with sources := [(1, 100), (2, 100)], followed := some 1 })).put (STC_CTRL.EN 0) 1).put (STC_CTRL.TYPE 0) ctxSacn), 0, 1, 2, 100, 100, by decide +kernel⟩,
   ⟨dev .stopped (fun c => (c.put (STC_CTRL.EN 0) 1).put (STC_CSTAT.STATE 0) 2), 0, by decide +kernel⟩,
   ⟨dev .stopped (fun c => c.put (STC_CTRL.EN 0) 1), 0, 0, by decide +kernel⟩,
   ⟨dev .stopped (fun c => c.put (BRG_PORTp_CFG.MODE 0) 2), 0, false, 0, [], by decide +kernel⟩,
   ⟨dev .stopped (fun c => c.put (BRG_PORTp_CFG.MODE 0) 2), 0, 1, [], by decide +kernel⟩,
   ⟨dev .stopped (fun c => ((c.put (STC_CTRL.EN 0) 1).put (BRG_PORTp_CFG.MODE 0) 2).put (STC_CTRL.TYPE 0) ctxDmx), 0, 0, List.replicate 512 0#8, by decide +kernel⟩,
   ⟨dev .stopped (fun c => c.put (BRG_PORTp_CFG.MODE 0) 1), 0, by decide +kernel⟩⟩

theorem witness_rdmAndSemaphores :
    (∃ (s : State) (p : Fin 4) (r : RdmReq) (q : List RdmReq), s.chip.ingests = true ∧ (s.chip.dmxPort p.val).runq = r :: q ∧ (s.chip.dmxPort p.val).phase = .sent) ∧
    (∃ (s : State) (p : Fin 4) (r : RdmReq) (q : List RdmReq) (uid pid : Nat) (data : List Byte), s.chip.ingests = true ∧ (s.chip.dmxPort p.val).runq = r :: q ∧ (s.chip.dmxPort p.val).phase = .sent ∧ r.kind ≠ 3 ∧ (s.chip.dmxPort p.val).joined.length + data.length ≤ 243) ∧
    (∃ (s : State) (p : Fin 4) (r : RdmReq) (q : List RdmReq), s.chip.ingests = true ∧ (s.chip.dmxPort p.val).runq = r :: q ∧ (s.chip.dmxPort p.val).phase = .timerWait ∧ s.chip.time.c.toNat - (s.chip.dmxPort p.val).startC < s.chip.get BRG_RDM.ACK_TIMER_MAX * 80000000) ∧
    (∃ (s : State) (p : Fin 4) (r : RdmReq) (body : List Byte), s.chip.ingests = true ∧ s.chip.bridgeLive = true ∧ (s.chip.dmxPort p.val).runq = [r] ∧ (s.chip.dmxPort p.val).phase = .done .ok 0 0 body ∧ (s.chip.dmxPort p.val).waiting = [] ∧ r.cmd.src = .host ∧ r.cmd.noReply = false ∧ r.cmd.node ≠ 0xFFFF ∧ s.chip.sel.hostOut.length < 4 ∧ s.chip.heldPlace r.cmd = none) ∧
    (∃ (s : State) (p : Fin 4), s.chip.ingests = true ∧ (s.chip.dmxPort p.val).holder.isSome = true ∧ (s.chip.dmxPort p.val).waiting = []) ∧
    (∃ (s : State) (p : Fin 4) (r : RdmReq) (q : List RdmReq), s.chip.ingests = true ∧ (s.chip.dmxPort p.val).waiting = r :: q ∧ r.cmd.src = .host ∧ r.cmd.noReply = false ∧ r.cmd.node ≠ 0xFFFF ∧ s.chip.sel.hostOut.length < 4 ∧ s.chip.heldPlace r.cmd = none) :=
  ⟨⟨dev .stopped (fun c => c.setDmxPort 0 { DmxPort.start with runq := [⟨ask 0x0090 [0#8, 1#8], none⟩], phase := .sent }), 0, ⟨ask 0x0090 [0#8, 1#8], none⟩, [], by decide +kernel⟩,
   ⟨dev .stopped (fun c => c.setDmxPort 0 { DmxPort.start with runq := [⟨ask 0x0090 [0#8, 1#8], none⟩], phase := .sent }), 0, ⟨ask 0x0090 [0#8, 1#8], none⟩, [], 1, 2, [], by decide +kernel⟩,
   ⟨dev .stopped (fun c => (c.setDmxPort 0 { DmxPort.start with runq := [⟨ask 0x0090 [0#8, 1#8], none⟩], phase := .timerWait }).put BRG_RDM.ACK_TIMER_MAX 10), 0, ⟨ask 0x0090 [0#8, 1#8], none⟩, [], by decide +kernel⟩,
   ⟨dev .stopped (fun c => c.setDmxPort 0 { DmxPort.start with runq := [⟨ask 0x0090 [0#8, 1#8], none⟩], phase := .done .ok 0 0 [] }), 0, ⟨ask 0x0090 [0#8, 1#8], none⟩, [], by decide +kernel⟩,
   ⟨dev .stopped (fun c => c.setDmxPort 0 { DmxPort.start with holder := some (0, .host) }), 0, by decide +kernel⟩,
   ⟨dev .stopped (fun c => c.setDmxPort 0 { DmxPort.start with waiting := [⟨ask 0x0090 [0#8, 1#8], none⟩] }), 0, ⟨ask 0x0090 [0#8, 1#8], none⟩, [], by decide +kernel⟩⟩

theorem witness_pingIdentifyRead :
    (∃ (s : State) (cmd : Cmd), s.chip.hostRuns cmd 0x0001 = true ∧ cmd.payload.length ≤ 64) ∧
    (∃ (s : State) (cmd : Cmd), (s.chip.st = .stopped ∨ s.chip.st = .running) ∧ s.chip.hostAsks cmd = true ∧ cmd.opcode = 0x0001 ∧ cmd.epoch = s.chip.epoch ∧ cmd.payload.length ≤ 64 ∧ s.chip.namesUnknown cmd = true) ∧
    (∃ (s : State) (cmd : Cmd), s.chip.hostRuns cmd 0x0002 = true ∧ cmd.payload = []) ∧
    (∃ (s : State) (cmd : Cmd), s.chip.hostRuns cmd 0x0010 = true ∧ cmd.payload = [0#8, 1#8] ∧ cmd.arg % 4 = 0 ∧ badWord 1 cmd.arg = none) ∧
    (∃ (s : State) (cmd : Cmd), s.chip.hostRuns cmd 0x0010 = true ∧ cmd.payload = [0#8, 1#8] ∧ cmd.arg % 4 = 0 ∧ badWord 1 cmd.arg = none) ∧
    (∃ (s : State) (cmd : Cmd), s.chip.hostRuns cmd 0x0010 = true ∧ cmd.payload = [0#8, 1#8] ∧ cmd.arg % 4 ≠ 0) :=
  ⟨⟨dev .stopped id, ask 0x0001 [], by decide +kernel⟩,
   ⟨dev .stopped id, { ask 0x0001 [] with txn := 5 }, by decide +kernel⟩,
   ⟨dev .stopped id, ask 0x0002 [], by decide +kernel⟩,
   ⟨dev .stopped id, { ask 0x0010 [0#8, 1#8] with arg := 0 }, by decide +kernel⟩,
   ⟨dev .stopped id, { ask 0x0010 [0#8, 1#8] with arg := 0 }, by decide +kernel⟩,
   ⟨dev .stopped id, { ask 0x0010 [0#8, 1#8] with arg := 1 }, by decide +kernel⟩⟩

theorem witness_writes :
    (∃ (s : State) (cmd : Cmd) (v : Nat), s.chip.hostRuns cmd 0x0011 = true ∧ cmd.payload = bytesBE 4 v ∧ v < 2 ^ 32 ∧ cmd.arg = 0x104 ∧ cmd.txn = 0 ∧ s.chip.sel.txns = [] ∧ s.chip.layoutOld = false) ∧
    (∃ (s : State) (cmd : Cmd) (m v : Nat), s.chip.hostRuns cmd 0x0012 = true ∧ cmd.payload = bytesBE 4 m ++ bytesBE 4 v ∧ m < 2 ^ 32 ∧ v < 2 ^ 32 ∧ cmd.arg = 0x104 ∧ cmd.txn = 0 ∧ s.chip.sel.txns = [] ∧ s.chip.layoutOld = false) ∧
    (∃ (s : State) (m v : BitVec 32), (s.chip.st = .stopped ∨ s.chip.st = .running) ∧ s.chip.sel.txns = [] ∧ s.chip.layoutOld = false) ∧
    (∃ (s : State) (v : BitVec 32), s.chip.st = .running ∧ s.chip.sel.txns = [] ∧ v.toNat % 2 ^ 16 ≠ s.chip.get ID_NODE.NODE_ID) ∧
    (∃ (s : State) (v : BitVec 32), s.chip.st = .stopped ∧ s.chip.sel.txns = [] ∧ s.chip.layoutOld = false) ∧
    (∃ (s : State) (a : Nat) (m v : BitVec 32), (s.chip.st = .stopped ∨ s.chip.st = .running) ∧ a % 4 ≠ 0) :=
  ⟨⟨dev .stopped id, { ask 0x0011 (bytesBE 4 7) with arg := 0x104 }, 7, by decide +kernel⟩,
   ⟨dev .stopped id, { ask 0x0012 (bytesBE 4 1 ++ bytesBE 4 1) with arg := 0x104 }, 1, 1, by decide +kernel⟩,
   ⟨dev .stopped id, 1, 1, by decide +kernel⟩,
   ⟨dev .running id, 5, by decide +kernel⟩,
   ⟨dev .stopped id, 5, by decide +kernel⟩,
   ⟨dev .stopped id, 1, 0, 0, by decide +kernel⟩⟩

theorem witness_transactions :
    (∃ (s : State) (cmd : Cmd), s.chip.hostRuns cmd 0x0020 = true ∧ cmd.payload = [] ∧ cmd.gang = 0xFF ∧ s.chip.sel.txns = [] ∧ s.chip.sel.closed = []) ∧
    (∃ (s : State) (cmd : Cmd), s.chip.hostRuns cmd 0x0020 = true ∧ cmd.payload = [] ∧ 8 ≤ s.chip.sel.txns.length) ∧
    (∃ (s : State) (cmd : Cmd) (t : Txn) (v : Nat), s.chip.hostRuns cmd 0x0021 = true ∧ cmd.payload = List.replicate 12 0#8 ∧ cmd.gang = 0xFF ∧ s.chip.sel.txns = [t] ∧ t.id = cmd.txn ∧ t.key = cmd.key.val ∧ t.state = .isOpen ∧ t.words = [⟨0x104, 0xFFFFFFFF, v⟩] ∧ v < 2 ^ 32 ∧ s.chip.gang.txns = [] ∧ s.chip.layoutOld = false) ∧
    (∃ (s : State) (cmd : Cmd) (t : Txn), s.chip.hostRuns cmd 0x0022 = true ∧ cmd.payload = [] ∧ cmd.gang = 0xFF ∧ s.chip.sel.txns = [t] ∧ t.id = cmd.txn ∧ t.key = cmd.key.val ∧ t.state = .isOpen ∧ s.chip.gang.txns = []) ∧
    (∃ (s : State) (cmd : Cmd) (t : Txn), s.chip.hostRuns cmd 0x0023 = true ∧ cmd.payload = [] ∧ s.chip.sel.txns = [t] ∧ t.id = cmd.txn ∧ t.key = cmd.key.val) ∧
    (∃ (s : State) (t : Txn), s.chip.timed = true ∧ s.chip.sel.txns = [t] ∧ t.state = .isOpen ∧ t.since ≠ s.chip.time.c.toNat ∧ s.chip.gang.txns = []) ∧
    (∃ (s : State) (t : Txn) (v : Nat), (s.chip.st = .stopped ∨ s.chip.st = .running) ∧ s.chip.sel.txns = [t] ∧ t.state = .scheduled ∧ t.dueAt ≤ s.chip.now ∧ t.words = [⟨0x104, 0xFFFFFFFF, v⟩] ∧ v < 2 ^ 32 ∧ s.chip.gang.txns = [] ∧ s.chip.layoutOld = false) :=
  ⟨⟨dev .stopped id, ask 0x0020 [], by decide +kernel⟩,
   ⟨dev .stopped (fun c => c.setSel { c.sel with txns := List.replicate 8 ⟨1, 0, .isOpen, [], none, 0, 0⟩ }), ask 0x0020 [], by decide +kernel⟩,
   ⟨dev .stopped (fun c => c.setSel { c.sel with txns := [⟨1, 0, .isOpen, [⟨0x104, 0xFFFFFFFF, 7⟩], none, 0, 0⟩] }), { ask 0x0021 (List.replicate 12 0#8) with txn := 1 }, ⟨1, 0, .isOpen, [⟨0x104, 0xFFFFFFFF, 7⟩], none, 0, 0⟩, 7, by decide +kernel⟩,
   ⟨dev .stopped (fun c => c.setSel { c.sel with txns := [⟨1, 0, .isOpen, [], none, 0, 0⟩] }), { ask 0x0022 [] with txn := 1 }, ⟨1, 0, .isOpen, [], none, 0, 0⟩, by decide +kernel⟩,
   ⟨dev .stopped (fun c => c.setSel { c.sel with txns := [⟨1, 0, .isOpen, [], none, 0, 0⟩] }), { ask 0x0023 [] with txn := 1 }, ⟨1, 0, .isOpen, [], none, 0, 0⟩, by decide +kernel⟩,
   ⟨dev .stopped (fun c => (c.setTime { c.time with c := 9 }).setSel { c.sel with txns := [⟨1, 0, .isOpen, [], none, 0, 0⟩] }), ⟨1, 0, .isOpen, [], none, 0, 0⟩, by decide +kernel⟩,
   ⟨dev .stopped (fun c => c.setSel { c.sel with txns := [⟨1, 0, .scheduled, [⟨0x104, 0xFFFFFFFF, 7⟩], none, 0, 0⟩] }), ⟨1, 0, .scheduled, [⟨0x104, 0xFFFFFFFF, 7⟩], none, 0, 0⟩, 7, by decide +kernel⟩⟩

theorem witness_statisticsEventsTrace :
    (∃ (s : State) (cmd : Cmd), s.chip.hostRuns cmd 0x0040 = true ∧ cmd.payload = [1#8, 1#8] ∧ cmd.arg = 0x100500) ∧
    (∃ (s : State) (cmd : Cmd), s.chip.hostRuns cmd 0x0040 = true ∧ cmd.payload = [1#8, 0#8] ∧ cmd.arg = 0x100500) ∧
    (∃ (s : State) (cmd : Cmd) (e : EventRec), s.chip.hostRuns cmd 0x0050 = true ∧ cmd.payload = [1#8] ∧ s.chip.evq = [e] ∧ e.prio ≤ 7) ∧
    (∃ (s : State) (cmd : Cmd), s.chip.hostRuns cmd 0x0050 = true ∧ cmd.payload = [1#8] ∧ s.chip.evq = []) ∧
    (∃ (s : State) (cmd : Cmd) (e : EventRec), s.chip.hostRuns cmd 0x0050 = true ∧ cmd.payload = [1#8] ∧ s.chip.evq = [e] ∧ e.prio ≤ 7) ∧
    (∃ (s : State) (cmd : Cmd) (e : EventRec), s.chip.hostRuns cmd 0x0051 = true ∧ cmd.payload = bytesBE 4 e.id ∧ e.id < 2 ^ 32 ∧ s.chip.evq = [e]) ∧
    (∃ (s : State) (cmd : Cmd) (id : Nat), s.chip.hostRuns cmd 0x0051 = true ∧ cmd.payload = bytesBE 4 id ∧ id < 2 ^ 32 ∧ (∀ e ∈ s.chip.evq, e.id ≠ id)) ∧
    (∃ (s : State) (cmd : Cmd) (e : List Nat) (q : List (List Nat)), s.chip.hostRuns cmd 0x00B0 = true ∧ cmd.payload = [1#8] ∧ s.chip.sched.trace = e :: q ∧ s.chip.sched.traceC ≠ some s.chip.time.c.toNat) :=
  ⟨⟨dev .stopped id, { ask 0x0040 [1#8, 1#8] with arg := 0x100500 }, by decide +kernel⟩,
   ⟨dev .stopped id, { ask 0x0040 [1#8, 0#8] with arg := 0x100500 }, by decide +kernel⟩,
   ⟨dev .stopped (fun c => c.setEvq [⟨1, 3, 0, 9, 0, 0, 0, 0, 0⟩]), ask 0x0050 [1#8], ⟨1, 3, 0, 9, 0, 0, 0, 0, 0⟩, by decide +kernel⟩,
   ⟨dev .stopped id, ask 0x0050 [1#8], by decide +kernel⟩,
   ⟨dev .stopped (fun c => c.setEvq [⟨1, 3, 0, 9, 0, 0, 0, 0, 0⟩]), ask 0x0050 [1#8], ⟨1, 3, 0, 9, 0, 0, 0, 0, 0⟩, by decide +kernel⟩,
   ⟨dev .stopped (fun c => c.setEvq [⟨1, 3, 0, 9, 0, 0, 0, 0, 0⟩]), ask 0x0051 (bytesBE 4 9), ⟨1, 3, 0, 9, 0, 0, 0, 0, 0⟩, by decide +kernel⟩,
   ⟨dev .stopped id, ask 0x0051 (bytesBE 4 9), 9, by decide +kernel⟩,
   ⟨dev .stopped (fun c => c.setSched { c.sched with trace := [[1, 2, 3, 4]] }), ask 0x00B0 [1#8], [1, 2, 3, 4], [], by decide +kernel⟩⟩

theorem witness_bulkLoadAndGate :
    (∃ (s : State) (cmd : Cmd) (o : Nat), s.chip.hostRuns cmd 0x0030 = true ∧ cmd.txn = 0 ∧ cmd.arg % 4 = 0 ∧ 4 ≤ cmd.payload.length ∧ cmd.payload.length ≤ 8192 ∧ cmd.payload.length % 16 = 0 ∧ s.chip.shareAt cmd.arg cmd.payload.length = some (.cal, o) ∧ o % 16 = 0 ∧ s.chip.relayoutDue = false) ∧
    (∃ (s : State) (cmd : Cmd), s.chip.hostRuns cmd 0x0030 = true ∧ cmd.txn = 0 ∧ 4 ≤ cmd.payload.length ∧ cmd.payload.length ≤ 8192 ∧ cmd.payload.length % 4 = 0 ∧ s.chip.shareAt cmd.arg cmd.payload.length = none) ∧
    (∃ (s : State) (cmd : Cmd) (k : Fin 64), s.chip.hostRuns cmd 0x00C0 = true ∧ cmd.payload = [0#8, 0#8, 0#8, byteOf k.val] ∧ s.chip.coreUnfenced k.val = true ∧ s.chip.bit (gateBit k.val) = false ∧ s.chip.gateConflict cmd k.val = false ∧ s.chip.unitInError k.val = false ∧ s.chip.unitBusy k.val = false) ∧
    (∃ (s : State) (cmd : Cmd) (k : Fin 64) (done : Bool), s.chip.hostRuns cmd 0x00C0 = true ∧ cmd.payload = [0#8, 0#8, 0#8, byteOf k.val] ∧ s.chip.coreUnfenced k.val = false) ∧
    (∃ (s : State) (cmd : Cmd) (k : Fin 64), s.chip.hostRuns cmd 0x00C0 = true ∧ cmd.payload = [0#8, 1#8, 0#8, byteOf k.val] ∧ s.chip.coreUnfenced k.val = true ∧ s.chip.bit (gateBit k.val) = true ∧ s.chip.unitInError k.val = false) :=
  ⟨⟨dev .stopped (fun c => c.put FST_LAYOUT_CAL.CAL_GRAN 1), { ask 0x0030 (List.replicate 16 0#8) with arg := allocBase 0 }, 0, by decide +kernel⟩,
   ⟨dev .stopped id, ask 0x0030 (List.replicate 16 0#8), by decide +kernel⟩,
   ⟨dev .stopped bare, ask 0x00C0 [0#8, 0#8, 0#8, byteOf 0], 0, by decide +kernel, by decide +kernel, by decide +kernel, by decide +kernel, bare_gate _ rfl, by decide +kernel, by decide +kernel⟩,
   ⟨dev .stopped (fun c => c.put (bit32 0 SCH_CORE_LIVE.CORE_LIVE) 0), ask 0x00C0 [0#8, 0#8, 0#8, byteOf 0], 0, true, by decide +kernel⟩,
   ⟨dev .stopped (fun c => c.put (gateBit 0) 1), ask 0x00C0 [0#8, 1#8, 0#8, byteOf 0], 0, by decide +kernel⟩⟩

theorem witness_resetAndDormantCommands :
    (∃ (s : State) (cmd : Cmd) (b : BitVec 8), s.chip.hostRuns cmd 0x00D0 = true ∧ cmd.payload = [b]) ∧
    (∃ (s : State) (cmd : Cmd), s.chip.hostRuns cmd 0x00E0 = true ∧ cmd.payload = []) ∧
    (∃ s : State, s.chip.awake = true ∧ s.chip.sel.action = some .reset ∧ s.chip.replyWaits 0x00D0 = true) ∧
    (∃ s : State, s.chip.awake = true ∧ s.chip.sel.action = some .dormant ∧ s.chip.replyWaits 0x00E0 = true) ∧
    (∃ s : State, s.chip.awake = true ∧ s.chip.sel.action = some .reset ∧ s.chip.replyWaits 0x00D0 = false ∧ s.chip.sched.items = []) ∧
    (∃ s : State, (s.chip.st = .stopped ∨ s.chip.st = .running) ∧ s.chip.sel.action = some .dormant ∧ s.chip.replyWaits 0x00E0 = false ∧ s.chip.sched.items = []) ∧
    (∃ (s : State) (cmd : Cmd) (b : BitVec 8), s.chip.hostRuns { cmd with noReply := false } 0x00D0 = true ∧ cmd.noReply = true ∧ cmd.payload = [b] ∧ s.chip.sched.items = []) ∧
    (∃ (s : State) (cmd : Cmd), s.chip.hostRuns { cmd with noReply := false } 0x00E0 = true ∧ cmd.noReply = true ∧ cmd.payload = [] ∧ s.chip.sched.items = []) ∧
    (∃ (s : State) (cmd : Cmd), (s.chip.st = .updating ∨ s.chip.st = .fenced ∨ (s.chip.st = .recovery ∧ s.chip.power.locked = false)) ∧ s.chip.hostAsks cmd = true ∧ cmd.opcode = 0x00E0 ∧ cmd.epoch = s.chip.epoch ∧ cmd.payload = []) :=
  ⟨⟨dev .stopped id, ask 0x00D0 [1#8], 1#8, by decide +kernel⟩,
   ⟨dev .stopped id, ask 0x00E0 [], by decide +kernel⟩,
   ⟨dev .stopped (fun c => c.setSel { c.sel with action := some .reset, hostOut := [(chipAt .stopped).bareReply (ask 0x00D0 []) .ok] }), by decide +kernel⟩,
   ⟨dev .stopped (fun c => c.setSel { c.sel with action := some .dormant, hostOut := [(chipAt .stopped).bareReply (ask 0x00E0 []) .ok] }), by decide +kernel⟩,
   ⟨dev .stopped (fun c => c.setSel { c.sel with action := some .reset }), by decide +kernel⟩,
   ⟨dev .stopped (fun c => c.setSel { c.sel with action := some .dormant }), by decide +kernel⟩,
   ⟨dev .stopped id, { ask 0x00D0 [1#8] with noReply := true }, 1#8, by decide +kernel⟩,
   ⟨dev .stopped id, { ask 0x00E0 [] with noReply := true }, by decide +kernel⟩,
   ⟨dev .fenced id, ask 0x00E0 [], by decide +kernel⟩⟩

theorem witness_startAndStop :
    (∃ s : State, s.chip.st = .stopped ∧ s.chip.sel.txns = [] ∧ s.chip.pend = [] ∧ s.chip.scan.tests = [] ∧ s.chip.startOk = true) ∧
    (∃ s : State, s.chip.st = .stopped ∧ s.chip.sel.txns = [] ∧ s.chip.pend = [] ∧ s.chip.startOk = false) ∧
    (∃ s : State, s.chip.st = .running ∧ s.chip.sel.txns = [] ∧ s.chip.sched.items = []) :=
  ⟨⟨dev .stopped bare, by decide +kernel, by decide +kernel, by decide +kernel, by decide +kernel, bare_start⟩,
   ⟨dev .stopped wide, by decide +kernel, by decide +kernel, by decide +kernel, wide_start⟩,
   ⟨dev .running id, by decide +kernel⟩⟩

theorem witness_packetsAndHostPort :
    (∃ (s : State) (p : PortIx) (ip : IpHdr) (b : List Byte), (s.chip.st = .stopped ∨ s.chip.st = .running) ∧ s.chip.power.portsUp = true ∧ ip.dport = 47800 ∧ s.chip.linkUp p = true ∧ s.chip.ownsIp p ip.dst = true ∧ ip.frag = false ∧ readable b = true ∧ sizeRight b = true ∧ s.chip.authentic s.nv (parseCmd (.net ip.src ip.sport) p b) b = true ∧ s.chip.sel.requesters = [] ∧ s.chip.sel.floors.getD (parseCmd (.net ip.src ip.sport) p b).key.val none = none ∧ s.chip.gang.role ≠ .apex ∧ s.chip.nodeMine (parseCmd (.net ip.src ip.sport) p b) = true ∧ s.chip.gangMine (parseCmd (.net ip.src ip.sport) p b) = true ∧ s.chip.sel.cmdq.length < 64) ∧
    (∃ (s : State) (p : PortIx) (ip : IpHdr) (b : List Byte), (s.chip.st = .stopped ∨ s.chip.st = .running) ∧ s.chip.power.portsUp = true ∧ ip.dport = 47800 ∧ s.chip.linkUp p = true ∧ s.chip.ownsIp p ip.dst = true ∧ ip.frag = false ∧ readable b = true ∧ sizeRight b = true ∧ s.chip.authentic s.nv (parseCmd (.net ip.src ip.sport) p b) b = false) ∧
    (∃ (s : State) (b : List Byte), (s.chip.st = .stopped ∨ s.chip.st = .running) ∧ s.chip.hostServed = true ∧ s.chip.emulates = false ∧ s.chip.sel.hostIn < 2 ∧ readable b = true ∧ sizeRight b = true ∧ s.chip.authentic s.nv (parseCmd .host 0 b) b = true ∧ s.chip.judgeCmd (parseCmd .host 0 b) = .fresh ∧ s.chip.gang.role ≠ .apex ∧ s.chip.nodeMine (parseCmd .host 0 b) = true ∧ s.chip.gangMine (parseCmd .host 0 b) = true ∧ s.chip.sel.cmdq.length < 64) ∧
    (∃ (s : State) (b : List Byte), (s.chip.st = .stopped ∨ s.chip.st = .running) ∧ s.chip.hostServed = true ∧ s.chip.emulates = false ∧ s.chip.sel.hostIn < 2 ∧ readable b = true ∧ sizeRight b = true ∧ s.chip.authentic s.nv (parseCmd .host 0 b) b = true ∧ s.chip.judgeCmd (parseCmd .host 0 b) = .old) ∧
    (∃ (s : State) (b : List Byte), s.chip.hostServed = true ∧ s.chip.emulates = false ∧ 2 ≤ s.chip.sel.hostIn) ∧
    (∃ (s : State) (n : Nat) (r : Reply) (l : List Reply), s.chip.hostServed = true ∧ s.chip.emulates = false ∧ s.chip.sel.hostOut = r :: l) ∧
    (∃ s : State, s.chip.hostServed = true ∧ s.chip.emulates = false) ∧
    (∃ (s : State) (r : Reply) (l : List Reply), s.chip.awake = true ∧ s.chip.sel.delayed = r :: l ∧ r.dst = .host ∧ s.chip.sel.hostOut.length < 4) :=
  ⟨⟨dev .stopped (fun c => c.put (PRTn_IPV4.IPV4 0) 0x0A000001), 0, ⟨7, 0xFFFF0A000001, 5000, 47800, false⟩, ping, by decide +kernel⟩,
   ⟨dev .stopped (fun c => c.put (PRTn_IPV4.IPV4 0) 0x0A000001), 0, ⟨7, 0xFFFF0A000001, 5000, 47800, false⟩, pingBare, by decide +kernel⟩,
   ⟨dev .stopped (fun c => c.put CLK_STRAPS.STRAP_HOST 1), ping, by decide +kernel⟩,
   ⟨dev .stopped (fun c => ((c.setSel { c.sel with floors := [some 1] })).put CLK_STRAPS.STRAP_HOST 1), ping, by decide +kernel⟩,
   ⟨dev .stopped (fun c => ((c.setSel { c.sel with hostIn := 2 })).put CLK_STRAPS.STRAP_HOST 1), ping, by decide +kernel⟩,
   ⟨dev .stopped (fun c => ((c.setSel { c.sel with hostOut := [(chipAt .stopped).bareReply (ask 0x00D0 []) .ok] })).put CLK_STRAPS.STRAP_HOST 1), 4, (chipAt .stopped).bareReply (ask 0x00D0 []) .ok, [], by decide +kernel⟩,
   ⟨dev .stopped (fun c => c.put CLK_STRAPS.STRAP_HOST 1), by decide +kernel⟩,
   ⟨dev .stopped (fun c => c.setSel { c.sel with delayed := [(chipAt .stopped).bareReply (ask 0x00D0 []) .ok] }), (chipAt .stopped).bareReply (ask 0x00D0 []) .ok, [], by decide +kernel⟩⟩

theorem witness_firmwareLoad :
    (∃ (s : State) (cmd : Cmd), s.chip.hostRuns cmd 0x0070 = true ∧ cmd.arg = 0 ∧ 4 ≤ cmd.payload.length ∧ cmd.payload.length ≤ 8192 ∧ s.chip.loading.buffered + cmd.payload.length ≤ 65536 ∧ s.chip.get FWU_STATUS.ACT_PENDING = 0 ∧ s.chip.loading.toVerify = none) ∧
    (∃ (s : State) (cmd : Cmd), s.chip.hostRuns cmd 0x0070 = true ∧ 4 ≤ cmd.payload.length ∧ cmd.payload.length ≤ 8192 ∧ s.chip.loading.toVerify.isSome = true ∧ cmd.arg % 4 = 0 ∧ cmd.arg + cmd.payload.length ≤ slotLen) ∧
    (∃ (s : State) (i : Nat), s.chip.awake = true ∧ s.chip.loading.active = true ∧ s.chip.loading.ranges = [(0, imgLen (s.nv.image s.nv.other))] ∧ 65536 * (i + 1) < imgLen (s.nv.image s.nv.other) ∧ i < imgBlocks (s.nv.image s.nv.other) ∧ s.chip.loading.bad = [] ∧ blockGood (s.nv.image s.nv.other) i = false) ∧
    (∃ (s : State) (cmd : Cmd), s.chip.hostRuns cmd 0x0071 = true ∧ cmd.payload = [] ∧ s.chip.loading.toVerify = none) ∧
    (∃ (s : State) (cmd : Cmd) (key : Option (List Byte)), s.chip.awake = true ∧ s.chip.loading.toVerify = some (cmd, key) ∧ cmd.src = .host ∧ cmd.noReply = false ∧ cmd.node ≠ 0xFFFF ∧ s.chip.sel.hostOut.length < 4 ∧ s.chip.heldPlace cmd = none) :=
  ⟨⟨dev .stopped id, ask 0x0070 (List.replicate 4 0#8), by decide +kernel⟩,
   ⟨dev .stopped (fun c => c.setLoading { c.loading with toVerify := some (ask 0x0071 [], none) }), ask 0x0070 (List.replicate 4 0#8), by decide +kernel⟩,
   ⟨devN .stopped (fun n => { n with images := List.replicate 2 [(8, bytesBE 4 65540), (26, bytesBE 2 1)] }) (fun c => c.setLoading { c.loading with active := true, ranges := [(0, 65540)] }), 0, by decide +kernel⟩,
   ⟨dev .stopped id, ask 0x0071 [], by decide +kernel⟩,
   ⟨dev .stopped (fun c => c.setLoading { c.loading with toVerify := some (ask 0x0071 [], none) }), ask 0x0071 [], none, by decide +kernel⟩⟩

theorem witness_activationAndSettings :
    (∃ (s : State) (cmd : Cmd), s.chip.hostRuns cmd 0x0072 = true ∧ cmd.payload = List.replicate 12 0#8 ∧ s.chip.get FWU_STATUS.OTHER_VALID = 1 ∧ s.chip.get FWU_STATUS.ACT_PENDING = 0) ∧
    (∃ (s : State) (cmd : Cmd) (g : FullTime), s.chip.hostRuns cmd 0x0072 = true ∧ cmd.payload = [1#8, 0#8] ++ bytesBE 6 g.sec ++ bytesBE 4 g.ns ∧ g.sec < 2 ^ 48 ∧ g.ns < 2 ^ 32 ∧ s.chip.now < FullTime.at g ∧ s.chip.get FWU_STATUS.OTHER_VALID = 1 ∧ s.chip.get FWU_STATUS.ACT_PENDING = 0) ∧
    (∃ (s : State) (cmd : Cmd), s.chip.hostRuns cmd 0x0072 = true ∧ cmd.payload.length = 12 ∧ s.chip.get FWU_STATUS.OTHER_VALID = 0) ∧
    (∃ s : State, s.chip.mayUpdate true = true ∧ s.chip.actDue = true ∧ s.chip.sched.items = []) ∧
    (∃ s : State, s.chip.awake = true ∧ (s.chip.mayUpdate true = false ∨ s.chip.actDue = false)) ∧
    (∃ s : State, (s.chip.st = .stopped ∨ s.chip.st = .running) ∧ s.chip.sel.txns = [] ∧ s.chip.loading.actTime.isSome = true) ∧
    (∃ (s : State) (cmd : Cmd), s.chip.hostRuns cmd 0x0073 = true ∧ cmd.payload = [] ∧ s.chip.get FWU_STATUS.OTHER_VALID = 1 ∧ s.chip.get FWU_STATUS.ACT_PENDING = 0) ∧
    (∃ s : State, (s.chip.st = .stopped ∨ s.chip.st = .running) ∧ s.chip.sel.txns = [] ∧ s.chip.loading.saving = none) ∧
    (∃ s : State, (s.chip.st = .stopped ∨ s.chip.st = .running) ∧ s.chip.sel.txns = [] ∧ s.chip.loading.saving.isSome = true) ∧
    (∃ (s : State) (ws : List (Nat × Word)), s.chip.awake = true ∧ s.chip.loading.saving = some ws) ∧
    (∃ s : State, s.chip.awake = true ∧ s.chip.loading.saving.isSome = true) :=
  ⟨⟨dev .stopped (fun c => c.put FWU_STATUS.OTHER_VALID 1), ask 0x0072 (List.replicate 12 0#8), by decide +kernel⟩,
   ⟨dev .stopped (fun c => c.put FWU_STATUS.OTHER_VALID 1), ask 0x0072 ([1#8, 0#8] ++ bytesBE 6 9 ++ bytesBE 4 0), ⟨9, 0⟩, by decide +kernel⟩,
   ⟨dev .stopped id, ask 0x0072 (List.replicate 12 0#8), by decide +kernel⟩,
   ⟨dev .stopped (fun c => (c.setTime { c.time with c := 2 ^ 50 }).setLoading { c.loading with actTime := some ⟨9, 0⟩ }), by decide +kernel⟩,
   ⟨dev .stopped (fun c => c.setLoading { c.loading with actTime := some ⟨9, 0⟩ }), by decide +kernel⟩,
   ⟨dev .stopped (fun c => c.setLoading { c.loading with actTime := some ⟨9, 0⟩ }), by decide +kernel⟩,
   ⟨dev .stopped (fun c => c.put FWU_STATUS.OTHER_VALID 1), ask 0x0073 [], by decide +kernel⟩,
   ⟨dev .stopped id, by decide +kernel⟩,
   ⟨dev .stopped (fun c => c.setLoading { c.loading with saving := some [] }), by decide +kernel⟩,
   ⟨dev .stopped (fun c => c.setLoading { c.loading with saving := some [] }), [], by decide +kernel⟩,
   ⟨dev .stopped (fun c => c.setLoading { c.loading with saving := some [] }), by decide +kernel⟩⟩

theorem witness_lifeCycle :
    (∃ (s : State) (cmd : Cmd), s.chip.hostRuns cmd 0x00A0 = true ∧ cmd.payload = [1#8] ∧ s.nv.lifecycle < 4) ∧
    (∃ (s : State) (cmd : Cmd), s.chip.hostRuns cmd 0x00A0 = true ∧ cmd.payload = [2#8] ∧ cmd.key.val = 0 ∧ s.nv.lifecycle = 0 ∧ (s.nv.keyAt 0).isSome = true) ∧
    (∃ (s : State) (cmd : Cmd), s.chip.hostRuns cmd 0x00A0 = true ∧ cmd.payload = [3#8] ∧ cmd.key.val = 0 ∧ s.nv.lifecycle = 1) ∧
    (∃ (s : State) (cmd : Cmd), s.chip.hostRuns cmd 0x00A0 = true ∧ cmd.payload = [3#8] ∧ cmd.key.val ≠ 0 ∧ s.nv.lifecycle = 1) ∧
    (∃ (s : State) (cmd : Cmd), s.chip.hostRuns cmd 0x00A0 = true ∧ cmd.payload = [4#8] ∧ cmd.key.val = 0 ∧ (s.nv.lifecycle = 0 ∨ s.nv.lifecycle = 1)) ∧
    (∃ (s : State) (cmd : Cmd) (v : Nat), s.chip.hostRuns cmd 0x00A0 = true ∧ cmd.payload = 5#8 :: bytesBE 4 v ∧ cmd.key.val = 0 ∧ (s.nv.lifecycle = 1 ∨ s.nv.lifecycle = 2) ∧ s.nv.floor < v ∧ v < 2 ^ 32 ∧ v ≤ imgSecurity (s.nv.image s.nv.primary)) ∧
    (∃ (s : State) (cmd : Cmd), s.chip.hostRuns cmd 0x00A0 = true ∧ cmd.payload = [6#8] ∧ cmd.key.val = 0 ∧ (s.nv.lifecycle = 1 ∨ s.nv.lifecycle = 2 ∨ s.nv.lifecycle = 3)) ∧
    (∃ s : State, s.chip.awake = true) :=
  ⟨⟨devN .stopped (fun n => { n with lifecycle := 0 }) id, ask 0x00A0 [1#8], by decide +kernel⟩,
   ⟨devN .stopped (fun n => { n with lifecycle := 0 }) id, ask 0x00A0 [2#8], by decide +kernel⟩,
   ⟨devN .stopped (fun n => { n with lifecycle := 1 }) id, ask 0x00A0 [3#8], by decide +kernel⟩,
   ⟨devN .stopped (fun n => { n with lifecycle := 1 }) id, { ask 0x00A0 [3#8] with key := 1 }, by decide +kernel⟩,
   ⟨devN .stopped (fun n => { n with lifecycle := 0 }) id, ask 0x00A0 [4#8], by decide +kernel⟩,
   ⟨devN .stopped (fun n => { n with lifecycle := 1, images := List.replicate 2 [(16, bytesBE 4 5)] }) id, ask 0x00A0 (5#8 :: bytesBE 4 3), 3, by decide +kernel⟩,
   ⟨devN .stopped (fun n => { n with lifecycle := 1 }) id, ask 0x00A0 [6#8], by decide +kernel⟩,
   ⟨dev .stopped id, by decide +kernel⟩⟩

theorem witness_returnAndKeys :
    (∃ (s : State) (cmd : Cmd) (n : List Byte), s.chip.hostRuns cmd 0x00A0 = true ∧ cmd.payload.length = 66 ∧ cmd.payload.head? = some 7#8 ∧ (s.nv.lifecycle = 1 ∨ s.nv.lifecycle = 2) ∧ s.chip.loading.armed = some n) ∧
    (∃ (s : State) (cmd : Cmd) (n : List Byte), s.chip.hostRuns cmd 0x00A0 = true ∧ cmd.payload.length = 66 ∧ cmd.payload.head? = some 8#8 ∧ s.nv.lifecycle = 3 ∧ s.chip.loading.armed = some n) ∧
    (∃ (s : State) (cmd : Cmd), s.chip.hostRuns cmd 0x00A0 = true ∧ cmd.key.val = 0 ∧ (s.nv.lifecycle = 1 ∨ s.nv.lifecycle = 2 ∨ s.nv.lifecycle = 3) ∧ cmd.payload = 9#8 :: uniqueBytes.drop 12) ∧
    (∃ (s : State) (cmd : Cmd) (slot : Nat) (k : List Byte), s.chip.hostRuns cmd 0x00A0 = true ∧ cmd.key.val = 0 ∧ (s.nv.lifecycle = 0 ∨ s.nv.lifecycle = 1 ∨ s.nv.lifecycle = 3) ∧ slot < 8 ∧ k.length = 32 ∧ cmd.payload = 0x20#8 :: byteOf slot :: k) ∧
    (∃ (s : State) (cmd : Cmd) (slot : Nat), s.chip.hostRuns cmd 0x00A0 = true ∧ cmd.key.val = 0 ∧ (s.nv.lifecycle = 0 ∨ s.nv.lifecycle = 1 ∨ s.nv.lifecycle = 3) ∧ slot < 8 ∧ cmd.payload = [0x21#8, byteOf slot]) ∧
    (∃ (s : State) (cmd : Cmd), s.chip.hostRuns cmd 0x00A0 = true ∧ cmd.key.val = 0 ∧ s.nv.lifecycle = 2 ∧ cmd.payload = [0x21#8, 0#8]) :=
  ⟨⟨devN .stopped (fun n => { n with lifecycle := 1 }) (fun c => c.setLoading { c.loading with armed := some [1#8] }), ask 0x00A0 (7#8 :: List.replicate 65 0#8), [1#8], by decide +kernel⟩,
   ⟨devN .stopped (fun n => { n with lifecycle := 3 }) (fun c => c.setLoading { c.loading with armed := some [1#8] }), ask 0x00A0 (8#8 :: List.replicate 65 0#8), [1#8], by decide +kernel⟩,
   ⟨devN .stopped (fun n => { n with lifecycle := 1 }) id, ask 0x00A0 (9#8 :: uniqueBytes.drop 12), by decide +kernel, rfl, .inl rfl, rfl⟩,
   ⟨devN .stopped (fun n => { n with lifecycle := 1 }) id, ask 0x00A0 (0x20#8 :: byteOf 2 :: key7), 2, key7, by decide +kernel⟩,
   ⟨devN .stopped (fun n => { n with lifecycle := 1 }) id, ask 0x00A0 [0x21#8, byteOf 2], 2, by decide +kernel⟩,
   ⟨devN .stopped (fun n => { n with lifecycle := 2 }) id, ask 0x00A0 [0x21#8, 0#8], by decide +kernel⟩⟩

theorem witness_calibration :
    (∃ (s : State) (cmd : Cmd) (map : Nat), s.chip.hostRuns cmd 0x0080 = true ∧ cmd.payload = bytesBE 2 map ∧ 0 < map ∧ map < 32 ∧ map % 2 = 0 ∧ s.chip.calib.run = none) ∧
    (∃ (s : State) (cmd : Cmd) (map : Nat), s.chip.hostRuns cmd 0x0080 = true ∧ cmd.payload = bytesBE 2 map ∧ 0 < map ∧ map < 32 ∧ s.chip.calib.run.isSome = true) ∧
    (∃ (s : State) (n : Nat), (s.chip.st = .stopped ∨ s.chip.st = .running) ∧ s.chip.get CAL_CTRL.AUTO_EN = 1 ∧ s.chip.triggerDue n = true ∧ s.chip.get CAL_CTRL.AUTO_MASK ≠ 0 ∧ s.chip.calib.run = none) ∧
    (∃ (s : State) (r : CalRun) (p0 p1 : Int), (s.chip.st = .stopped ∨ s.chip.st = .running) ∧ s.chip.calib.run = some r ∧ r.items = [1] ∧ mag p0 ≤ 5000 ∧ mag p1 ≤ 5000) ∧
    (∃ (s : State) (r : CalRun) (p0 p1 : Int), (s.chip.st = .stopped ∨ s.chip.st = .running) ∧ s.chip.calib.run = some r ∧ r.items = [1] ∧ 5000 < mag p0) ∧
    (∃ (s : State) (r : CalRun), s.chip.timed = true ∧ s.chip.calib.run = some r ∧ r.items = [] ∧ r.passed = [1] ∧ r.failed = [2] ∧ r.cmd = none ∧ s.chip.calib.queued = none) ∧
    (∃ (s : State) (r : CalRun) (quad : Nat) (taps : List (Nat × Int)), s.chip.st = .running ∧ s.chip.calib.run = some r ∧ r.items.head? = some 3 ∧ s.chip.get CHN_STATUS.RB_READY = 1 ∧ s.chip.scan.display = .showing ∧ s.chip.deskewRoom = true ∧ quad ∈ r.quads) ∧
    (∃ (s : State) (r : CalRun), s.chip.st = .running ∧ s.chip.calib.run = some r ∧ r.items = [3]) ∧
    (∃ (s : State) (k n : Nat) (x : CalSet) (t : Int), s.chip.st = .running ∧ s.chip.calib.sets = [(k, n, x)]) ∧
    (∃ (s : State) (t : Int), s.chip.timed = true ∧ s.chip.calib.sets = []) ∧
    (∃ (s : State) (k : Fin 8), s.chip.writable = true ∧ s.chip.calib.sets = []) ∧
    (∃ (s : State) (k : Fin 8) (n : Nat) (x : CalSet), s.chip.writable = true ∧ s.chip.calib.sets = [(k.val, n, x)]) :=
  ⟨⟨dev .stopped id, ask 0x0080 (bytesBE 2 2), 2, by decide +kernel⟩,
   ⟨dev .stopped (fun c => (c.setCalib { c.calib with run := some (⟨2, [1], [], [], [], [], none⟩ : CalRun) })), ask 0x0080 (bytesBE 2 2), 2, by decide +kernel⟩,
   ⟨dev .stopped (fun c => ((((c.setTime { c.time with c := 2 ^ 50 })).put CAL_CTRL.AUTO_EN 1).put CAL_CTRL.AUTO_MASK 1).put CAL_CTRL.PERIOD_MIN 1), 3, by decide +kernel⟩,
   ⟨dev .stopped (fun c => (c.setCalib { c.calib with run := some (⟨2, [1], [], [], [], [], none⟩ : CalRun) })), (⟨2, [1], [], [], [], [], none⟩ : CalRun), 5, 5, by decide +kernel⟩,
   ⟨dev .stopped (fun c => (c.setCalib { c.calib with run := some (⟨2, [1], [], [], [], [], none⟩ : CalRun) })), (⟨2, [1], [], [], [], [], none⟩ : CalRun), 5001, 5, by decide +kernel⟩,
   ⟨dev .stopped (fun c => (c.setCalib { c.calib with run := some (⟨2, [], [1], [2], [], [], none⟩ : CalRun) })), (⟨2, [], [1], [2], [], [], none⟩ : CalRun), by decide +kernel⟩,
   ⟨dev .running (fun c => (showing (((c.setCalib { c.calib with run := some (⟨2, [3], [], [], [], [0], none⟩ : CalRun) })).put CHN_STATUS.RB_READY 1))), (⟨2, [3], [], [], [], [0], none⟩ : CalRun), 0, [], by decide +kernel⟩,
   ⟨dev .running (fun c => (c.setCalib { c.calib with run := some (⟨2, [3], [], [], [], [], none⟩ : CalRun) })), (⟨2, [3], [], [], [], [], none⟩ : CalRun), by decide +kernel⟩,
   ⟨dev .running (fun c => c.setCalib { c.calib with sets := [(0, 0, ⟨400, 1, 2, 3, 0x8000, List.replicate 64 32⟩)] }), 0, 0, ⟨400, 1, 2, 3, 0x8000, List.replicate 64 32⟩, 400, by decide +kernel⟩,
   ⟨dev .running id, 400, by decide +kernel⟩,
   ⟨dev .stopped id, 0, by decide +kernel⟩,
   ⟨dev .stopped (fun c => c.setCalib { c.calib with sets := [(0, 0, ⟨400, 1, 2, 3, 0x8000, List.replicate 64 32⟩)] }), 0, 0, ⟨400, 1, 2, 3, 0x8000, List.replicate 64 32⟩, by decide +kernel⟩⟩

theorem witness_gangElection :
    (∃ (s : State), s.chip.timed = true ∧ s.chip.power.portsUp = true ∧ s.chip.inGang = true ∧ s.chip.gang.role = .member) ∧
    (∃ (s : State), s.chip.timed = true ∧ s.chip.power.portsUp = true ∧ s.chip.inGang = true ∧ s.chip.gang.role = .backoff ∧ s.chip.mayClaim = true) ∧
    (∃ (s : State), s.chip.timed = true ∧ s.chip.power.portsUp = true ∧ s.chip.inGang = true ∧ s.chip.gang.role = .claimant) ∧
    (∃ (s : State) (src gseq epoch : Nat) (body : List Byte), s.chip.gangHears s.nv src gseq epoch = true ∧ body.length = 15 ∧ s.chip.timeNear body = true ∧ s.chip.gangEpoch < epoch ∧ s.chip.gang.role ≠ .apex) ∧
    (∃ (s : State) (src gseq epoch : Nat) (body : List Byte), s.chip.gangHears s.nv src gseq epoch = true ∧ body.length = 15 ∧ s.chip.timeNear body = true ∧ epoch < s.chip.gangEpoch) ∧
    (∃ (s : State) (src gseq : Nat) (body : List Byte), s.chip.gangHears s.nv src gseq s.chip.gangEpoch = true ∧ body.length = 15 ∧ s.chip.timeNear body = true ∧ s.chip.gang.role = .claimant) ∧
    (∃ (s : State) (src gseq epoch : Nat) (body : List Byte), s.chip.gangHears s.nv src gseq epoch = true ∧ body.length = 14 ∧ s.chip.timeNear body = true ∧ s.chip.gangEpoch < epoch ∧ s.chip.gang.role = .apex ∧ s.chip.st = .stopped) :=
  ⟨⟨dev .stopped inGang5, by decide +kernel⟩,
   ⟨dev .stopped (fun c => (((inGang5 c).setGang { c.gang with role := .backoff })).put GNG_CTRL.APEX_MODE 1), by decide +kernel⟩,
   ⟨dev .stopped (fun c => (inGang5 c).setGang { c.gang with role := .claimant }), by decide +kernel⟩,
   ⟨dev .stopped inGang5, 3, 1, 9, List.replicate 15 0#8, by decide +kernel⟩,
   ⟨dev .stopped (fun c => ((inGang5 c)).put GNG_EPOCH.GANG_EPOCH 9), 3, 1, 4, List.replicate 15 0#8, by decide +kernel⟩,
   ⟨dev .stopped (fun c => (inGang5 c).setGang { c.gang with role := .claimant }), 3, 1, List.replicate 15 0#8, by decide +kernel⟩,
   ⟨dev .stopped (fun c => (inGang5 c).setGang { c.gang with role := .apex }), 3, 1, 9, List.replicate 14 0#8, by decide +kernel⟩⟩

theorem witness_gangPollingAndTable :
    (∃ (s : State) (src gseq : Nat) (body : List Byte), s.chip.gangHears s.nv src gseq s.chip.gangEpoch = true ∧ body.length = 14 ∧ s.chip.timeNear body = true ∧ s.chip.gang.role = .member) ∧
    (∃ (s : State) (src gseq epoch : Nat) (body : List Byte), s.chip.timed = true ∧ s.chip.power.portsUp = true ∧ s.chip.inGang = true ∧ s.nv.keyAt (s.chip.get GNG_ID.KEY_SLOT) = none ∧ src < 64 ∧ body.length = 14) ∧
    (∃ (s : State) (a : Nat), s.chip.timed = true ∧ s.chip.power.portsUp = true ∧ s.chip.inGang = true ∧ s.chip.gang.statusDue = some a) ∧
    (∃ (s : State) (src gseq : Nat) (body : List Byte), s.chip.gangHears s.nv src gseq s.chip.gangEpoch = true ∧ body.length = 12 ∧ s.chip.gang.role = .apex ∧ s.chip.msgMode = false) ∧
    (∃ (s : State), s.chip.timed = true ∧ s.chip.power.portsUp = true ∧ s.chip.inGang = true ∧ s.chip.gang.role = .apex ∧ s.chip.st ≠ .fenced ∧ s.chip.gang.members = [] ∧ s.chip.gang.inbox = []) ∧
    (∃ (s : State) (m : Member) (b : Nat), s.chip.timed = true ∧ s.chip.power.portsUp = true ∧ s.chip.inGang = true ∧ s.chip.gang.role = .apex ∧ s.chip.st ≠ .fenced ∧ s.chip.gang.members = [m] ∧ s.chip.gang.inbox = [] ∧ m.addr < 64 ∧ m.boots = [b] ∧ m.present = false ∧ m.duplicate = false) ∧
    (∃ (s : State) (m : Member), s.chip.timed = true ∧ s.chip.power.portsUp = true ∧ s.chip.inGang = true ∧ s.chip.gang.role = .apex ∧ s.chip.st ≠ .fenced ∧ s.chip.gang.members = [m] ∧ s.chip.gang.inbox = [] ∧ m.addr < 64 ∧ m.boots = [] ∧ m.present = true ∧ m.silent = false ∧ s.chip.missLimit ≤ m.misses + 1 ∧ s.chip.gang.relays = []) ∧
    (∃ (s : State), (s.chip.st = .stopped ∨ s.chip.st = .running) ∧ s.chip.sel.txns = []) ∧
    (∃ (s : State) (a : Fin 64), s.chip.writable = true ∧ s.chip.gang.member a.val = none) ∧
    (∃ (s : State) (a : Fin 64) (m : Member), s.chip.writable = true ∧ s.chip.gang.member a.val = some m) :=
  ⟨⟨dev .stopped inGang5, 3, 1, List.replicate 14 0#8, by decide +kernel⟩,
   ⟨dev .stopped (fun c => (inGang5 c).put GNG_ID.KEY_SLOT 7), 3, 1, 9, List.replicate 14 0#8, by decide +kernel⟩,
   ⟨dev .stopped (fun c => (inGang5 c).setGang { c.gang with statusDue := some 3 }), 3, by decide +kernel⟩,
   ⟨dev .stopped (fun c => (inGang5 c).setGang { c.gang with role := .apex }), 3, 1, List.replicate 12 0#8, by decide +kernel⟩,
   ⟨dev .stopped (fun c => (inGang5 c).setGang { c.gang with role := .apex }), by decide +kernel⟩,
   ⟨dev .stopped (fun c => (inGang5 c).setGang { c.gang with role := .apex, members := [⟨3, [0, 0, 0], false, false, false, 0, 0, [4], 0, false⟩] }), ⟨3, [0, 0, 0], false, false, false, 0, 0, [4], 0, false⟩, 4, by decide +kernel⟩,
   ⟨dev .stopped (fun c => (inGang5 c).setGang { c.gang with role := .apex, members := [⟨3, [0, 0, 0], true, false, false, 100, 0, [], 0, false⟩] }), ⟨3, [0, 0, 0], true, false, false, 100, 0, [], 0, false⟩, by decide +kernel⟩,
   ⟨dev .stopped id, by decide +kernel⟩,
   ⟨dev .stopped id, 3, by decide +kernel⟩,
   ⟨dev .stopped (fun c => c.setGang { c.gang with members := [⟨3, [0, 0, 0], false, false, false, 0, 0, [4], 0, false⟩] }), 3, ⟨3, [0, 0, 0], false, false, false, 0, 0, [4], 0, false⟩, by decide +kernel⟩⟩

theorem witness_relaysAndSignals :
    (∃ (s : State) (p : PortIx) (src gseq : Nat) (x : Cmd), s.chip.gangHears s.nv src gseq s.chip.gangEpoch = true ∧ x.opcode = 0x0001 ∧ x.payload.length ≤ 64 ∧ x.node = 0 ∧ x.txn = 0 ∧ s.chip.st ≠ .updating ∧ s.chip.sel.cmdq = [] ∧ s.chip.heardBoot src = true) ∧
    (∃ (s : State) (gseq flags tag txn ep seq node arg : Nat) (r : Relay) (payload : List Byte), s.chip.gangHears s.nv r.addr gseq s.chip.gangEpoch = true ∧ s.chip.gang.role = .apex ∧ s.chip.gang.relays = [r] ∧ s.chip.gang.inbox = [] ∧ s.chip.msgMode = false ∧ r.use = .direct ∧ r.gseq < 2 ^ 32 ∧ r.cmd.src = .host ∧ r.cmd.noReply = false ∧ r.cmd.node ≠ 0xFFFF ∧ s.chip.sel.hostOut.length < 4 ∧ s.chip.heldPlace r.cmd = none ∧ payload.length ≤ 1024 ∧ ep % 2 ^ 32 ≤ s.chip.epoch) ∧
    (∃ (s : State) (r : Relay), s.chip.timed = true ∧ s.chip.power.portsUp = true ∧ s.chip.gang.relays = [r] ∧ r.pending = false ∧ r.tries < max 1 (s.chip.get GNG_TIMING.LINK_TRIES)) ∧
    (∃ (s : State) (r : Relay), s.chip.timed = true ∧ s.chip.power.portsUp = true ∧ s.chip.gang.relays = [r] ∧ r.pending = false ∧ max 1 (s.chip.get GNG_TIMING.LINK_TRIES) ≤ r.tries ∧ r.use = .direct ∧ r.cmd.src = .host ∧ r.cmd.noReply = false ∧ r.cmd.node ≠ 0xFFFF ∧ s.chip.sel.hostOut.length < 4 ∧ s.chip.heldPlace r.cmd = none) ∧
    (∃ (s : State) (src gseq : Nat) (e : EventRec), s.chip.gangHears s.nv src gseq s.chip.gangEpoch = true ∧ s.chip.gang.role = .apex ∧ s.chip.msgMode = true ∧ s.chip.gang.inbox = [] ∧ e.type % 2 ^ 16 ≠ 0x0008) ∧
    (∃ (s : State) (src gseq k : Nat), s.chip.gangHears s.nv src gseq s.chip.gangEpoch = true ∧ k < 2 ^ 32) ∧
    (∃ (s : State) (x : SignalOut), s.chip.timed = true ∧ s.chip.power.portsUp = true ∧ s.chip.gang.signals = [x]) :=
  ⟨⟨dev .stopped (fun c => (inGang5 c).setGang { c.gang with peers := [⟨3, some 1, none, 0, none⟩] }), 0, 3, 1, ask 1 [], by decide +kernel⟩,
   ⟨dev .stopped (fun c => (inGang5 c).setGang { c.gang with role := .apex, relays := [⟨6, 3, ask 1 [], none, [], 1, false, .direct⟩] }), 1, 0, 0, 0, 0, 0, 0, 0, ⟨6, 3, ask 1 [], none, [], 1, false, .direct⟩, [], by decide +kernel⟩,
   ⟨dev .stopped (fun c => (inGang5 c).setGang { c.gang with relays := [⟨6, 3, ask 1 [], none, [], 0, false, .direct⟩] }), ⟨6, 3, ask 1 [], none, [], 0, false, .direct⟩, by decide +kernel⟩,
   ⟨dev .stopped (fun c => (inGang5 c).setGang { c.gang with relays := [⟨6, 3, ask 1 [], none, [], 9, false, .direct⟩] }), ⟨6, 3, ask 1 [], none, [], 9, false, .direct⟩, by decide +kernel⟩,
   ⟨dev .stopped (fun c => (((inGang5 c).setGang { c.gang with role := .apex })).put GNG_CTRL.MSG_MODE 1), 3, 1, ⟨1, 3, 0, 9, 0, 0, 0, 0, 0⟩, by decide +kernel⟩,
   ⟨dev .stopped inGang5, 3, 1, 8, by decide +kernel⟩,
   ⟨dev .stopped (fun c => (inGang5 c).setGang { c.gang with signals := [⟨6, [], 0⟩] }), ⟨6, [], 0⟩, by decide +kernel⟩⟩

theorem witness_bridgeRequests :
    (∃ (s : State) (cmd : Cmd) (p : Fin 4), s.chip.hostRuns cmd 0x0090 = true ∧ s.chip.rdmPort p.val = true ∧ cmd.payload = [byteOf p.val, 5#8] ∧ (s.chip.dmxPort p.val).holder = none ∧ (s.chip.dmxPort p.val).runq = [] ∧ s.chip.sel.hostOut.length < 3) ∧
    (∃ (s : State) (cmd : Cmd) (p : Fin 4), s.chip.hostRuns cmd 0x0090 = true ∧ s.chip.rdmPort p.val = true ∧ fieldBE cmd.payload 0 1 = p.val ∧ fieldBE cmd.payload 1 1 = 1 ∧ cmd.payload.length = 13 ∧ fieldBE cmd.payload 12 1 = 0 ∧ (s.chip.dmxPort p.val).holder = none ∧ (s.chip.dmxPort p.val).runq = [] ∧ s.chip.bridgeLive = true) ∧
    (∃ (s : State) (cmd : Cmd) (p : Fin 4) (h : Nat × Source), s.chip.hostRuns cmd 0x0090 = true ∧ s.chip.rdmPort p.val = true ∧ cmd.payload = [byteOf p.val, 5#8] ∧ (s.chip.dmxPort p.val).holder = some h ∧ h ≠ (cmd.key.val, .host)) ∧
    (∃ (s : State) (cmd : Cmd), s.chip.hostRuns cmd 0x0090 = true ∧ s.chip.rdmPort (fieldBE cmd.payload 0 1) = false ∧ cmd.payload.length = 2 ∧ fieldBE cmd.payload 1 1 = 5) ∧
    (∃ (s : State) (cmd : Cmd), s.chip.hostRuns cmd 0x0091 = true) :=
  ⟨⟨dev .stopped (fun c => (c.put (BRG_PORTp_CFG.MODE 0) 1).put (BRG_PORTp_CFG.RDM_EN 0) 1), ask 0x0090 [byteOf 0, 5#8], 0, by decide +kernel⟩,
   ⟨dev .stopped (fun c => (c.put (BRG_PORTp_CFG.MODE 0) 1).put (BRG_PORTp_CFG.RDM_EN 0) 1), ask 0x0090 (0#8 :: 1#8 :: List.replicate 11 0#8), 0, by decide +kernel⟩,
   ⟨dev .stopped (fun c => (((c.setDmxPort 0 { DmxPort.start with holder := some (1, .host) })).put (BRG_PORTp_CFG.MODE 0) 1).put (BRG_PORTp_CFG.RDM_EN 0) 1), ask 0x0090 [byteOf 0, 5#8], 0, (1, .host), by decide +kernel⟩,
   ⟨dev .stopped id, ask 0x0090 [0#8, 5#8], by decide +kernel⟩,
   ⟨dev .stopped id, ask 0x0091 [], by decide +kernel⟩⟩

theorem witness_emulationOfTheAM6140 :
    (∃ (s : State) (v : Nat), s.chip.emulServed = true ∧ s.chip.emulOwn = true ∧ (s.chip.st = .stopped ∨ s.chip.st = .running) ∧ s.chip.sel.txns = [] ∧ s.chip.layoutOld = false) ∧
    (∃ (s : State) (v : Nat), s.chip.emulServed = true ∧ s.chip.emulOwn = true ∧ s.chip.st = .updating ∧ s.chip.emul.msgs.length < 64) ∧
    (∃ (s : State) (n : Nat), s.chip.emulServed = true ∧ s.chip.emulOwn = true) ∧
    (∃ (s : State), s.chip.emulServed = true) ∧
    (∃ (s : State) (n t a q v : Nat) (l : List (Nat × Nat × Nat × Nat)), s.chip.emulServed = true ∧ s.chip.emul.msgs = (t, a, q, v) :: l) ∧
    (∃ (s : State) (n : Nat), s.chip.emulServed = true ∧ s.chip.emul.msgs = []) ∧
    (∃ (s : State) (a o : Nat) (data : List Byte), s.chip.emulServed = true ∧ s.chip.emulOwn = true ∧ (s.chip.st = .stopped ∨ s.chip.st = .running) ∧ a % 4 = 0 ∧ 4 ≤ data.length ∧ data.length % 16 = 0 ∧ s.chip.shareAt a data.length = some (.cal, o) ∧ o % 16 = 0 ∧ s.chip.relayoutDue = false) ∧
    (∃ (s : State) (a : Nat) (data : List Byte), s.chip.emulServed = true ∧ s.chip.emulOwn = true ∧ s.chip.st = .updating ∧ 4 ≤ data.length ∧ data.length % 4 = 0) ∧
    (∃ (s : State) (a : Nat), s.chip.emulServed = true) ∧
    (∃ (s : State), s.chip.emulServed = true) :=
  ⟨⟨dev .stopped (fun c => (c.put CLK_STRAPS.STRAP_HOST 1).put ID_PROFILE.PROFILE 0), 7, by decide +kernel⟩,
   ⟨dev .updating (fun c => (c.put CLK_STRAPS.STRAP_HOST 1).put ID_PROFILE.PROFILE 0), 7, by decide +kernel⟩,
   ⟨dev .stopped (fun c => (c.put CLK_STRAPS.STRAP_HOST 1).put ID_PROFILE.PROFILE 0), 0, by decide +kernel⟩,
   ⟨dev .stopped (fun c => (c.put CLK_STRAPS.STRAP_HOST 1).put ID_PROFILE.PROFILE 0), by decide +kernel⟩,
   ⟨dev .stopped (fun c => (((c.setEmul { c.emul with msgs := [(1, 2, 3, 4)] })).put CLK_STRAPS.STRAP_HOST 1).put ID_PROFILE.PROFILE 0), 9, 1, 2, 3, 4, [], by decide +kernel⟩,
   ⟨dev .stopped (fun c => (c.put CLK_STRAPS.STRAP_HOST 1).put ID_PROFILE.PROFILE 0), 2, by decide +kernel⟩,
   ⟨dev .stopped (fun c => ((c.put CLK_STRAPS.STRAP_HOST 1).put ID_PROFILE.PROFILE 0).put FST_LAYOUT_CAL.CAL_GRAN 1), allocBase 0, 0, List.replicate 16 0#8, by decide +kernel⟩,
   ⟨dev .updating (fun c => (c.put CLK_STRAPS.STRAP_HOST 1).put ID_PROFILE.PROFILE 0), 0, List.replicate 4 0#8, by decide +kernel⟩,
   ⟨dev .stopped (fun c => (c.put CLK_STRAPS.STRAP_HOST 1).put ID_PROFILE.PROFILE 0), 3, by decide +kernel⟩,
   ⟨dev .stopped (fun c => (c.put CLK_STRAPS.STRAP_HOST 1).put ID_PROFILE.PROFILE 0), by decide +kernel⟩⟩

theorem witness_heartbeatsAndTakeover :
    (∃ (s : State), s.chip.timed = true ∧ s.chip.power.portsUp = true ∧ s.chip.paired = true ∧ (s.chip.pairState ≠ 3 ∨ s.chip.pair.issued ≤ s.chip.pair.ackJournal)) ∧
    (∃ (s : State) (gseq : Nat) (body : List Byte), s.chip.pairHears s.nv gseq s.chip.epoch = true ∧ body.length = 14 ∧ fieldBE body 0 1 = 2 ∧ s.chip.pairState = 3) ∧
    (∃ (s : State) (gseq epoch : Nat) (body : List Byte), s.chip.pairHears s.nv gseq epoch = true ∧ body.length = 14 ∧ s.chip.epoch < epoch ∧ s.chip.pairState = 3 ∧ s.chip.st = .stopped) ∧
    (∃ (s : State), s.chip.timed = true ∧ s.chip.power.portsUp = true ∧ s.chip.paired = true ∧ s.chip.pairState ≠ 0 ∧ s.chip.pairState ≠ 5 ∧ s.chip.pair.misses + 1 < s.chip.hbMiss) ∧
    (∃ (s : State), s.chip.timed = true ∧ s.chip.power.portsUp = true ∧ s.chip.paired = true ∧ s.chip.pairState = 3 ∧ s.chip.pair.misses + 1 = s.chip.hbMiss) ∧
    (∃ (s : State), s.chip.timed = true ∧ s.chip.power.portsUp = true ∧ s.chip.paired = true ∧ s.chip.pairState = 2 ∧ s.chip.pair.misses + 1 = s.chip.hbMiss) ∧
    (∃ (s : State) (gseq epoch : Nat) (body : List Byte), s.chip.pairHears s.nv gseq epoch = true ∧ body.length = 14 ∧ s.chip.epoch ≤ epoch ∧ (fieldBE body 0 1 = 3 ∨ fieldBE body 0 1 = 4) ∧ s.chip.pairState = 1 ∧ s.chip.bit GNG_STATUS.IS_APEX = false) ∧
    (∃ (s : State), s.chip.timed = true ∧ s.chip.power.portsUp = true ∧ s.chip.paired = true ∧ s.chip.pairState = 1) :=
  ⟨⟨dev .stopped (inPair5 3), by decide +kernel⟩,
   ⟨dev .stopped (inPair5 3), 1, 2#8 :: List.replicate 13 0#8, by decide +kernel⟩,
   ⟨dev .stopped (inPair5 3), 1, 7, 2#8 :: List.replicate 13 0#8, by decide +kernel⟩,
   ⟨dev .stopped (inPair5 3), by decide +kernel⟩,
   ⟨dev .stopped (fun c => (inPair5 3 c).setPair { c.pair with misses := (inPair5 3 c).hbMiss - 1 }), by decide +kernel⟩,
   ⟨dev .stopped (fun c => (inPair5 2 c).setPair { c.pair with misses := (inPair5 2 c).hbMiss - 1 }), by decide +kernel⟩,
   ⟨dev .stopped (inPair5 1), 1, 7, 3#8 :: List.replicate 13 0#8, by decide +kernel⟩,
   ⟨dev .stopped (inPair5 1), by decide +kernel⟩⟩

theorem witness_snapshotsAndJournal :
    (∃ (s : State), s.chip.timed = true ∧ s.chip.power.portsUp = true ∧ s.chip.paired = true ∧ s.chip.directs = true ∧ s.chip.snapDue = true) ∧
    (∃ (s : State) (record : List Byte), s.chip.timed = true ∧ s.chip.power.portsUp = true ∧ s.chip.paired = true ∧ s.chip.directs = true ∧ s.chip.pair.journal.length < 1024) ∧
    (∃ (s : State) (gseq a b : Nat), s.chip.pairHears s.nv gseq s.chip.epoch = true ∧ s.chip.directs = true ∧ s.chip.pair.swap = .none ∧ a < 2 ^ 32 ∧ b < 2 ^ 32) ∧
    (∃ (s : State) (gseq seq : Nat) (data : List Byte), s.chip.pairHears s.nv gseq s.chip.epoch = true ∧ s.chip.pairState = 2 ∧ s.chip.pair.snapIn = none ∧ seq < 2 ^ 32 ∧ 0 < data.length ∧ data.length ≤ 1024) ∧
    (∃ (s : State) (gseq seq crc : Nat) (data : List Byte), s.chip.pairHears s.nv gseq s.chip.epoch = true ∧ s.chip.pairState = 2 ∧ s.chip.pair.snapIn = none ∧ seq < 2 ^ 32 ∧ crc < 2 ^ 32 ∧ crc ≠ crc32 (data.map (·.toNat)) ∧ data.length ≤ 1024) ∧
    (∃ (s : State) (gseq n : Nat) (record : List Byte), s.chip.pairHears s.nv gseq s.chip.epoch = true ∧ s.chip.pairState = 2 ∧ s.chip.pair.journal = [] ∧ s.chip.pair.base < n ∧ n < 2 ^ 32 ∧ record.length ≤ 1024) :=
  ⟨⟨dev .stopped (fun c => (inPair5 3 c).setPair { c.pair with sinceSnap := 1024 }), by decide +kernel⟩,
   ⟨dev .stopped (inPair5 3), [1#8], by decide +kernel⟩,
   ⟨dev .stopped (inPair5 3), 1, 7, 8, by decide +kernel⟩,
   ⟨dev .stopped (inPair5 2), 1, 7, [1#8], by decide +kernel⟩,
   ⟨dev .stopped (inPair5 2), 1, 7, 0, [1#8], by decide +kernel⟩,
   ⟨dev .stopped (inPair5 2), 1, 1, [1#8], by decide +kernel⟩⟩

theorem witness_swapsAndSubstitution :
    (∃ (s : State), (s.chip.st = .stopped ∨ s.chip.st = .running) ∧ s.chip.sel.txns = [] ∧ s.chip.swapReady = true ∧ s.chip.get RED_SNAP.SNAP_SEQ + 1 < 2 ^ 32) ∧
    (∃ (s : State), (s.chip.st = .stopped ∨ s.chip.st = .running) ∧ s.chip.sel.txns = [] ∧ s.chip.swapReady = false) ∧
    (∃ (s : State), s.chip.timed = true ∧ s.chip.power.portsUp = true ∧ s.chip.swapReady = true ∧ s.chip.get RED_ID.SWAP_EVERY ≠ 0 ∧ s.chip.pair.activeC + s.chip.get RED_ID.SWAP_EVERY * hourTicks ≤ s.chip.time.c.toNat) ∧
    (∃ (s : State) (gseq seq j : Nat), s.chip.pairHears s.nv gseq s.chip.epoch = true ∧ s.chip.pairState = 3 ∧ s.chip.pair.swap = .waiting seq ∧ seq < 2 ^ 32 ∧ j < 2 ^ 32 ∧ s.chip.pair.issued ≤ j) ∧
    (∃ (s : State) (seq : Nat), s.chip.timed = true ∧ s.chip.power.portsUp = true ∧ s.chip.pair.swap = .waiting seq) ∧
    (∃ (s : State) (gseq epoch : Nat), s.chip.pairHears s.nv gseq epoch = true ∧ s.chip.pairState = 2 ∧ s.chip.epoch < epoch) ∧
    (∃ (s : State), s.chip.timed = true ∧ s.chip.power.portsUp = true ∧ s.chip.holdsSubst = true ∧ s.chip.substEntries ≠ []) ∧
    (∃ (s : State) (id src gseq ep : Nat), s.chip.timed = true ∧ s.chip.power.portsUp = true ∧ s.chip.ingests = true ∧ (s.nv.keyAt (s.chip.get RED_ID.KEY_SLOT)).isSome = true ∧ s.chip.pair.announcers = [] ∧ id < 2 ^ 16 ∧ src < 2 ∧ gseq < 2 ^ 32 ∧ ep < 2 ^ 32 ∧ s.chip.epoch < ep ∧ s.chip.directs = false) ∧
    (∃ (s : State) (id src gseq old spare : Nat), s.chip.timed = true ∧ s.chip.power.portsUp = true ∧ s.chip.ingests = true ∧ (s.nv.keyAt (s.chip.get RED_ID.KEY_SLOT)).isSome = true ∧ s.chip.pair.announcers = [] ∧ id < 2 ^ 16 ∧ src < 2 ∧ gseq < 2 ^ 32 ∧ old < 2 ^ 16 ∧ 0 < spare ∧ spare < 2 ^ 16 ∧ nodeId s.chip = spare) ∧
    (∃ (s : State) (id src gseq spare ep : Nat), s.chip.timed = true ∧ s.chip.power.portsUp = true ∧ (s.chip.st = .stopped ∨ s.chip.st = .running) ∧ (s.nv.keyAt (s.chip.get RED_ID.KEY_SLOT)).isSome = true ∧ s.chip.pair.announcers = [] ∧ id < 2 ^ 16 ∧ src < 2 ∧ gseq < 2 ^ 32 ∧ spare < 2 ^ 16 ∧ nodeId s.chip ≠ spare ∧ 0 < nodeId s.chip ∧ s.chip.directs = false ∧ s.chip.epoch < ep ∧ ep < 2 ^ 32) ∧
    (∃ (s : State), s.chip.st = .fenced ∧ s.chip.sel.txns = []) :=
  ⟨⟨dev .stopped (fun c => (((inPair5 3 c).setPair { c.pair with peerState := 2 })).put RED_STATUS.PEER_UP 1), by decide +kernel⟩,
   ⟨dev .stopped (inPair5 3), by decide +kernel⟩,
   ⟨dev .stopped (fun c => ((((inPair5 3 (c.setTime { c.time with c := 2 ^ 50 })).setPair { c.pair with peerState := 2 })).put RED_STATUS.PEER_UP 1).put RED_ID.SWAP_EVERY 1), by decide +kernel⟩,
   ⟨dev .stopped (fun c => (inPair5 3 c).setPair { c.pair with swap := .waiting 7 }), 1, 7, 0, by decide +kernel⟩,
   ⟨dev .stopped (fun c => (inPair5 3 c).setPair { c.pair with swap := .waiting 7 }), 7, by decide +kernel⟩,
   ⟨dev .stopped (inPair5 2), 1, 7, by decide +kernel⟩,
   ⟨dev .stopped (fun c => ((inPair5 3 c)).put (RED_SUBSTi_W0.OLD_NODE 0) 4), by decide +kernel⟩,
   ⟨dev .stopped (fun c => c.put RED_ID.KEY_SLOT 0), 8, 1, 5, 4, by decide +kernel⟩,
   ⟨dev .stopped (fun c => (c.put RED_ID.KEY_SLOT 0).put ID_NODE.NODE_ID 77), 8, 1, 5, 44, 77, by decide +kernel⟩,
   ⟨dev .stopped (fun c => (c.put RED_ID.KEY_SLOT 0).put ID_NODE.NODE_ID 9), 8, 1, 5, 77, 4, by decide +kernel⟩,
   ⟨dev .fenced id, by decide +kernel⟩⟩

theorem witness_errorHandling :
    (∃ (s : State) (k : Fin 64) (d : Nat), s.chip.timed = true ∧ s.chip.unitFenced k.val = false ∧ s.chip.fencePending k.val = false ∧ s.chip.errs.slots = [none, none, none, none] ∧ s.chip.errs.waiting = [[], [], [], []]) ∧
    (∃ (s : State) (k : Fin 64) (d : Nat), s.chip.timed = true ∧ s.chip.unitFenced k.val = false) ∧
    (∃ (s : State) (code d : Nat) (k : Fin 64), s.chip.timed = true ∧ s.chip.unitFenced k.val = true) ∧
    (∃ (s : State) (k : Fin 64) (d : Nat) (j : ErrJob), s.chip.timed = true ∧ s.chip.unitFenced k.val = false ∧ s.chip.fencePending k.val = false ∧ s.chip.errs.slots = [some j, none, none, none] ∧ j.severity = 2 ∧ s.chip.errs.waiting = [[], [], [], []]) ∧
    (∃ (s : State) (k : Fin 64) (d : Nat) (j : ErrJob), s.chip.timed = true ∧ s.chip.unitFenced k.val = false ∧ s.chip.fencePending k.val = false ∧ s.chip.errs.slots = [some j, none, none, none] ∧ j.severity < 2 ∧ s.chip.errs.waiting = [[], [], [], []]) ∧
    (∃ (s : State) (k : Fin 64) (j : ErrJob), s.chip.timed = true ∧ s.chip.errs.slots = [some j, none, none, none] ∧ s.chip.errs.waiting = [[], [], [], []] ∧ j.code = 0x0104 ∧ j.unit = k.val ∧ (∀ i, i < 64 → s.chip.coreUnfenced i = true) ∧ 2 ≤ s.chip.get ERR_LIMITS.CLUSTER_LIMIT ∧ s.chip.laneFenced 0 = false ∧ s.chip.laneFenced 32 = false ∧ s.chip.reg ERR_FENCE_BLOCK.CLUSTER_FENCED.addr = 0#32) ∧
    (∃ (s : State) (k : Fin 64) (j : ErrJob), s.chip.timed = true ∧ s.chip.errs.slots = [some j, none, none, none] ∧ s.chip.errs.waiting = [[], [], [], []] ∧ j.unit = k.val ∧ s.chip.unitFenced (0x8000 + k.val / 4) = false) ∧
    (∃ (s : State) (l : Fin 4), s.chip.timed = true ∧ s.chip.errs.slots.getD l.val none = none) :=
  ⟨⟨dev .running id, 0, 0, by decide +kernel⟩,
   ⟨dev .running id, 0, 0, by decide +kernel⟩,
   ⟨dev .running (fun c => c.put (bit32 0 SCH_CORE_LIVE.CORE_LIVE) 0), 0x0104, 0, 0, by decide +kernel⟩,
   ⟨dev .running (fun c => c.setErrs { c.errs with slots := [some ⟨0x0104, 1, 0, 0, 2, 0, 0⟩, none, none, none] }), 0, 0, ⟨0x0104, 1, 0, 0, 2, 0, 0⟩, by decide +kernel⟩,
   ⟨dev .running (fun c => c.setErrs { c.errs with slots := [some ⟨0x0101, 0, 0, 0, 1, 0, 0⟩, none, none, none] }), 0, 0, ⟨0x0101, 0, 0, 0, 1, 0, 0⟩, by decide +kernel⟩,
   ⟨dev .running (fun c => c.setErrs { c.errs with slots := [some ⟨0x0104, 0, 0, 0, 2, 0, 0⟩, none, none, none] }), 0, ⟨0x0104, 0, 0, 0, 2, 0, 0⟩, by decide +kernel⟩,
   ⟨dev .running (fun c => c.setErrs { c.errs with slots := [some ⟨0x0104, 0, 0, 0, 2, 0, 0⟩, none, none, none] }), 0, ⟨0x0104, 0, 0, 0, 2, 0, 0⟩, by decide +kernel⟩,
   ⟨dev .running id, 0, by decide +kernel⟩⟩

theorem witness_errorLogAndTap :
    (∃ (s : State) (e : LogEntry) (l : List LogEntry), s.chip.writable = true ∧ s.chip.errs.log = e :: l ∧ (e.retained = true ∨ e.tick ≠ s.chip.time.c.toNat)) ∧
    (∃ (s : State), s.chip.writable = true ∧ s.chip.errs.log = []) ∧
    (∃ (s : State), (s.chip.st = .stopped ∨ s.chip.st = .running) ∧ s.chip.sel.txns = []) ∧
    (∃ (s : State) (tms tdi : Bool), s.chip.st ≠ .off ∧ s.chip.power.groupAGood = true ∧ s.tap.tck = false) ∧
    (∃ (s : State) (tms tdi : Bool), s.chip.st ≠ .off ∧ s.chip.power.groupAGood = true ∧ s.tap.tck = true) :=
  ⟨⟨dev .stopped (fun c => c.setErrs { c.errs with log := [⟨0, 0, false, false, false, .none, true, 0, 0, 0, ⟨0, 0, 0, false⟩, 0, 0⟩] }), ⟨0, 0, false, false, false, .none, true, 0, 0, 0, ⟨0, 0, 0, false⟩, 0, 0⟩, [], by decide +kernel⟩,
   ⟨dev .stopped id, by decide +kernel⟩,
   ⟨dev .stopped id, by decide +kernel⟩,
   ⟨dev .stopped id, true, true, by decide +kernel⟩,
   ⟨{ dev .stopped id with tap := { Tap.reset with tck := true } }, true, true, by decide +kernel⟩⟩

theorem witness_anEmptyQueueIsATick :
    (∃ s : State, s.pending = [] ∧ s.late = []) ∧
    (∃ (s : State) (i : Instr), s.pending = [] ∧ s.late = [i]) ∧
    (∃ (s : State) (i : Instr) (l : List Instr), s.pending = [] ∧ s.late = i :: l) :=
  ⟨⟨State.reset, by decide +kernel⟩,
   ⟨{ State.reset with late := [.hqStat] }, .hqStat, by decide +kernel⟩,
   ⟨{ State.reset with late := [.hqStat] }, .hqStat, [], by decide +kernel⟩⟩

theorem witness_everyCommandCompletes :
    (∃ (i : Instr) (s : State), s.turn i = false) ∧
    (∃ (i : Instr) (s : State), s.pending = [] ∧ s.late = []) :=
  ⟨⟨.rxFrame 0 ⟨1, 2, [], 64, true, false, false, none, false, 0, 0⟩ .other, { dev .stopped id with pending := [.ringBufferRelease 0 0] }, by decide +kernel⟩,
   ⟨.hqStat, State.reset, by decide +kernel⟩⟩

theorem witness_runOfAQuietChip :
    (∃ (s : State) (c : Chip), c.quiet = true) :=
  ⟨dev .stopped id, chipAt .stopped, by decide +kernel⟩

theorem witness_windowHoldsWhatIsStored :
    (∃ (s : State) (c : Chip) (a : Nat) (l : List Byte), c.quiet = true ∧ c.sramOps = [.store a l] ∧ c.get FST_LAYOUT_CAL.CAL_GRAN = s.chip.get FST_LAYOUT_CAL.CAL_GRAN ∧ (∀ k, k < l.length → isCal (s.chip.get FST_LAYOUT_CAL.CAL_GRAN) (a + k) = isCal (s.chip.get FST_LAYOUT_CAL.CAL_GRAN) a)) :=
  ⟨dev .stopped (fun c => c.put FST_LAYOUT_CAL.CAL_GRAN 1), ((chipAt .stopped).put FST_LAYOUT_CAL.CAL_GRAN 1).setSramOps [.store 0x1000000 [1#8]], 0x1000000, [1#8], by decide +kernel⟩

theorem witness_everyStepKeepsTheInvariant :
    (∃ (s t : State), s.inv = true ∧ step s = .next t) :=
  ⟨State.reset, State.reset.tick, by decide +kernel, rfl⟩

theorem witness_floorNeverFallsAndDecommissionedHasNoExit :
    (∃ (s t : State), step s = .next t) :=
  ⟨State.reset, State.reset.tick, rfl⟩

/-! Ill-formed terms: one for each check of `Instr.wf`. -/

def okPins : PortPins := ⟨0, false, false, true⟩
def okIp : IpHdr := ⟨1, 2, 3, 4, false⟩
def okHead : FrameHead := ⟨1, 2, [⟨5, 3⟩], 64, true, false, false, none, false, 0, 0⟩
def okRtp : RtpPkt := ⟨96, 1, 2, 3, true, [0#8]⟩
def okE131 : E131Pkt := ⟨7, 100, 1, 0, false, false, 0, 0, [], true⟩
def okSync : SyncMsg := ⟨0, 1, 2, 0, 0, 0, false, 0, 0⟩
def okAnn : PtpAnnounce := ⟨0, 1, 0, 128, 248, 0xFE, 0xFFFF, 128, 1, 0, 37, true⟩

theorem test_wf_accepts :
    (Instr.ping (ask 1 [])).wf = true ∧ (Instr.rxFrame 0 okHead (.rtp okIp okRtp)).wf = true ∧
    (Instr.rxFrame 0 okHead (.e131 okIp okE131)).wf = true ∧ (Instr.syncReceived okSync).wf = true ∧
    (Instr.announceReceivedPtp okAnn).wf = true := by decide

theorem test_wf_source :
    (Instr.ping { ask 1 [] with src := .net (2 ^ 128) 7 }).wf = false ∧
    (Instr.ping { ask 1 [] with src := .net 1 65536 }).wf = false ∧
    (Instr.ping { ask 1 [] with src := .gang 64 0 }).wf = false ∧
    (Instr.ping { ask 1 [] with src := .gang 0 (2 ^ 32) }).wf = false := by decide

theorem test_wf_cmd :
    (Instr.ping (ask 65536 [])).wf = false ∧ (Instr.ping { ask 1 [] with gang := 256 }).wf = false ∧
    (Instr.ping { ask 1 [] with tag := 65536 }).wf = false ∧ (Instr.ping { ask 1 [] with txn := 65536 }).wf = false ∧
    (Instr.ping { ask 1 [] with epoch := 2 ^ 32 }).wf = false ∧ (Instr.ping { ask 1 [] with seq := 2 ^ 32 }).wf = false ∧
    (Instr.ping { ask 1 [] with node := 65536 }).wf = false ∧ (Instr.ping { ask 1 [] with arg := 2 ^ 32 }).wf = false := by
  decide

theorem test_wf_payload : (Instr.write (ask 3 (List.replicate 8193 0#8))).wf = false := by
  simp [Instr.wf, Cmd.wf, ask]

theorem test_wf_sync :
    (Instr.syncReceived { okSync with master := 2 ^ 64 }).wf = false ∧
    (Instr.syncReceived { okSync with seq := 65536 }).wf = false ∧
    (Instr.syncReceived { okSync with frac10 := 13 }).wf = false := by decide

theorem test_wf_announce :
    (Instr.announceReceivedPtp { okAnn with sender := 2 ^ 64 }).wf = false ∧
    (Instr.announceReceivedPtp { okAnn with domain := 256 }).wf = false ∧
    (Instr.announceReceivedPtp { okAnn with priority1 := 256 }).wf = false ∧
    (Instr.announceReceivedPtp { okAnn with clockClass := 256 }).wf = false ∧
    (Instr.announceReceivedPtp { okAnn with accuracy := 256 }).wf = false ∧
    (Instr.announceReceivedPtp { okAnn with variance := 65536 }).wf = false ∧
    (Instr.announceReceivedPtp { okAnn with priority2 := 256 }).wf = false ∧
    (Instr.announceReceivedPtp { okAnn with gmId := 2 ^ 64 }).wf = false ∧
    (Instr.announceReceivedPtp { okAnn with stepsRemoved := 65536 }).wf = false ∧
    (Instr.announceReceivedPtp { okAnn with utcOffset := 65536 }).wf = false := by decide

theorem test_wf_frame :
    (Instr.rxFrame 0 { okHead with dst := 2 ^ 48 } .other).wf = false ∧
    (Instr.rxFrame 0 { okHead with src := 2 ^ 48 } .other).wf = false ∧
    (Instr.rxFrame 0 { okHead with tags := [⟨4096, 0⟩] } .other).wf = false ∧
    (Instr.rxFrame 0 { okHead with tags := [⟨1, 8⟩] } .other).wf = false ∧
    (Instr.rxFrame 0 { okHead with ptp := some ⟨.sync, 0, false, 13⟩ } .other).wf = false := by decide

theorem test_wf_ip :
    (Instr.rxFrame 0 okHead (.e131Sync { okIp with src := 2 ^ 128 } 1)).wf = false ∧
    (Instr.rxFrame 0 okHead (.e131Sync { okIp with dst := 2 ^ 128 } 1)).wf = false ∧
    (Instr.rxFrame 0 okHead (.e131Sync { okIp with sport := 65536 } 1)).wf = false ∧
    (Instr.rxFrame 0 okHead (.e131Sync { okIp with dport := 65536 } 1)).wf = false ∧
    (Instr.rxFrame 0 okHead (.e131Sync okIp 65536)).wf = false := by decide

theorem test_wf_rtp :
    (Instr.rxFrame 0 okHead (.rtp okIp { okRtp with payloadType := 128 })).wf = false ∧
    (Instr.rxFrame 0 okHead (.rtp okIp { okRtp with ssrc := 2 ^ 32 })).wf = false ∧
    (Instr.rxFrame 0 okHead (.rtp okIp { okRtp with seq := 2 ^ 32 })).wf = false ∧
    (Instr.rxFrame 0 okHead (.rtp okIp { okRtp with timestamp := 2 ^ 32 })).wf = false := by decide

theorem test_wf_e131 :
    (Instr.rxFrame 0 okHead (.e131 okIp { okE131 with cid := 2 ^ 128 })).wf = false ∧
    (Instr.rxFrame 0 okHead (.e131 okIp { okE131 with priority := 256 })).wf = false ∧
    (Instr.rxFrame 0 okHead (.e131 okIp { okE131 with univ := 65536 })).wf = false ∧
    (Instr.rxFrame 0 okHead (.e131 okIp { okE131 with seq := 256 })).wf = false ∧
    (Instr.rxFrame 0 okHead (.e131 okIp { okE131 with syncAddr := 65536 })).wf = false ∧
    (Instr.rxFrame 0 okHead (.e131 okIp { okE131 with startCode := 256 })).wf = false := by decide

/-- A list of bytes longer than its length field can say. -/
theorem test_wf_lengths (l : List Byte) (h : l.length = 65536) :
    (Instr.rxFrame 0 okHead (.luevevan okIp l)).wf = false ∧
    (Instr.rxFrame 0 okHead (.rtp okIp { okRtp with body := l })).wf = false ∧
    (Instr.rxFrame 0 okHead (.e131 okIp { okE131 with slots := l })).wf = false ∧
    (Instr.hqPut l).wf = false ∧ (Instr.dmxRxPacket 0 false false 0 l).wf = false ∧
    (Instr.rdmResponse 0 (.ack 1 1 l)).wf = false ∧ (Instr.rdmResponse 0 (.overflow l)).wf = false := by
  refine ⟨?_, ?_, ?_, ?_, ?_, ?_, ?_⟩ <;>
    simp [Instr.wf, RxBody.wf, RtpPkt.wf, E131Pkt.wf, RdmResp.wf, packetOk, fits, okRtp, h]

theorem test_wf_packets (l : List Byte) (h : l.length = 65536) :
    (Instr.selulPacket 0 okIp l).wf = false ∧ (Instr.pollReceived l).wf = false ∧ (Instr.statusReceived l).wf = false ∧
    (Instr.claimReceived l).wf = false ∧ (Instr.relayReceived 0 l true []).wf = false ∧
    (Instr.relayReplyReceived l).wf = false ∧ (Instr.signalReceived l).wf = false ∧ (Instr.ackReceived l).wf = false ∧
    (Instr.heartbeatReceived l).wf = false ∧ (Instr.snapPartReceived l).wf = false ∧
    (Instr.journalReceived l).wf = false ∧ (Instr.journalIssue l).wf = false ∧ (Instr.pairAckReceived l).wf = false ∧
    (Instr.swapReceived l).wf = false ∧ (Instr.announceReceived l).wf = false ∧ (Instr.blk 0 l).wf = false ∧
    (Instr.wakeMatch l true).wf = false := by
  refine ⟨?_, ?_, ?_, ?_, ?_, ?_, ?_, ?_, ?_, ?_, ?_, ?_, ?_, ?_, ?_, ?_, ?_⟩ <;> simp [Instr.wf, packetOk, fits, h]

theorem test_wf_lanes :
    (Instr.readbackDone 0 0 [⟨64, 0, 0⟩]).wf = false ∧ (Instr.calItemDone (.deskew [(64, 0)])).wf = false ∧
    (Instr.calItemDone (.rbDelay [(64, 0)])).wf = false ∧ (Instr.calItemDone (.adc 0 65536)).wf = false ∧
    (Instr.deskewStep 16 []).wf = false ∧ (Instr.deskewStep 0 [(64, 0)]).wf = false := by decide

theorem test_wf_rdm :
    (Instr.rdmResponse 0 (.ack (2 ^ 48) 1 [])).wf = false ∧ (Instr.rdmResponse 0 (.ack 1 65536 [])).wf = false ∧
    (Instr.rdmResponse 0 (.nack 65536)).wf = false ∧ (Instr.rdmResponse 0 (.timer 65536)).wf = false ∧
    (Instr.rdmResponse 0 (.found [2 ^ 48])).wf = false := by decide

theorem test_wf_subframes :
    (Instr.subframeEdge 0 32).wf = false ∧ (Instr.rowSlotStart 0 32 0).wf = false ∧
    (Instr.rowSlotStart 0 0 256).wf = false ∧ (Instr.stagingBufferFree 0 32).wf = false ∧
    (Instr.subframeRelease 0 32).wf = false ∧ (Instr.itemDeadline 0 32 false 0).wf = false ∧
    (Instr.itemDeadline 0 0 false 256).wf = false ∧ (Instr.detectionWindow 0 32 0).wf = false ∧
    (Instr.readbackWindow 0 32).wf = false ∧ (Instr.readbackDone 0 32 []).wf = false := by decide

theorem test_wf_time :
    (Instr.delayReqReceived 0 (2 ^ 64) 0 0).wf = false ∧ (Instr.delayReqReceived 0 0 65536 0).wf = false ∧
    (Instr.delayReqReceived 0 0 0 13).wf = false ∧ (Instr.pdelayExchange ⟨0, 65536, 0, 0, 0, 0, 0, false⟩).wf = false ∧
    (Instr.syncSend 0 13).wf = false ∧
    (Instr.fsyncInEdge true 13).wf = false ∧ (Instr.capEdge 0 true 13).wf = false ∧
    (Instr.delayReqSend 0 13).wf = false ∧ (Instr.foreignMasterAgeout 0 (2 ^ 64)).wf = false ∧
    (Instr.delayRespReceived 0 (2 ^ 64) 0 0 0).wf = false ∧ (Instr.delayRespReceived 0 0 65536 0 0).wf = false ∧
    (Instr.trigArm 0 (.time (2 ^ 32))).wf = false ∧ (Instr.trigArm 0 (.mode 4)).wf = false := by decide

theorem test_wf_pins :
    (Instr.resetRelease 0 [.v18, .v33, .v18] false).wf = false ∧ (Instr.linkUpSeen okPins 8).wf = false ∧
    (Instr.modChange okPins false 8).wf = false ∧ (Instr.sensorReadDone 0 (.value 65536)).wf = false ∧
    (Instr.ntcConversion 0 65536).wf = false ∧ (Instr.dmxRxPacket 0 false false 256 []).wf = false ∧
    (Instr.sacnSourceTimeout 0 (2 ^ 128)).wf = false ∧ (Instr.calTrigger 4).wf = false := by decide

theorem test_wf_numbers :
    (Instr.arpRequest 0 (2 ^ 128) 0).wf = false ∧ (Instr.arpRequest 0 0 (2 ^ 128)).wf = false ∧
    (Instr.mcQuery 0 ⟨true, 2 ^ 128⟩).wf = false ∧ (Instr.statsCounterRead (2 ^ 32)).wf = false ∧
    (Instr.registerWrite (2 ^ 32) 0 0).wf = false ∧ (Instr.txnDue 65536).wf = false ∧
    (Instr.txnTimeout 65536).wf = false ∧ (Instr.relayTimeout (2 ^ 32)).wf = false ∧
    (Instr.signalResend (2 ^ 32)).wf = false ∧ (Instr.wr 65536 []).wf = false ∧ (Instr.wr 0 [2 ^ 32]).wf = false ∧
    (Instr.rd 65536 1).wf = false ∧ (Instr.blk (2 ^ 32) []).wf = false ∧ (Instr.sel 256).wf = false ∧
    (Instr.errorDetected 65536 0 0).wf = false ∧ (Instr.errorDetected 0 65536 0).wf = false ∧
    (Instr.errorDetected 0 0 (2 ^ 32)).wf = false := by decide

/-! Worked examples of the manual, and one published test vector. -/

/-- FIPS 180-4's example: the SHA-256 of "abc". -/
theorem test_sha256_abc :
    sha256 [0x61#8, 0x62#8, 0x63#8] =
      [0xba#8, 0x78#8, 0x16#8, 0xbf#8, 0x8f#8, 0x01#8, 0xcf#8, 0xea#8, 0x41#8, 0x41#8, 0x40#8, 0xde#8, 0x5d#8, 0xae#8,
       0x22#8, 0x23#8, 0xb0#8, 0x03#8, 0x61#8, 0xa3#8, 0x96#8, 0x17#8, 0x7a#8, 0x9c#8, 0xb4#8, 0x10#8, 0xff#8, 0x61#8,
       0xf2#8, 0x00#8, 0x15#8, 0xad#8] := by decide +kernel

/-- R330's example: 1,365 from 10 kΩ with β of 3,435 K under 10 kΩ is code 705. -/
theorem test_ntc_example :
    ((((dev .stopped id).chip.put (CHN_NTCa_CFG0.NTC_BETA 0) 3435).ntcCode 0 1365 0)) = some 705 := by decide +kernel

/-- The fault list example: word 0 is 0x8386_40C5 and word 1 is 0x0104_30A1. -/
theorem test_fault_words_example :
    ((dev .stopped id).chip.setFaults [(9, ⟨5, 3, 100, false, true, 3, 161, 67, 1⟩)]).faultWords 9 =
      [0x838640C5, 0x010430A1] := by decide +kernel

/-- R498's example at 52.5 °C: 1,250 and 1,650 give 1,500, and taps 12 and 14 give 13. -/
theorem test_interpolation_example :
    let a : CalSet := ⟨640, 1250, 0, 0, 0, []⟩
    let b : CalSet := ⟨960, 1650, 0, 0, 0, []⟩
    interp a b 840 1250 1650 = 1500 ∧ interp a b 840 12 14 = 13 := by decide

/-- The dither example: 12,539 at 0.75 shows 2,352 in sub-frame 4 and 2,351 in the sub-frames beside it. -/
theorem test_dither_example :
    ditherCode 12539 24576 4 4 14 (2 * 65536 + 5) true = 2352 ∧
    ditherCode 12539 24576 3 4 14 (2 * 65536 + 5) true = 2351 ∧
    ditherCode 12539 24576 5 4 14 (2 * 65536 + 5) true = 2351 := by decide

/-- The gain example: 96 of 160 codes from 0x8000 to 0x828F is 33,161. -/
theorem test_gain_example :
    ((((((dev .stopped id).chip.put ⟨0x700E0, 0, 16⟩ 480).put ⟨0x700E0, 16, 16⟩ 640).put
      ⟨0x72000 + 0x40 * 17, 0, 16⟩ 0x8000).put ⟨0x72000 + 0x40 * 17 + 8, 0, 16⟩ 0x828F).interpGain 576 17 0) = 33161 := by
  decide +kernel

/-- The trim example: a first gate of 2,210,000 cycles moves COARSE down by 3. -/
theorem test_trim_example :
    (((dev .boot (fun c => (c.put CLK_COSC_TRIM.COARSE 20).startTrim)).chip.trimGate false 2210000).get
      CLK_COSC_TRIM.COARSE) = 17 := by decide +kernel

/-- The granules of the reference tile's shares with 65,536 pixels in a region: 256, 84 and 96. -/
theorem test_share_example :
    granules (16 * 65536) = 256 ∧ granules ((65536 * 3 * 14 + 7) / 8) = 84 ∧ granules (65536 * 3 * 2) = 96 := by decide

/-! Single steps. -/

/-- R505: a pin reset leaves Reset, whatever ran. -/
theorem test_pin_reset :
    (match step { dev .running id with pending := [.pinReset] } with
     | .next t => t.chip.st == .reset && t.pending.isEmpty
     | _ => false) = true := by decide +kernel

/-- R504: the loss of VDD_AON leaves Off. -/
theorem test_lost_always_on :
    (match step { dev .running id with pending := [.railLost .vddAon] } with
     | .next t => t.chip.st == .off
     | _ => false) = true := by decide +kernel

/-- R73: on an empty queue the count C of 1.25 ns ticks goes on by one. -/
theorem test_idle_tick :
    (match step (dev .stopped id) with | .next t => t.chip.time.c == (dev .stopped id).chip.time.c + 1 | _ => false) = true := by
  decide +kernel

end Sys2Proof.Tests
end

/-! SUPPORT. The references of the timebase (R37, R54 to R58): what taking a source does and leaves alone, when the
qualification of a source and the end of `REVERT_HOLD` move the timebase, and the statement on switching back. -/

namespace Sys2Proof.Machine

open Sys2Proof

variable {c d : Chip}

/-! Which source is in use, and the qualification bits of the ports. -/

theorem portSrc_ne_xtal (p : PortIx) : portSrc p ≠ .xtal := by revert p; decide

theorem Chip.activeSrc_congr (h : d.get CLK_STATUS.ACTIVE_SRC = c.get CLK_STATUS.ACTIVE_SRC) :
    d.activeSrc = c.activeSrc := by
  unfold Chip.activeSrc
  rw [h]

theorem Chip.activeSrc_of_code {s : ClkSrc} (h : c.get CLK_STATUS.ACTIVE_SRC = srcCode s) : c.activeSrc = some s := by
  unfold Chip.activeSrc
  rw [h]
  cases s <;> rfl

/-- `P0_QUAL` and `P1_QUAL` are bits 5 and 6 of `CLK_STATUS` (R72). -/
theorem portQual_place (p : PortIx) : (qualFld (portSrc p)).addr = 0x10004 ∧ 5 ≤ (qualFld (portSrc p)).lo ∧
    (qualFld (portSrc p)).lo + (qualFld (portSrc p)).width ≤ 7 := by revert p; decide

theorem Chip.get_putB_portQual (c : Chip) (p : PortIx) (b : Bool) {g : Fld}
    (hg : g.addr ≠ 0x10004 ∨ g.lo + g.width ≤ 5 ∨ 7 ≤ g.lo) :
    (c.putB (qualFld (portSrc p)) b).get g = c.get g := by
  obtain ⟨ha, hl, hh⟩ := portQual_place p
  exact Chip.get_put_other c _ _ (by omega) (by omega)

/-- Chips that differ in fewer registers differ in no more. -/
theorem Chip.sameRegsBut.more {ws vs : List Nat} (h : c.sameRegsBut d ws) (k : ws ⊆ vs) : c.sameRegsBut d vs :=
  fun a ha => h a (fun m => ha (k m))

/-! Taking a source (R37, R55, R58). -/

/-- The part of `selectSrc` that counts a switch: another source than the last one held (R58). -/
def Chip.noteSwitch (c : Chip) (s : ClkSrc) : Chip :=
  match c.clk.lastSrc with
  | some p =>
    if p = s then c
    else (c.latch CLK_EVENT.SRC_SWITCH).put CLK_EVENT.SWITCH_COUNT (min (c.get CLK_EVENT.SWITCH_COUNT + 1) 0xFFFF)
  | none => c

/-- The part of `selectSrc` that shows the source in `CLK_STATUS` (R72). -/
def Chip.showSrc (c : Chip) (s : ClkSrc) (holdover : Bool) : Chip :=
  (((c.put CLK_STATUS.ACTIVE_SRC (srcCode s)).putB CLK_STATUS.HOLDOVER holdover).putB CLK_STATUS.PLL_LOCK false).putB
    CLK_STATUS.WAIT_XTAL false

/-- Taking a source notes the switch, shows the source, and keeps its books in the clock unit. -/
theorem Chip.selectSrc_eq (c : Chip) (s : ClkSrc) :
    ∃ k, c.selectSrc s = ((c.noteSwitch s).showSrc s c.clk.lastSrc.isSome).setClk k := ⟨_, rfl⟩

theorem Chip.noteSwitch_only (c : Chip) (s : ClkSrc) : c.Only [.regs, .clk] (c.noteSwitch s) := by
  unfold Chip.noteSwitch
  split
  · exact .choice _ (.refl _ c) (.put (.latch (.refl _ c) _) _ _)
  · exact .refl _ c

theorem Chip.noteSwitch_regs (c : Chip) (s : ClkSrc) : c.sameRegsBut (c.noteSwitch s) [0x10004, 0x10008] := by
  unfold Chip.noteSwitch
  split
  · exact .choice _ (.refl _ c) (.put (.put (.refl _ c) _ _ (by decide)) _ _ (by decide))
  · exact .refl _ c

theorem Chip.noteSwitch_srcSwitch {a s : ClkSrc} (hl : c.clk.lastSrc = some a) (h : a ≠ s) :
    (c.noteSwitch s).get CLK_EVENT.SRC_SWITCH = 1 := by
  simp only [Chip.noteSwitch, hl, if_neg h]
  rw [Chip.get_put_other _ _ _ (by decide) (by decide), Chip.get_latch_self c _ (by decide) (by decide)]

theorem Chip.showSrc_only (c : Chip) (s : ClkSrc) (b : Bool) : c.Only [.regs, .clk] (c.showSrc s b) :=
  ((((Chip.Only.refl _ c).put _ _).putB _ _).putB _ _).putB _ _

theorem Chip.showSrc_regs (c : Chip) (s : ClkSrc) (b : Bool) : c.sameRegsBut (c.showSrc s b) [0x10004] :=
  ((((Chip.sameRegsBut.refl _ c).put _ _ (by decide)).put _ _ (by decide)).put _ _ (by decide)).put _ _ (by decide)

theorem Chip.showSrc_activeSrc (c : Chip) (s : ClkSrc) (b : Bool) : (c.showSrc s b).activeSrc = some s := by
  apply Chip.activeSrc_of_code
  unfold Chip.showSrc Chip.putB
  iterate 3 rw [Chip.get_put_other _ _ _ (by decide) (by decide)]
  rw [Chip.get_put_self _ _ _ (by decide)]
  cases s <;> rfl

theorem Chip.showSrc_pllLock (c : Chip) (s : ClkSrc) (b : Bool) : (c.showSrc s b).get CLK_STATUS.PLL_LOCK = 0 := by
  unfold Chip.showSrc
  rw [Chip.putB, Chip.get_put_other _ _ _ (by decide) (by decide), Chip.get_putB_self _ _ _ (by decide) (by decide)]
  rfl

theorem Chip.selectSrc_only (c : Chip) (s : ClkSrc) : c.Only [.regs, .clk] (c.selectSrc s) := by
  obtain ⟨k, hk⟩ := c.selectSrc_eq s
  rw [hk]
  exact ((c.noteSwitch_only s).trans (Chip.showSrc_only ..)).setClk k

theorem Chip.selectSrc_regs (c : Chip) (s : ClkSrc) : c.sameRegsBut (c.selectSrc s) [0x10004, 0x10008] := by
  obtain ⟨k, hk⟩ := c.selectSrc_eq s
  rw [hk]
  have shown := ((c.noteSwitch s).showSrc_regs s c.clk.lastSrc.isSome).more (vs := [0x10004, 0x10008]) (by decide)
  exact ((c.noteSwitch_regs s).trans shown).same (Chip.setClk_regs _ k)

theorem Chip.selectSrc_activeSrc (c : Chip) (s : ClkSrc) : (c.selectSrc s).activeSrc = some s := by
  obtain ⟨k, hk⟩ := c.selectSrc_eq s
  rw [hk, Chip.activeSrc_congr (Chip.setClk_get _ k _), Chip.showSrc_activeSrc]

theorem Chip.selectSrc_pllLock (c : Chip) (s : ClkSrc) : (c.selectSrc s).get CLK_STATUS.PLL_LOCK = 0 := by
  obtain ⟨k, hk⟩ := c.selectSrc_eq s
  rw [hk, Chip.setClk_get, Chip.showSrc_pllLock]

/-- Taking another source than the last one held latches `SRC_SWITCH` (R58). -/
theorem Chip.selectSrc_srcSwitch {a s : ClkSrc} (hl : c.clk.lastSrc = some a) (h : a ≠ s) :
    (c.selectSrc s).get CLK_EVENT.SRC_SWITCH = 1 := by
  obtain ⟨k, hk⟩ := c.selectSrc_eq s
  rw [hk, Chip.setClk_get, (Chip.showSrc_regs _ s _).get _ (by decide), Chip.noteSwitch_srcSwitch hl h]

/-! The end of `REVERT_HOLD`, and qualification (R54, R56). -/

theorem Chip.candidates_auto (h : c.get CLK_CTRL.SRC_MODE = 0) : c.candidates = [portSrc c.upstream, .xtal] := by
  simp only [Chip.candidates, h]

theorem Chip.bestSrc_auto (h : c.get CLK_CTRL.SRC_MODE = 0) (hq : c.qualified (portSrc c.upstream) = true) :
    c.bestSrc = some (portSrc c.upstream) := by
  rw [Chip.bestSrc, Chip.candidates_auto h, List.find?_cons_of_pos hq]

theorem prefers_port_xtal (p : PortIx) : prefers [portSrc p, .xtal] (portSrc p) .xtal = true := by revert p; decide

/-- With `REVERTIVE` at 1 the timebase goes from the crystal to the qualified recovered clock of the upstream port. -/
theorem Chip.revert_to_upstream (ha : c.activeSrc = some .xtal) (hm : c.get CLK_CTRL.SRC_MODE = 0)
    (hr : c.get CLK_CTRL.REVERTIVE = 1) (hq : c.qualified (portSrc c.upstream) = true) :
    c.revert = c.selectSrc (portSrc c.upstream) := by
  simp [Chip.revert, ha, Chip.bestSrc_auto hm hq, Chip.candidates_auto hm, prefers_port_xtal, hm, Chip.bit, hr]

/-- With `REVERTIVE` at 0 and no source forced, the end of `REVERT_HOLD` changes nothing, whatever is in use. -/
theorem Chip.revert_without_revertive (hm : c.get CLK_CTRL.SRC_MODE = 0) (hr : c.get CLK_CTRL.REVERTIVE = 0) :
    c.revert = c := by
  unfold Chip.revert
  split
  · simp [hm, Chip.bit, hr]
  · rfl

/-- Outside a `WAIT_XTAL` and a new mode, a reference in use stays when another source qualifies. -/
theorem Chip.afterQual_stays {a : ClkSrc} (s : ClkSrc) (hw : c.get CLK_STATUS.WAIT_XTAL = 0) (ha : c.activeSrc = some a)
    (hf : c.clk.modeFresh = false) : c.afterQual s = c := by
  simp [Chip.afterQual, Chip.bit, hw, ha, hf]

/-- Outside a `WAIT_XTAL` and a new mode, a recovered clock that qualifies only has its bit set. -/
theorem Chip.recoveredQualified_stays {a : ClkSrc} (p : PortIx) (hx : c.qualified .xtal = true)
    (hu : c.power.portsUp = true) (hq : c.qualified (portSrc p) = false) (hw : c.get CLK_STATUS.WAIT_XTAL = 0)
    (ha : c.activeSrc = some a) (hf : c.clk.modeFresh = false) :
    c.recoveredQualified p = c.putB (qualFld (portSrc p)) true := by
  have active : (c.putB (qualFld (portSrc p)) true).activeSrc = some a :=
    (Chip.activeSrc_congr (c.get_putB_portQual p true (by decide))).trans ha
  have wait : (c.putB (qualFld (portSrc p)) true).get CLK_STATUS.WAIT_XTAL = 0 :=
    (c.get_putB_portQual p true (by decide)).trans hw
  rw [Chip.recoveredQualified, hx, hu, hq]
  exact Chip.afterQual_stays _ wait active hf

/-- Settles O7: with `REVERTIVE` at 1 the end of `REVERT_HOLD` is the taking of the upstream port's clock, with 0 it is
nothing, and a qualification outside a new mode sets the qualification bit alone. -/
theorem reverting : Obligations.Reverting := by
  refine ⟨fun s hs ha hl hm hr hq => ?_, fun s hs hm hr => ?_, fun s p hs hx hu hq hw ha _ hf => ?_⟩
  · refine ends_when _ Chip.revert rfl hs ?_
    rw [Chip.revert_to_upstream ha hm hr hq]
    exact ⟨Chip.selectSrc_activeSrc .., Chip.selectSrc_srcSwitch hl (portSrc_ne_xtal _).symm, Chip.selectSrc_pllLock ..,
      Chip.selectSrc_only .., Chip.selectSrc_regs _ _⟩
  · exact ends_when _ Chip.revert rfl hs (Chip.revert_without_revertive hm hr)
  · refine ends_when _ (·.recoveredQualified p) rfl hs ?_
    rw [Chip.recoveredQualified_stays p hx hu hq hw ha hf]
    exact ⟨(Chip.activeSrc_congr (Chip.get_putB_portQual _ p true (by decide))).trans ha,
      (Chip.Only.refl _ _).putB _ _, (Chip.sameRegsBut.refl _ _).put _ _ (by simp [portQual_place p])⟩

end Sys2Proof.Machine

/-! SUPPORT. FSYNC_IN and the load of the time (R99, R107, R108, R110, R114, R116): what the loss of display, a change of
validity, a new servo state and a step of the time do and leave alone, and the statement on the two commands. -/

namespace Sys2Proof.Machine

open Sys2Proof

variable {c d e : Chip} {l : List Part} {ws : List Nat}

/-! Frames of parts and registers together. -/

/-- The chip `d` is the chip `c` but for the parts in `l`, and of the registers but for those at the addresses `ws`. -/
structure Chip.Within (l : List Part) (ws : List Nat) (c d : Chip) : Prop where
  parts : c.Only l d
  regs : c.sameRegsBut d ws

theorem Chip.Within.refl (l : List Part) (ws : List Nat) (c : Chip) : c.Within l ws c :=
  ⟨.refl l c, .refl ws c⟩

theorem Chip.Within.trans (h : c.Within l ws d) (k : d.Within l ws e) : c.Within l ws e :=
  ⟨h.parts.trans k.parts, h.regs.trans k.regs⟩

theorem Chip.Within.put (h : c.Within l ws d) (f : Fld) (v : Nat) (p : Part.regs ∈ l := by decide)
    (r : f.addr ∈ ws := by decide) : c.Within l ws (d.put f v) := ⟨h.parts.put f v p, h.regs.put f v r⟩

/-- An update that leaves the registers alone. -/
theorem Chip.Within.part (h : c.Within l ws d) (k : d.Only l e) (r : e.regs = d.regs) : c.Within l ws e :=
  ⟨h.parts.trans k, h.regs.same r⟩

theorem Chip.Within.choice (p : Prop) [Decidable p] (h : c.Within l ws d) (k : c.Within l ws e) :
    c.Within l ws (if p then d else e) := by split <;> assumption

theorem Chip.Within.fold {α : Type} (f : Chip → α → Chip) (h : ∀ c x, Chip.Within l ws c (f c x)) (xs : List α)
    (c : Chip) : c.Within l ws (xs.foldl f c) := by
  induction xs generalizing c with
  | nil => exact .refl l ws c
  | cons x xs ih => exact (h c x).trans (ih (f c x))

/-! The loss of display (R235, R304). -/

/-- The parts that a change of the display and the cancel of items may change. -/
def blankParts : List Part := .sched :: displayParts

/-- The registers that they may write: the engines' states, the flags and counts of items, trace and chains, and what
an event writes. -/
def blankRegs : List Nat := [0x80044, 0x88044, 0x90044, 0x60008, 0x60014, 0x60018, 0x60034] ++ eventRegs

theorem Chip.event_within (c : Chip) (type prio cause unit argA argB value : Nat) :
    c.Within blankParts blankRegs (c.event type prio cause unit argA argB value) :=
  have regs : c.sameRegsBut (c.event type prio cause unit argA argB value) eventRegs :=
    c.event_regs type prio cause unit argA argB value
  ⟨(Chip.event_only ..).more (by decide), regs.more (by decide)⟩

/-- A flag that raises an event. -/
theorem Chip.raise_within (c : Chip) (f : Fld) (k : Chip → Chip)
    (hk : ∀ d : Chip, d.Within blankParts blankRegs (k d)) (r : f.addr ∈ blankRegs) :
    c.Within blankParts blankRegs (c.raise f k) :=
  .choice _ (.refl _ _ c) ((Chip.Within.put (.refl _ _ c) f 1 (by decide) r).trans (hk _))

theorem Chip.skipDetection_within (c : Chip) : c.Within blankParts blankRegs c.skipDetection :=
  (Chip.Within.part (.refl _ _ c) (.bump (.refl _ c) _ 1) rfl).trans
    (Chip.raise_within _ _ _ (fun _ => Chip.event_within ..) (by decide))

/-- The engines take another state, and show it. -/
theorem Chip.setScan_showEngine_within (c : Chip) (x : Scan) :
    c.Within blankParts blankRegs (c.setScan x).showEngine :=
  ((Chip.Within.part (.refl _ _ c) (.setScan (.refl _ c) x) rfl).put _ _).put _ _

theorem Chip.setDisplay_within (c : Chip) (d : Display) : c.Within blankParts blankRegs (c.setDisplay d) := by
  unfold Chip.setDisplay
  exact .choice _ (c.setScan_showEngine_within _)
    ((Chip.Within.fold _ (fun c _ => c.skipDetection_within) _ c).trans (Chip.setScan_showEngine_within _ _))

theorem Chip.trace_within (c : Chip) (i : TraceInfo) : c.Within blankParts blankRegs (c.trace i) := by
  have frozen (c : Chip) : c.Within blankParts blankRegs
      ((c.latch SCH_TRACE_STATUS.TR_FROZEN).raiseSched SCH_EVENT.TRACE_FROZEN 5) :=
    (Chip.Within.put (.refl _ _ c) _ 1).trans (Chip.raise_within _ _ _ (fun _ => Chip.event_within ..) (by decide))
  have wrapped (p : Prop) [Decidable p] (x : Sched) (n : Nat) : c.Within blankParts blankRegs
      (((if p then c.latch SCH_TRACE_STATUS.TR_WRAPPED else c).setSched x).put SCH_TRACE_STATUS.TR_COUNT n) :=
    (Chip.Within.part (.choice p (.put (.refl _ _ c) _ 1) (.refl _ _ c)) (.setSched (.refl _ _) x) rfl).put _ n
  unfold Chip.trace
  exact .choice _ (.refl _ _ c) (.choice _ (.refl _ _ c)
    (.choice _ ((wrapped _ _ _).trans (frozen _)) (wrapped _ _ _)))

theorem Chip.setItems_within (c : Chip) (is : List Item) : c.Within blankParts blankRegs (c.setItems is) := by
  unfold Chip.setItems
  dsimp only
  exact .put (.put (.part (.refl _ _ c) (.setSched (.refl _ c) _) (Chip.setSched_regs _ _)) _ _) _ _

theorem Chip.cancelItem_within (c : Chip) (i : Item) (reason cause : Nat) :
    c.Within blankParts blankRegs (c.cancelItem i reason cause) := by
  have traced : c.Within blankParts blankRegs
      ((if reason = 3 then c else c.bump (schCnt 0x08) 1).traceItem 5 i 0x3F reason cause) :=
    (Chip.Within.choice _ (.refl _ _ c) (.part (.refl _ _ c) (.bump (.refl _ c) _ 1) rfl)).trans
      (Chip.trace_within _ _)
  unfold Chip.cancelItem
  dsimp only
  split
  · exact traced.trans (Chip.setItems_within _ _)
  · exact traced.trans (Chip.setItems_within _ _)

theorem Chip.cancelLoop_within (n : Nat) (c : Chip) (work : List (Nat × Nat × Nat)) :
    c.Within blankParts blankRegs (c.cancelLoop n work) := by
  induction n generalizing c work with
  | zero => exact .refl _ _ c
  | succ n ih =>
    cases work with
    | nil => exact .refl _ _ c
    | cons w work =>
      obtain ⟨slot, reason, cause⟩ := w
      unfold Chip.cancelLoop
      split
      · exact ih c work
      · exact .choice _ (ih c work) ((c.cancelItem_within _ reason cause).trans (ih _ _))

theorem Chip.loseDisplay_within (c : Chip) : c.Within blankParts blankRegs c.loseDisplay :=
  (c.setDisplay_within .blank).trans (Chip.cancelLoop_within _ _ _)

/-! Validity and the state of the servo (R98, R100). -/

theorem Chip.setTime_self (d : Chip) : d.setTime d.time = d := rfl

/-- The triggers' outputs go idle and the books on frames are dropped in one update of the time unit (R100, R113). -/
theorem Chip.idleTrigs_dropFrames (d : Chip) :
    d.idleTrigs.setTime { d.idleTrigs.time with lastFrame := none, freezeDone := false } =
      d.setTime { d.time with trigs := d.time.trigs.map (fun t => { t with asserted := false }), lastFrame := none,
                              freezeDone := false } := rfl

/-- What a change of validity can do: nothing, or `TIME_VALID` changes, the display with it, and of the time unit the
triggers' outputs and the books on frames. -/
theorem Chip.revalidate_cases (c : Chip) : c.revalidate = c ∨
    ∃ b d tr lf fd, (c.putB TIM_STATUS.TIME_VALID b).Within blankParts blankRegs d ∧
      c.revalidate = d.setTime { d.time with trigs := tr, lastFrame := lf, freezeDone := fd } := by
  unfold Chip.revalidate
  dsimp only
  split
  · exact .inl rfl
  · right
    split
    · have shown : (c.putB TIM_STATUS.TIME_VALID true).Within blankParts blankRegs
          (if (c.putB TIM_STATUS.TIME_VALID true).displays then (c.putB TIM_STATUS.TIME_VALID true).setDisplay .waitLock
            else c.putB TIM_STATUS.TIME_VALID true) := .choice _ (Chip.setDisplay_within _ _) (.refl _ _ _)
      exact ⟨true, _, _, _, _, shown, (Chip.setTime_self _).symm⟩
    · exact ⟨false, _, _, none, false, Chip.loseDisplay_within _, Chip.idleTrigs_dropFrames _⟩

/-- A change of validity leaves the rest of the time unit alone. -/
theorem Chip.revalidate_time (c : Chip) : ∃ tr lf fd,
    c.revalidate.time = { c.time with trigs := tr, lastFrame := lf, freezeDone := fd } := by
  obtain h | ⟨b, d, tr, lf, fd, hd, h⟩ := c.revalidate_cases
  · exact ⟨_, _, _, by rw [h]⟩
  · have kept : d.time = c.time := hd.parts.time.resolve_left (by decide)
    exact ⟨tr, lf, fd, by rw [h, Chip.setTime_time, kept]⟩

/-- A change of validity leaves every field alone but `TIME_VALID` and what the display writes. -/
theorem Chip.revalidate_get (c : Chip) (f : Fld) (hb : f.addr ∉ blankRegs)
    (hv : f.addr ≠ 0x20004 ∨ f.lo + f.width ≤ 3 ∨ 4 ≤ f.lo) : c.revalidate.get f = c.get f := by
  obtain h | ⟨b, d, tr, lf, fd, hd, h⟩ := c.revalidate_cases
  · rw [h]
  · rw [h, Chip.setTime_get, hd.regs.get f hb]
    exact Chip.get_put_other c _ _ (by decide) hv

/-- The part of `setServo` that ends a `HOLDOVER` (R98, R101). -/
def Chip.leaveHoldover (c : Chip) (x : Servo) : Chip :=
  if c.time.servo = .holdover ∧ x ≠ .holdover then
    let d := c.put TIM_HOLD_TIME.HOLD_TIME c.holdMs
    d.setTime { d.time with holdStart := none, holdInvalid := false }
  else c

/-- A new servo state ends a `HOLDOVER`, is entered and shown, and may change validity. -/
theorem Chip.setServo_eq (c : Chip) (x : Servo) : c.setServo x =
    (((c.leaveHoldover x).setTime { (c.leaveHoldover x).time with servo := x, lockCount := 0, bigCount := 0 }).put
      TIM_STATUS.SERVO_STATE (servoCode x)).revalidate := rfl

theorem Chip.leaveHoldover_time (c : Chip) (x : Servo) :
    ∃ hs hi, (c.leaveHoldover x).time = { c.time with holdStart := hs, holdInvalid := hi } := by
  unfold Chip.leaveHoldover
  split
  · exact ⟨none, false, by rw [Chip.setTime_time, Chip.put_time]⟩
  · exact ⟨_, _, rfl⟩

theorem Chip.leaveHoldover_regs (c : Chip) (x : Servo) : c.sameRegsBut (c.leaveHoldover x) [0x20014] :=
  .choice _ (.same (.put (.refl _ c) TIM_HOLD_TIME.HOLD_TIME _ (by decide)) (Chip.setTime_regs _ _)) (.refl _ c)

/-- What a new servo state changes of the time unit. -/
theorem Chip.setServo_time (c : Chip) (x : Servo) : ∃ hs hi tr lf fd, (c.setServo x).time =
    { c.time with servo := x, lockCount := 0, bigCount := 0, holdStart := hs, holdInvalid := hi, trigs := tr,
                  lastFrame := lf, freezeDone := fd } := by
  obtain ⟨hs, hi, left⟩ := c.leaveHoldover_time x
  rw [Chip.setServo_eq]
  obtain ⟨tr, lf, fd, valid⟩ := Chip.revalidate_time _
  exact ⟨hs, hi, tr, lf, fd, by rw [valid, Chip.put_time, Chip.setTime_time, left]⟩

theorem Chip.setServo_servo (c : Chip) (x : Servo) : (c.setServo x).time.servo = x := by
  obtain ⟨_, _, _, _, _, h⟩ := c.setServo_time x
  rw [h]

theorem Chip.setServo_accepted (c : Chip) (x : Servo) : (c.setServo x).time.accepted = c.time.accepted := by
  obtain ⟨_, _, _, _, _, h⟩ := c.setServo_time x
  rw [h]

theorem Chip.setServo_fsMissed (c : Chip) (x : Servo) : (c.setServo x).time.fsMissed = c.time.fsMissed := by
  obtain ⟨_, _, _, _, _, h⟩ := c.setServo_time x
  rw [h]

/-- `SERVO_STATE` shows the state entered. -/
theorem Chip.setServo_state (c : Chip) (x : Servo) : (c.setServo x).get TIM_STATUS.SERVO_STATE = servoCode x := by
  rw [Chip.setServo_eq, Chip.revalidate_get _ _ (by decide) (by decide), Chip.get_put_self _ _ _ (by decide)]
  cases x <;> rfl

/-- A new servo state leaves every field alone but those of `TIM_STATUS`, `HOLD_TIME` and what the display writes. -/
theorem Chip.setServo_get (c : Chip) (x : Servo) (f : Fld) (hb : f.addr ∉ blankRegs) (hs : f.addr ≠ 0x20004)
    (hh : f.addr ≠ 0x20014) : (c.setServo x).get f = c.get f := by
  rw [Chip.setServo_eq, Chip.revalidate_get _ f hb (.inl hs), Chip.get_put_ne _ _ _ hs, Chip.setTime_get,
    (c.leaveHoldover_regs x).get f (by simpa using hh)]

/-! A step of the time (R99, R114). -/

/-- The part of `stepTime` before the triggers: the time moves by `x` and the accepted samples are cleared. -/
def Chip.jumpTime (c : Chip) (x : Int) : Chip :=
  (c.setTime { c.time with base := c.now + x, cb := c.time.c.toNat, accepted := [], lastFrame := none,
                           freezeDone := false }).latch TIM_EVENT.STEP

theorem Chip.stepTrig_unarmed (old : Int) (n : Nat) (h : (c.trig n).target = none) : c.stepTrig old n = c := by
  unfold Chip.stepTrig
  rw [h]

/-- With no trigger armed, a step is the jump of the time alone. -/
theorem Chip.stepTime_unarmed (x : Int) (h : ∀ n, n < 4 → (c.trig n).target = none) :
    c.stepTime x = c.jumpTime x := by
  have idle (n : Nat) (hn : n < 4) : (c.jumpTime x).stepTrig c.now n = c.jumpTime x :=
    Chip.stepTrig_unarmed _ n (h n hn)
  change [0, 1, 2, 3].foldl (Chip.stepTrig c.now) (c.jumpTime x) = c.jumpTime x
  simp only [List.foldl_cons, List.foldl_nil, idle 0 (by decide), idle 1 (by decide), idle 2 (by decide),
    idle 3 (by decide)]

/-- At the instant that B is set to, the time is B. -/
theorem Time.now_at_base (t : Time) (h : t.c.toNat = t.cb) : t.now 0 = t.base := by simp [Time.now, h]

theorem Chip.now_congr (h : d.time = c.time) : d.now = c.now := by
  unfold Chip.now
  rw [h]

theorem Chip.jumpTime_now (c : Chip) (x : Int) : (c.jumpTime x).now = c.now + x := Time.now_at_base _ rfl

theorem Chip.jumpTime_step (c : Chip) (x : Int) : (c.jumpTime x).get TIM_EVENT.STEP = 1 :=
  Chip.get_latch_self _ _ (by decide) (by decide)

theorem Chip.jumpTime_within (c : Chip) (x : Int) : c.Within [.regs, .time] [0x20008] (c.jumpTime x) := by
  unfold Chip.jumpTime Chip.latch
  exact .put (.part (.refl _ _ c) (.setTime (.refl _ c) _) (Chip.setTime_regs _ _)) _ _

/-! FSYNC_IN (R107, R108, R110). -/

/-- The time of an edge on FSYNC_IN, `FS_DELAY` taken into account. -/
def Chip.fsyncAt (c : Chip) (frac10 : Nat) : Int := c.time.now frac10 + c.getS TIM_FSYNC_DELAY.FS_DELAY * nsU

/-- The number of the frame boundary nearest to an edge on FSYNC_IN. -/
def Chip.fsyncBoundary (c : Chip) (frac10 : Nat) : Int :=
  let n := gridN c.period c.gridOffset (c.fsyncAt frac10)
  if c.fsyncAt frac10 - c.boundary n ≤ c.boundary (n + 1) - c.fsyncAt frac10 then n else n + 1

/-- How far an edge on FSYNC_IN lies after the boundary nearest to it. -/
def Chip.fsyncOff (c : Chip) (frac10 : Nat) : Int := c.fsyncAt frac10 - c.boundary (c.fsyncBoundary frac10)

/-- The offset of an edge is the smaller one of those to the boundaries around it. -/
theorem Chip.fsyncOff_eq (c : Chip) (frac10 : Nat) : c.fsyncOff frac10 =
    let n := gridN c.period c.gridOffset (c.fsyncAt frac10)
    let lo := c.fsyncAt frac10 - c.boundary n
    let hi := c.fsyncAt frac10 - c.boundary (n + 1)
    if lo ≤ -hi then lo else hi := by
  simp only [Chip.fsyncOff, Chip.fsyncBoundary, Int.neg_sub]
  split <;> rfl

/-- An edge is reported in `FS_ERROR`, in 0.1 ns. -/
def Chip.reportFsync (c : Chip) (frac10 : Nat) : Chip :=
  c.putS TIM_FSYNC_ERROR.FS_ERROR (c.fsyncOff frac10 * 10 / 65536)

theorem satSigned_lt {w : Nat} (v : Int) (hw : 0 < w) : satSigned w v < 2 ^ w := by
  have half : 2 ^ (w - 1) < 2 ^ w := Nat.pow_lt_pow_right (by decide) (by omega)
  unfold satSigned
  split
  · exact half
  · split
    · exact Nat.lt_of_le_of_lt (Nat.sub_le _ _) half
    · have pos : (0 : Int) < 2 ^ w := Int.pow_pos (by decide)
      rw [Int.toNat_lt (Int.emod_nonneg v (Int.ne_of_gt pos))]
      exact_mod_cast Int.emod_lt_of_pos v pos

/-- A signed field reads what was put into it, held at the ends of its range. -/
theorem Chip.get_putS_self (c : Chip) (f : Fld) (v : Int) (hf : f.lo + f.width ≤ 32) (hw : 0 < f.width) :
    (c.putS f v).get f = satSigned f.width v := by
  rw [Chip.putS, Chip.get_put_self c f _ hf, Nat.mod_eq_of_lt (satSigned_lt v hw)]

/-- The report shows the offset in `FS_ERROR`. -/
theorem Chip.reportFsync_error (c : Chip) (frac10 : Nat) :
    (c.reportFsync frac10).get TIM_FSYNC_ERROR.FS_ERROR = satSigned 32 (c.fsyncOff frac10 * 10 / 65536) :=
  Chip.get_putS_self c _ _ (by decide) (by decide)

theorem Chip.reportFsync_within (c : Chip) (frac10 : Nat) : c.Within [.regs] [0x20088] (c.reportFsync frac10) := by
  unfold Chip.reportFsync Chip.putS
  exact .put (.refl _ _ c) _ _

theorem Chip.reportFsync_time (c : Chip) (frac10 : Nat) : (c.reportFsync frac10).time = c.time := Chip.putS_time ..

/-- An edge of the polarity that `FS_EDGE` does not select does nothing. -/
theorem Chip.fsyncEdge_ignored {rising : Bool} (frac10 : Nat) (h : c.bit TIM_FSYNC.FS_EDGE = rising) :
    c.fsyncEdge rising frac10 = c := if_pos h.symm

/-- With another time source an active edge is only reported. -/
theorem Chip.fsyncEdge_reported {rising : Bool} (frac10 : Nat) (h : c.bit TIM_FSYNC.FS_EDGE = !rising)
    (hs : c.get TIM_CTRL.TIME_SRC ≠ 1) : c.fsyncEdge rising frac10 = c.reportFsync frac10 := by
  have active : ¬ rising = c.bit TIM_FSYNC.FS_EDGE := by simp [h]
  have source : (c.reportFsync frac10).get TIM_CTRL.TIME_SRC ≠ 1 := by
    rwa [(c.reportFsync_within frac10).regs.get _ (by decide)]
  unfold Chip.fsyncEdge
  rw [if_neg active]
  exact if_pos source

/-- The part of `fsyncEdge` that takes the first accepted pulse: the time steps by its offset, and the count of pulses
begins at its boundary. -/
def Chip.firstPulse (c : Chip) (off n : Int) : Chip :=
  let d := c.stepTime (-off)
  ((d.setTime { d.time with fsMissed := 0, fsBase := some n }).putB TIM_STATUS.TRACEABLE false).setServo .fsync

theorem Chip.fsyncEdge_first {rising : Bool} (frac10 : Nat) (h : c.bit TIM_FSYNC.FS_EDGE = !rising)
    (hs : c.get TIM_CTRL.TIME_SRC = 1) (hv : c.time.servo ≠ .fsync) :
    c.fsyncEdge rising frac10 = (c.reportFsync frac10).firstPulse (c.fsyncOff frac10) (c.fsyncBoundary frac10) := by
  have active : ¬ rising = c.bit TIM_FSYNC.FS_EDGE := by simp [h]
  have source : ¬ (c.reportFsync frac10).get TIM_CTRL.TIME_SRC ≠ 1 := by
    rw [(c.reportFsync_within frac10).regs.get _ (by decide)]
    exact not_not_intro hs
  have servo : (c.reportFsync frac10).time.servo ≠ .fsync := by rwa [Chip.reportFsync_time]
  unfold Chip.fsyncEdge
  rw [if_neg active]
  exact (if_neg source).trans (if_pos servo)

/-- The first accepted pulse with no trigger armed: `FSYNC` is entered and shown, the step latches, and neither samples
nor misses are held. -/
theorem Chip.firstPulse_effect (off n : Int) (h : ∀ n, n < 4 → (c.trig n).target = none) :
    (c.firstPulse off n).time.servo = .fsync ∧ (c.firstPulse off n).get TIM_STATUS.SERVO_STATE = 4 ∧
      (c.firstPulse off n).get TIM_EVENT.STEP = 1 ∧ (c.firstPulse off n).time.accepted = [] ∧
      (c.firstPulse off n).time.fsMissed = 0 := by
  unfold Chip.firstPulse
  rw [Chip.stepTime_unarmed _ h]
  refine ⟨Chip.setServo_servo .., Chip.setServo_state .., ?_, Chip.setServo_accepted .., Chip.setServo_fsMissed ..⟩
  rw [Chip.setServo_get _ _ _ (by decide) (by decide) (by decide), Chip.putB, Chip.get_put_ne _ _ _ (by decide),
    Chip.setTime_get, Chip.jumpTime_step]

/-! The load of the time (R116). -/

/-- The time that `TIM_SET` holds. -/
def Chip.timSet (c : Chip) : Int :=
  (((c.get ⟨0x20040, 0, 16⟩ * 2 ^ 32 + c.get ⟨0x20044, 0, 32⟩ : Nat) : Int) * 1000000000 +
    (c.get ⟨0x20048, 0, 32⟩ : Int)) * 65536 + (c.get ⟨0x2004C, 0, 16⟩ : Int)

/-- With no transaction open, no word is locked (R357). -/
theorem Chip.lockedBy_no_txns (own a : Nat) (h : c.sel.txns = []) : c.lockedBy own a = false := by
  simp [Chip.lockedBy, h]

/-- Nothing refuses `SET_GO` for what it does. -/
theorem Chip.actionRefusal_set_go (c d : Chip) : c.actionRefusal d TIM_CTRL.SET_GO.one = none := rfl

/-- In Stopped or Running, with no transaction open, a write of 1 to `SET_GO` acts and is answered `OK`. -/
theorem Chip.writeOne_set_go (nv : NonVol) (hst : c.st = .stopped ∨ c.st = .running) (ht : c.sel.txns = []) :
    c.writeOne nv TIM_CTRL.SET_GO = c.setGo.ans .ok [0xFFFFFFFF] := by
  rw [Chip.writeOne_act c nv _ hst (List.all_eq_true.mp acts_all _ (by simp)) (Chip.lockedBy_no_txns _ _ ht)
    (Chip.actionRefusal_set_go c _), Chip.actWord_set_go]

/-- An island grandmaster with no trigger armed loads `TIM_SET`. -/
theorem Chip.setGo_island (hr : c.get TIM_CTRL.PTP_ROLE = 2) (h : ∀ n, n < 4 → (c.trig n).target = none) :
    c.setGo = c.jumpTime (c.timSet - c.now) := (if_pos (.inl hr)).trans (Chip.stepTime_unarmed _ h)

/-- Any other device that follows PTP refuses the load. -/
theorem Chip.setGo_refused (hr : c.get TIM_CTRL.PTP_ROLE ≠ 2) (hs : c.get TIM_CTRL.TIME_SRC = 0) :
    c.setGo = c.latch TIM_EVENT.SET_REFUSED := if_neg (not_or.mpr ⟨hr, not_not_intro hs⟩)

/-- Settles O12: each clause is one branch of the edge or of the load, and what it changes is read off the lemmas about
reports, steps and servo states. -/
theorem fsyncAndSetGo : Obligations.FsyncAndSetGo := by
  refine ⟨fun s rising frac10 ht hp => ?_, fun s rising frac10 ht hp hs => ?_,
    fun s rising frac10 ht hp hs hv hn => ?_, fun s hst hx hr hn => ?_, fun s hst hx hr hs => ?_⟩
  · exact ends_when _ (·.fsyncEdge rising frac10) rfl ht (Chip.fsyncEdge_ignored frac10 hp)
  · refine ends_when _ (·.fsyncEdge rising frac10) rfl ht ?_
    rw [Chip.fsyncEdge_reported frac10 hp hs]
    obtain ⟨parts, regs⟩ := s.chip.reportFsync_within frac10
    refine ⟨(Chip.reportFsync_error _ _).trans ?_, parts, regs⟩
    exact congrArg (fun off => satSigned 32 (off * 10 / 65536)) (Chip.fsyncOff_eq _ _)
  · refine ends_when _ (·.fsyncEdge rising frac10) rfl ht ?_
    rw [Chip.fsyncEdge_first frac10 hp hs hv]
    refine Chip.firstPulse_effect _ _ fun n hl => ?_
    rw [Chip.trig, Chip.reportFsync_time]
    exact hn n hl
  · refine ends_act (·.writeOne s.nv TIM_CTRL.SET_GO) rfl ?_
    obtain ⟨parts, regs⟩ := s.chip.jumpTime_within (s.chip.timSet - s.chip.now)
    rw [Chip.writeOne_set_go s.nv hst hx, Chip.setGo_island hr hn]
    rw [Chip.ans_answer, Chip.ans_get, Chip.now_congr (Chip.ans_time _ _ _), Chip.jumpTime_now,
      Int.add_comm s.chip.now, Int.sub_add_cancel]
    exact ⟨rfl, Chip.jumpTime_step _ _, rfl, (parts.more (by decide)).ans _ _, regs.same (Chip.ans_regs _ _ _)⟩
  · refine ends_act (·.writeOne s.nv TIM_CTRL.SET_GO) rfl ?_
    rw [Chip.writeOne_set_go s.nv hst hx, Chip.setGo_refused hr hs, Chip.ans_get, Chip.now_congr (Chip.ans_time _ _ _),
      Chip.now_congr (Chip.latch_time _ _)]
    exact ⟨Chip.get_latch_self _ _ (by decide) (by decide), rfl, (Chip.Only.latch (.refl _ _) _).ans _ _,
      .same (.put (.refl _ _) TIM_EVENT.SET_REFUSED 1 (by decide)) (Chip.ans_regs _ _ _)⟩

end Sys2Proof.Machine

/-! SUPPORT. Lost rails (R501, R503, R504, R509): what a reset with cause `POWER` leaves, what the loss of each kind of rail
comes to, and the statement on lost rails. -/

namespace Sys2Proof.Machine

open Sys2Proof

variable {c : Chip} {r : Rail}

/-! The reset with cause `POWER` (R507, R509). -/

/-- `POWER` is taken even during a reset hold, and clears the always-on record and the error log too. The supplies stay as
they are, but group B has yet to become good again. -/
theorem Chip.takeReset_power_leaves (h : c.st ≠ .off) :
    (c.takeReset causePower).st = .reset ∧ (c.takeReset causePower).aon.resetCause = causePower ∧
      (c.takeReset causePower).regs = [] ∧ (c.takeReset causePower).errs.log = [] ∧ (c.takeReset causePower).evq = [] ∧
      (c.takeReset causePower).sel = Selul.start ∧
      (c.takeReset causePower).power.groupAGood = c.power.groupAGood ∧
      (c.takeReset causePower).power.pwrenMain = c.power.pwrenMain ∧
      (c.takeReset causePower).power.groupBGood = false := by
  have taken : ¬ (c.st = .reset ∧ causePower ≠ causePower ∧ causePower ≠ causePin) := fun k => k.2.1 rfl
  unfold Chip.takeReset
  rw [if_neg h, if_neg taken, if_pos rfl]
  exact ⟨rfl, rfl, rfl, rfl, rfl, rfl, rfl, rfl, Bool.and_false _⟩

/-! The loss of a rail (R504). -/

theorem railBit_isSome (hr : r ≠ .vddAon) : ∃ b, railBit r = some b := by
  cases r with
  | vddAon => exact absurd rfl hr
  | vddio3v3 | vdda1v8 | vddSd | vddhSd | vddCore | vddSram => exact ⟨_, rfl⟩

theorem ne_vddAon_of_railB (hb : railB r = true) : r ≠ .vddAon := by
  rintro rfl
  exact Bool.false_ne_true hb

/-- A lost rail of group A other than VDD_AON: `PG_LOW` is noted, the reset is taken, and both groups are down. -/
theorem Chip.railLost_groupA (h : c.st ≠ .off) (hr : r ≠ .vddAon) (hb : railB r = false) :
    ∃ (a : Aon) (p : Power), c.railLost r = ((c.setAon a).takeReset causePower).setPower
      { p with groupAGood := false, pwrenMain := false, groupBGood := false } := by
  obtain ⟨b, hbit⟩ := railBit_isSome hr
  unfold Chip.railLost
  rw [if_neg h, hbit, hb]
  exact ⟨_, _, rfl⟩

/-- A lost rail of group B that PWREN_MAIN holds up: `PG_LOW` is noted and the reset is taken. -/
theorem Chip.railLost_groupB (h : c.st ≠ .off) (hd : c.st ≠ .dormant) (hm : c.power.pwrenMain = true)
    (hb : railB r = true) : ∃ a, c.railLost r = (c.setAon a).takeReset causePower := by
  obtain ⟨b, hbit⟩ := railBit_isSome (ne_vddAon_of_railB hb)
  have held : ¬ (c.st = .dormant ∨ c.power.pwrenMain = false) := by simp [hd, hm]
  unfold Chip.railLost
  rw [if_neg h, hbit, hb]
  exact ⟨_, if_neg held⟩

/-- A rail of group B that PWREN_MAIN has switched off falls without effect: the reading of R504 beside R503, R516
and R517. -/
theorem Chip.railLost_switchedOff (hs : c.st = .dormant ∨ c.power.pwrenMain = false) (h : c.st ≠ .off)
    (hb : railB r = true) : c.railLost r = c := by
  obtain ⟨b, hbit⟩ := railBit_isSome (ne_vddAon_of_railB hb)
  unfold Chip.railLost
  rw [if_neg h, hbit, hb]
  exact if_pos hs

/-- With VDD_AON the part is without power. -/
theorem Chip.railLost_vddAon (h : c.st ≠ .off) : c.railLost .vddAon = c.powerOff := if_neg h

/-- The loss of any rail but VDD_AON leaves the boundary-scan logic alone. -/
theorem exec_railLost_act (s : State) (hr : r ≠ .vddAon) :
    exec (.railLost r) s = s.act (.railLost r) (·.railLost r) :=
  congrArg (s.inTurn (.railLost r)) (if_neg hr)

theorem exec_railLost_vddAon {s : State} (h : s.chip.st ≠ .off) (ht : s.turn (.railLost .vddAon) = true) :
    exec (.railLost .vddAon) s = .next { s.run s.chip.powerOff with tap := Tap.reset } := by
  rw [← Chip.railLost_vddAon h]
  exact State.inTurn_turn _ ht

/-! The return of group A (R503). -/

/-- Group A becomes good in Off: the device enters Reset with the always-on record as it stands. -/
theorem Chip.railsGood_fromOff (h : c.st = .off) (hg : c.power.groupAGood = false) :
    c.railsGood = (c.setPower { c.power with groupAGood := true, pwrenMain := true }).setSt .reset := by
  unfold Chip.railsGood
  rw [hg]
  exact if_pos h

/-- Settles O2: the loss of a rail of either group under power is a reset with cause `POWER`, that of VDD_AON is the loss
of all power, and a rail that is switched off has no power to lose. Group A's return shows the cause of an always-on
record fresh from power-on. -/
theorem lostRails : Obligations.LostRails := by
  refine ⟨fun s r h hr hb => ?_, fun s r h hd hm hb => ?_, fun s h ht => ?_, fun s h ha hg => ?_, fun s r hs h hb => ?_⟩
  · obtain ⟨a, p, lost⟩ := Chip.railLost_groupA h hr hb
    obtain ⟨st, cause, regs, log, evq, sel, -⟩ := Chip.takeReset_power_leaves (c := s.chip.setAon a) h
    refine ends_act (·.railLost r) (exec_railLost_act s hr) ?_
    rw [lost]
    exact ⟨st, cause, regs, log, evq, sel, rfl, rfl⟩
  · obtain ⟨a, lost⟩ := Chip.railLost_groupB h hd hm hb
    obtain ⟨st, cause, regs, log, evq, sel, groupA, pwren, groupB⟩ :=
      Chip.takeReset_power_leaves (c := s.chip.setAon a) h
    refine ends_act (·.railLost r) (exec_railLost_act s (ne_vddAon_of_railB hb)) ?_
    rw [lost]
    exact ⟨st, cause, regs, log, evq, sel, groupA, pwren.trans hm, groupB⟩
  · exact ⟨_, exec_railLost_vddAon h ht, rfl, rfl, rfl⟩
  · refine ends_act Chip.railsGood rfl ?_
    rw [Chip.railsGood_fromOff h hg]
    exact ⟨rfl, congrArg Aon.resetCause ha⟩
  · exact ends_act (·.railLost r) (exec_railLost_act s (ne_vddAon_of_railB hb)) (Chip.railLost_switchedOff hs h hb)

end Sys2Proof.Machine
